-- ==== Sys2Proof/Word.lean ====
section
/-! DEFINITION. The word types of the Brelux Z640 model. -/

namespace Sys2Proof

/-- A byte (R5, R6). -/
abbrev Byte := BitVec 8

/-- A 32-bit word: a die script register or instruction word (R203, R206), a loop instruction word (R446). -/
abbrev Word32 := BitVec 32

/-- A 16-bit data word of a loop engine (R444). -/
abbrev Word16 := BitVec 16

end Sys2Proof
end

