-- ==== Sys2Proof/Syntax.lean ====
section
/-! DEFINITION. The commands and events of the Brelux Z640, one constructor per row of the table of operations. What
the environment fixes (the outcome of a decode, a measured value, an elapsed time, the bytes a host or a die sends) is
an operand. -/

namespace Sys2Proof

/-- The Zone Send actions of R65. -/
inductive ZoneAct where
  | openZ | closeZ | finishZ | resetZ | offlineZ
deriving DecidableEq, Repr

/-- The I/O commands of R52; other holds an opcode outside the table. -/
inductive IoOp where
  | flush | write | read | compare | writeZeroes | dsm | verify
  | resvRegister | resvReport | resvAcquire | resvRelease
  | zoneAppend | zoneSend (a : ZoneAct) | zoneSetExt | zoneReport | zoneExtReport
  | other (opcode : Nat)
deriving DecidableEq, Repr

/-- A submission entry of an I/O command (R52, R80, R96, R365). -/
structure IoCmd where
  /-- issuing function: 0 the PF, 1 to 512 a lens (R44) -/
  fn : Nat
  sq : Nat
  cid : Nat
  nsid : Nat
  /-- starting LBA, or the ZSLBA of an append -/
  slba : Nat
  /-- number of logical blocks, counted from 1 -/
  nlb : Nat
  /-- fabric cycle in which the command left its crossing FIFO (R43, R45) -/
  cross : Nat
  /-- host address of the data, and of the completion entry (R365) -/
  dptr : Nat
  cqAddr : Nat
  /-- PASID of the command's DMA, 0xFFFFFFFF for none (R363) -/
  pasid : Nat
  /-- a reserved field of the entry is set (check 1 of R56) -/
  badField : Bool
  selectAll : Bool
  /-- DSPEC of a directive type 2 write (R80) -/
  dspec : Option Nat
  /-- initial reference tag and Protection Information Remap (R73) -/
  ilbrt : Nat
  piRemap : Bool
  /-- the entry's application tag and its mask (R14, log entry 99) -/
  lbat : Nat
  lbatm : Nat
  /-- reservation host of the controller (check 4 of R56) -/
  host : Nat
deriving DecidableEq, Repr

/-- What a decoder reports (R216 to R218): success with the corrected bits, or failure. -/
inductive Dec where
  | good (corrected : Nat)
  | bad
deriving DecidableEq, Repr

/-- The jobs of a die program (R142, R197, R233, R273). -/
inductive ProgJob where
  /-- the SLC page of a staging ring row on the die -/
  | stage (ring row page : Nat)
  /-- fold unit w of a zone -/
  | fold (zone w : Nat)
  /-- an erase-ledger start or completion cell naming blocks -/
  | startCell (blocks : List Nat)
  | doneCell
  /-- a journal, ledger or other system-row page -/
  | system
  /-- a conventional unit to its pool row -/
  | pool (nsid unit : Nat)
  /-- a copy of a rewrite, resync or sanitize, or an absent unit rebuilt in probation -/
  | copy (zone w : Nat)
deriving DecidableEq, Repr

/-- Who makes a dictionary request (R457, R479, R485). -/
inductive Requester where
  | lens (n : Nat)
  | pf
  /-- relayed host admin request: path 1 a cascade master, path 2 the twin -/
  | hostRelay (path : Nat)
  /-- management endpoint 0 to 2, relayed 3 and 4 -/
  | mgmt (e : Nat)
  | twin
deriving DecidableEq, Repr

/-- A dictionary request's address (R481). -/
structure OdReq where
  obj : Nat
  elem : Nat
  inst : Nat
  target : Nat
  offset : Nat
  length : Nat
deriving DecidableEq, Repr

/-- One entry of a Dictionary Write list or of an MCTP request list (R481, R487). -/
inductive DictOp where
  | read (r : OdReq)
  | readStaged (r : OdReq)
  | describe (r : OdReq)
  | write (r : OdReq) (value : Nat)
  /-- an operation code that R481 does not list -/
  | other (code : Nat) (r : OdReq)
deriving DecidableEq, Repr

/-- An admin command's issuer and identifier, and the host addresses of its data and of its completion entry (R365). -/
structure Adm where
  fn : Nat
  cid : Nat
  dptr : Nat
  cqAddr : Nat
deriving DecidableEq, Repr

/-- A write of 1 to OD 0xF010:00: its requester, whether it came inside a secured session, the Dictionary Write that
carries it, and the smallest count of unused spares of a die in service that the follower reports (R238, R470, R488). -/
structure CommitReq where
  who : Requester
  secured : Bool
  a : Option Adm
  twinSpares : Nat
  /-- bytes of the data buffer that holds the list, where it is shorter than the list (R483) -/
  limit : Option Nat := none
deriving DecidableEq, Repr

/-- The header fields of a received Mirror link or cascade frame (R298). -/
structure FrameHdr where
  epoch : Nat
  seq : Nat
deriving DecidableEq, Repr

/-- A namespace table entry in a state transfer (R324). -/
structure NsDesc where
  nsid : Nat
  zoned : Bool
  size : Nat
  lbaf : Nat
  /-- protection information type (R48), 0 for none -/
  pit : Nat
  parity : Nat
  pclass : Nat
  activeQuota : Nat
  openQuota : Nat
  zones : List Nat
  poolRows : List Nat
  /-- placement handle list (R80) -/
  handles : List Nat
  /-- extents on a cascade: first zone, zones, position (R329, R339) -/
  extents : List (Nat × Nat × Nat)
  gen : Nat
  salt : Nat
deriving DecidableEq, Repr

/-- A zone descriptor in a state transfer (R324): state is the code of R60. -/
structure ZoneDesc where
  zone : Nat
  state : Nat
  wp : Nat
  finish : Option Nat
  epoch : Nat
  ring : Option Nat
  keyGen : Nat
deriving DecidableEq, Repr

/-- A state transfer (R324): the namespace table, the placement-relevant values by key, the zone descriptors, and the
unit map of incomplete fold units as ring, cell counter, zone and unit. -/
structure Transfer where
  /-- the lead is in the preserve state, with the group of its entry (R88) -/
  preserve : Option Nat
  nss : List NsDesc
  config : List (Nat × Nat)
  zones : List ZoneDesc
  cells : List (Nat × Nat × Nat × Nat)
deriving DecidableEq, Repr

/-- Where a Namespace Management, Format NVM or Sanitize operation comes from (R157, R329, R333, R396, R402): the host;
at the lead, the follower; at the follower, the lead with its status, its assignment and the salts it drew; at a cascade
member, the master with its tag, the extent's first namespace zone and length, and the NSID. -/
inductive AdmSrc where
  | host (a : Adm)
  | follower
  | lead (status : Nat) (desc : Option NsDesc) (salts : List Nat)
  | master (tag first count nsid : Nat)
deriving DecidableEq, Repr

/-- A keepalive's status block (R299). -/
structure StatusBlock where
  /-- 0 unpaired, 1 lead, 2 follower -/
  role : Nat
  phase : Nat
  appliedHead : Nat
  sealedHead : Nat
  preserve : Bool
  hbIn : Bool
  serial : Nat
deriving DecidableEq, Repr

/-- A ledger record (R94 to R98), without the state the device keeps beside it. -/
structure LedgerRec where
  asn : Nat
  epoch : Nat
  rtype : Nat
  flags : Nat
  status : Nat
  zone : Nat
  nsid : Nat
  lba : Nat
  blocks : Nat
  fn : Nat
  queue : Nat
  cid : Nat
  stateAfter : Nat
  opcode : Nat
  action : Nat
  generation : Nat
  cascade : Nat
  wpAfter : Nat
  dataCheck : Nat
  /-- digest of an epoch record, or prism group of a preserve entry record (R98) -/
  body : Nat
deriving DecidableEq, Repr

/-- One parameter page as stage 1 reads it (R118). -/
structure ParamPage where
  die : Nat
  signatureOk : Bool
  pageBytes : Nat
  spareBytes : Nat
  pagesPerBlock : Nat
  bitsPerCell : Nat
  planes : Nat
  blocks : Nat
  lunsPerTarget : Nat
  /-- blocks with the factory bad-block mark, as ascending runs of first block and count (R121) -/
  bad : List (Nat × Nat)
  nvLpddr4 : Bool
  nvDdr3 : Bool
deriving DecidableEq, Repr

/-- What stage 0 and stage 1 find outside the device (R544, R546). -/
structure BootFacts where
  stage1Valid : Bool
  /-- validity of the FTL image in each of the two slots (R419) -/
  ftlValid0 : Bool
  ftlValid1 : Bool
  ftlSecVersion0 : Nat
  ftlSecVersion1 : Nat
  dramConfigOk : Bool
  /-- the highest DRAM rate that trains on every channel, 0 for none (R494) -/
  dramRate : Nat
  dramRanks : Nat
  dramDensity : Nat
  /-- a part reports that it requires RFM (R495) -/
  needsRfm : Bool
  /-- VCCQ_F of each quad in mV (R571) -/
  quadMv : List Nat
  /-- parameter pages; a die in neither list matches the reference die -/
  pages : List ParamPage
  /-- dies that answer with no parameter page -/
  silent : List Nat
  /-- channels without a valid die script (R546) -/
  noScript : List Nat
  row0Valid : Bool
  crystalOk : Bool
  /-- the QSPI part has SFDP and quad DTR (R595) -/
  qspiQuad : Bool
  /-- flash calibration resistors found outside 200 to 280 ohm, by quad, and DRAM ones by channel (R569) -/
  badFzq : List Nat
  badDzq : List Nat
  /-- spare bytes per page, smallest over the dies in service (OD 0x3000:02) -/
  spareBytes : Nat
  /-- digests of the stage 1 image and of the loaded FTL image -/
  stage1Digest : Nat
  ftlDigest : Nat
deriving DecidableEq, Repr

/-- What boot stage 2 finds (R393, R394, R407). -/
structure SealFacts where
  entropyOk : Bool
  unitsOk : Bool
  /-- lanes that fail their vectors (R394) -/
  badLanes : List Nat
  rootKwOk : Bool
  /-- the signature of the retained boot record verifies (R411) -/
  retainedOk : Bool
  /-- newest records of row 0 whose signature does not verify (R411) -/
  row0Bad : Nat
deriving DecidableEq, Repr

/-- What the media show at an unclean restart (R283 to R285, R605, R609). -/
structure LossFacts where
  /-- highest durable ASN -/
  durableAsn : Nat
  /-- window units (zone, offset) that an image or a program had kept -/
  keptUnits : List (Nat × Nat)
  /-- programs cut short: zone, w, facet (R285) -/
  cutPrograms : List (Nat × Nat × Nat)
  /-- ring instance and the lowest unprogrammed counter at or above the surviving value (R609) -/
  ringFloor : List (Nat × Nat)
deriving DecidableEq, Repr

/-- Facts about a firmware image offered to Firmware Commit (R419). -/
structure ImageFacts where
  formatOk : Bool
  signatureOk : Bool
  keySlot : Nat
  secVersion : Nat
  digest : Nat
  /-- the header asks for the OTP minimum to be raised (R420) -/
  asksRaise : Bool
deriving DecidableEq, Repr

/-- A message that asks the cipher lane arbiter for a lane (R388, R389). -/
structure CipherReq where
  /-- user page (R385) -/
  page : Nat
  /-- the host command that it serves, 0 where none (R383) -/
  id : Nat
  /-- 16-byte blocks -/
  blocks : Nat
  decrypt : Bool
  /-- namespace and key generation, for pages 0 to 512 -/
  nsid : Nat
  gen : Nat
  /-- frame kind, for link pages (R299) -/
  kind : Nat
deriving DecidableEq, Repr

/-- What a DRAM codeword or buffer held (R504). -/
inductive Held where
  | windowUnit (zone unit : Nat)
  | readData (rid unit : Nat)
  | foldCache (zone unit : Nat)
  | oneCopy
  | bothCopies
  | ftlRegion
  | freeLink (pool tier : Nat)
  | other
deriving DecidableEq, Repr

/-- What the path-code decoder reports for an access (R499). -/
inductive PathRes where
  | clean
  /-- corrected; the repeat reads clean or not (R223) -/
  | corrected (second : Bool)
  | uncorrectable (h : Held)
deriving DecidableEq, Repr

/-- What the path code reports along a data path inside the device: at the staging buffer (R13), and at the dual-clock
FIFOs it passes (R38). -/
structure SramPath where
  staging : PathRes
  fifo : PathRes
deriving DecidableEq, Repr

/-- A buffer or DRAM requester's class and port (R510, R511). -/
structure Req where
  cls : Nat
  port : Nat
  id : Nat
deriving DecidableEq, Repr

/-- A DRAM request: its class and port, its data address, and the bytes it writes there (R510, R511). -/
structure DramReq where
  req : Req
  address : Nat
  write : Option (List Byte)
deriving DecidableEq, Repr

/-- SPDM and MCTP bindings (R414, R484): 0 and 1 the I3C buses, 2 PCIe VDM, 3 the DOE mailbox, 4 the Mirror link,
5 to 7 the cascade ports. -/
abbrev Binding := Nat

/-- The Admin commands that NVMe-MI tunnels (R484). -/
inductive MiCmd where
  | ledgerLog (position : Nat) (remap : Bool) (first count : Nat)
  | mediaHealth
  | contractLog (lens : Nat)
  | loupeLog (source slot count : Nat)
  | smart
  /-- Identify with its CNS (0 namespace, 1 controller, 5 zoned namespace, 6 zoned controller) -/
  | identify (cns nsid : Nat)
  | supportedLogPages
  | dictWrite (ops : List DictOp) (secured : Bool) (twinSpares : Nat)
  | dictRead (op : DictOp)
deriving DecidableEq, Repr

/-- What a doorbell rings: its submission queue and the entries added there (R347). -/
structure Doorbell where
  sq : Nat
  entries : Nat
deriving DecidableEq, Repr

/-- What a page read brings: the decoder's report, and the path code's (R13, R38, R216). -/
structure Decoded where
  dec : Dec
  path : SramPath
deriving DecidableEq, Repr

/-- A step of the read-retry ladder: what it brings, and the time left of the die operations that run (R179, R216). -/
structure Tried where
  read : Decoded
  remain : List (Nat × Nat)
deriving DecidableEq, Repr

/-- A waiting program: its job, and the time gone in the slot (R171). -/
structure ProgIssue where
  job : ProgJob
  elapsed : Nat
deriving DecidableEq, Repr

/-- What the twin reports of its side besides the agreement: whether it names this device's pair, how many controllers
it has (R2), and its placement revision (R421). -/
structure Peer where
  paired : Bool
  controllers : Nat
  revision : Nat
deriving DecidableEq, Repr

/-- Blocks that a frame carries, and what the path code reports as they are taken in (R13, R38). -/
structure Carried where
  content : List Nat
  path : SramPath
deriving DecidableEq, Repr

/-- What a member's completion carries besides its status and result: its sealed head (R336) and data. -/
structure MemberEnd where
  sealedHead : Nat
  data : List Nat
deriving DecidableEq, Repr

/-- A controller reset: the function, and whether the twin has an enabled controller of it (R68). -/
structure FnReset where
  fn : Nat
  twinEnabled : Bool
deriving DecidableEq, Repr

/-- A register request: its T bit (R370), its offset, and the value that a write carries (R8). -/
structure Mmio where
  tBit : Bool
  off : Nat
  write : Option Nat
deriving DecidableEq, Repr

/-- An LBA format with its protection information (R48). -/
structure NsFormat where
  lbaf : Nat
  pit : Nat
deriving DecidableEq, Repr

/-- Where a namespace's data goes: the placement class of its zones (R156) and its placement handles (R80). -/
structure NsPlace where
  pclass : Nat
  handles : List Nat
deriving DecidableEq, Repr

/-- The part of the ledger log that is read (R101). -/
structure LogRange where
  offset : Nat
  length : Nat
deriving DecidableEq, Repr

/-- The commands and events of the block, one per row of the table. -/
inductive Instr where
  -- submission and lens arbitration (R347 to R351)
  | submissionQueueDoorbell (fn : Nat) (bell : Doorbell)
  | submissionEntryFetched (op : IoOp) (c : IoCmd)
  | tokenRefill
  | lensSubmissionGrant
  -- the host I/O commands (R52)
  | flush (c : IoCmd)
  | write (c : IoCmd)
  | read (c : IoCmd)
  | compare (c : IoCmd) (data : List Nat)
  | writeZeroes (c : IoCmd)
  | datasetManagement (c : IoCmd) (deallocate : Bool) (ranges : List (Nat × Nat))
  | verify (c : IoCmd)
  | reservationRegister (c : IoCmd) (action crkey nrkey : Nat)
  | reservationReport (c : IoCmd)
  | reservationAcquire (c : IoCmd) (action crkey prkey rtype : Nat)
  | reservationRelease (c : IoCmd) (action crkey rtype : Nat)
  | zoneAppend (c : IoCmd)
  | openZone (c : IoCmd)
  | closeZone (c : IoCmd)
  | finishZone (c : IoCmd)
  | resetZone (c : IoCmd)
  | offlineZone (c : IoCmd)
  | setZoneDescriptorExtension (c : IoCmd)
  | reportZones (c : IoCmd) (option : Nat) (part : Bool) (limit : Nat)
  | extendedReportZones (c : IoCmd)
  | unsupportedIoCommand (c : IoCmd) (opcode : Nat)
  -- admission, ledger, journal (R45, R89 to R110, R269 to R272)
  | asnSequencerPick
  | admissionHoldRelease (ring row : Nat)
  | writeDataFetch (id : Nat) (data metadata : List Nat) (staging fifo : PathRes)
  | postWriteCompletion (id : Nat)
  | ledgerRowProgram
  | remapRecordProgram
  | journalPageProgram
  | checkpointBegin
  | checkpointEnd
  | resetStepUnmap (id zone : Nat)
  -- die operations (R165 to R201)
  | dieReadIssue (rid unit : Nat) (remain : List (Nat × Nat))
  | dieReadDone (rid unit die : Nat) (d : Decoded) (remain : List (Nat × Nat))
  | readRetryStep (rid unit : Nat) (t : Tried)
  | softDecode (rid unit : Nat) (d : Decoded)
  | dieProgramIssue (die : Nat) (p : ProgIssue)
  | dieProgramReady (die status : Nat) (verifyOk : Bool)
  | dieEraseIssue (die block : Nat)
  | dieEraseReady (die status : Nat)
  | eraseSuspend (die : Nat) (boundary : Bool)
  | eraseSuspendDone (die status : Nat)
  | eraseResume (die : Nat)
  | wrdyTimeout (die : Nat)
  | operationTimeout (die : Nat)
  | scriptInstructionLimit (die : Nat)
  -- die script instructions (R203 to R208): the die's context and the instruction word
  | nop (die : Nat) (w : Word32)
  | cmd (die : Nat) (w : Word32)
  | addr (die : Nat) (w : Word32)
  | dout (die : Nat) (w : Word32)
  | din (die : Nat) (w : Word32)
  | doutb (die : Nat) (w : Word32)
  | dinb (die : Nat) (w : Word32) (received : Byte)
  | sel (die : Nat) (w : Word32)
  | dsel (die : Nat) (w : Word32)
  | wrdy (die : Nat) (w : Word32)
  | dieReady (die : Nat)
  | stat (die : Nat) (w : Word32) (received : Byte)
  | dly (die : Nat) (w : Word32)
  | phy (die : Nat) (w : Word32)
  | movi (die : Nat) (w : Word32)
  | movh (die : Nat) (w : Word32)
  | aluAdd (die : Nat) (w : Word32)
  | aluSubtract (die : Nat) (w : Word32)
  | aluAnd (die : Nat) (w : Word32)
  | aluOr (die : Nat) (w : Word32)
  | aluXor (die : Nat) (w : Word32)
  | aluShiftLeft (die : Nat) (w : Word32)
  | aluShiftRight (die : Nat) (w : Word32)
  | aluiAdd (die : Nat) (w : Word32)
  | aluiSubtract (die : Nat) (w : Word32)
  | aluiAnd (die : Nat) (w : Word32)
  | aluiOr (die : Nat) (w : Word32)
  | aluiXor (die : Nat) (w : Word32)
  | aluiShiftLeft (die : Nat) (w : Word32)
  | aluiShiftRight (die : Nat) (w : Word32)
  | br (die : Nat) (w : Word32)
  | bst (die : Nat) (w : Word32)
  | call (die : Nat) (w : Word32)
  | ret (die : Nat) (w : Word32)
  | gets (die : Nat) (w : Word32)
  | cnt (die : Nat) (w : Word32)
  | endOp (die : Nat) (w : Word32)
  -- apertures, media care (R169, R213, R226 to R245, R276, R398)
  | slotBoundary
  | frameBoundary
  | channelScriptSwap (ch rate : Nat)
  | rewriteStep (die : Nat) (ok : Bool)
  | rowTableSwitch (die : Nat)
  | patrolRead (zone w facet : Nat) (d : Dec)
  | probationPhaseEnd (die : Nat) (ok : Bool)
  | phase3FacetRepair (die zone : Nat) (d : Dec)
  | gcStep (nsid group : Nat)
  | keyRotationStep (nsid : Nat)
  -- power loss, shutdown, restart (R255 to R293)
  | plnFallingEdge (sinceUs : Nat)
  | plnQualified
  | plnGlitch
  | holdupDrainDone (durationUs : Nat)
  | holdupSealDone
  | powerLostRelease
  | pwrdisQualified
  | ccShnShutdown (fn shn : Nat)
  | shutdownComplete
  | restartScan (loss : Option LossFacts)
  | pairBootWaitExpiry
  | imageAreaRelease
  -- Mirror pair (R294 to R326)
  | keepaliveSend
  | keepalive (h : FrameHdr) (b : StatusBlock)
  | linkLoss
  | promotionWaitExpiry
  | pairHbInAbsent
  | pairHbInPresent
  | linkTrained (port lanes : Nat) (serial position : Nat) (peerDigest : Nat) (peerEpoch : Nat) (peerLead peerPref peerNamespaces : Bool) (peer : Peer)
  | holdingAcknowledgement (h : FrameHdr) (asns differ : List Nat)
  | holdingAckLate (asn : Nat)
  | linkAcknowledgement (port received resend : Nat)
  | fastRetrainTimeout (port : Nat)
  | attachFrame (h : FrameHdr) (forkPoint livePoint : Nat) (rings regions : List (Nat × Nat)) (transfer : Option Transfer)
  | handoverFrame (h : FrameHdr) (head : Nat)
  | detachFrame (h : FrameHdr) (asn : Nat)
  | powerLossNotice (port : Nat)
  | preserveReport (h : FrameHdr) (group : Nat)
  | forkReport (h : FrameHdr) (forkPoint appliedHead : Nat)
  | forcedResetFrame (h : FrameHdr) (case : Nat)
  | pairRootTransfer (h : FrameHdr) (root : Nat)
  | keySwitchAsnFrame (h : FrameHdr) (nsid asn generation salt : Nat)
  | admissionRequest (h : FrameHdr) (op : IoOp) (c : IoCmd) (index generation : Nat)
  | ledgerRecords (h : FrameHdr) (recs : List LedgerRec)
  | fetchRequest (h : FrameHdr) (zone unit count : Nat)
  | conventionalOrder (h : FrameHdr) (id nsid lba blocks seq : Nat)
  | writeDataFrame (h : FrameHdr) (asn zone unit check : Nat) (c : Carried) (lastFrame : Bool)
  | fetchResponse (h : FrameHdr) (rid zone unit : Nat) (c : Carried) (generation : Nat)
  | catchingUpDone
  | resyncZoneCopy (zone : Nat)
  | zoneResyncDone
  | keyUpdate (port : Nat)
  -- cascade (R327 to R339)
  | forwardedCommand (h : FrameHdr) (op : IoOp) (c : IoCmd) (index fn generation cls first check tag : Nat)
  | memberCompletion (position tag status dw0 dw1 : Nat) (e : MemberEnd)
  | cascadeLinkLoss (port : Nat)
  | memberProbationPass (position : Nat) (configOk extentsOk frameClean : Bool)
  | memberRemove (position : Nat)
  -- lenses (R342 to R372)
  | vfEnable (numVfs : Nat)
  | vfDisable (numVfs : Nat)
  | virtualizationOnline (a : Adm) (lens : Nat)
  | virtualizationOffline (a : Adm) (lens : Nat)
  | virtualizationAssign (a : Adm) (lens vq vi : Nat)
  | probationChecksPass (lens failed : Nat) (badLanes : List Nat)
  | flr (r : FnReset)
  | ccEnClear (r : FnReset)
  | ccEnSet (fn : Nat)
  | lockInterface (lens : Nat) (streamBound : Bool)
  | getDeviceInterfaceReport (lens : Nat)
  | getDeviceInterfaceState (lens : Nat)
  | startInterface (lens : Nat)
  | stopInterface (lens : Nat)
  | ideIntegrityFailure (port lens : Nat)
  | mmioRequest (lens : Nat) (m : Mmio)
  | writeLogSwap (lens : Nat)
  | swapComplete (lens : Nat)
  | lensPause (lens value : Nat)
  -- cipher, keys, attestation (R376 to R422)
  | cipherMessageGrant (requests : List CipherReq) (passed : Nat)
  | cipherAlarm (alarm : Nat)
  | alarmClearRecover
  | entropyHealthFailure
  | drbgReseed (ok : Bool)
  | laneReturn (lane : Nat) (vectorsOk : Bool)
  | keyRotationStart (nsid : Nat)
  | firmwareCommitReplace (a : Adm) (slot : Nat) (f : ImageFacts)
  | firmwareCommitReplaceActivate (a : Adm) (slot : Nat) (f : ImageFacts)
  | firmwareCommitActivate (a : Adm) (slot : Nat)
  | firmwareCommitImmediate (a : Adm)
  | raiseMinimum (version : Nat)
  | negotiateAlgorithms (b : Binding) (asymP384 sha384 secp384 aesGcm keySchedule : Bool)
  | getCertificate (b : Binding) (slot : Nat)
  | challenge (b : Binding) (slot nonce : Nat)
  | getMeasurements (b : Binding) (index nonce : Nat) (signed : Bool)
  | keyExchange (b : Binding) (secret : Nat)
  | setCertificate (b : Binding) (slot chain leafKey : Nat) (secured : Bool)
  | vendorDefinedRequest (b : Binding) (standard vendor sequence : Nat)
  -- levels, sleep, sensors, set-point, loop (R423 to R452)
  | levelChangeStart
  | levelChangeDone
  | vddPgRise
  | vddPgTimeout
  | vddPgFall
  | idleTimerExpiry
  | sleepEntry
  | sleepBlockAnswer (agrees : Bool) (holdOffUs : Nat)
  | sleepAnswerTimeout
  | sleepRetry
  | wakeEvent (event : Nat) (crcOk : Bool)
  | setFeaturesPowerManagement (a : Adm) (ps : Nat)
  | apstTransition (ps : Nat)
  | pciD3hot (inL12 : Bool)
  | managementSleepRequest (level : Nat)
  | adcPeriod (sums : List Nat) (pcapA : Nat) (dieTemps : List Int)
  | thermalCriticalExit
  | thermalTrip
  | temperatureSample
  | healthSave
  | pcapPRisingEdge (period high : Nat)
  | pcapPTimeout
  | pcapPFallback
  | pcapPRestore
  | loopTick
  | loopOverrun (eng : Nat)
  | loopInstructionLimit (eng : Nat)
  -- loop engine instructions (R446, R447)
  | loopNop (eng : Nat) (w : Word32)
  | lda (eng : Nat) (w : Word32)
  | add (eng : Nat) (w : Word32)
  | sub (eng : Nat) (w : Word32)
  | mpy (eng : Nat) (w : Word32)
  | mac (eng : Nat) (w : Word32)
  | msu (eng : Nat) (w : Word32)
  | sha (eng : Nat) (w : Word32)
  | sts (eng : Nat) (w : Word32)
  | clp (eng : Nat) (w : Word32)
  | min (eng : Nat) (w : Word32)
  | max (eng : Nat) (w : Word32)
  | ldi (eng : Nat) (w : Word32)
  | mov (eng : Nat) (w : Word32)
  | cmp (eng : Nat) (w : Word32)
  | loopBr (eng : Nat) (w : Word32)
  | adi (eng : Nat) (w : Word32)
  | loopEnd (eng : Nat) (w : Word32)
  | loopProgramLoad (eng image : Nat)
  | engineReturn (eng : Nat)
  | engineSelfTestDone (eng signature : Nat)
  | engineShadowDone (eng : Nat)
  -- DRAM and buffers (R493 to R530)
  | dramRequestGrant (ch : Nat) (requests : List DramReq) (p : PathRes)
  | agePromotion (ch port : Nat)
  | rowClose (ch bank : Nat)
  | dramRefresh (ch bank : Nat) (atLimit : Bool)
  | mr4Poll (ch code : Nat)
  | selfRefreshEntry (ch : Nat)
  | retrainStart
  | retrainPause (ch : Nat) (class0 : Bool) (drift : Int) (inRange : Bool)
  | fullRetraining (ch : Nat) (ok : Bool)
  | scrubRead (address : Nat) (p : PathRes) (lastOfPass : Bool)
  | dramInitBlock (block : Nat)
  | bufferAllocate (pool : Nat) (requests : List Req) (linkOk : Bool)
  | bufferReturn (pool address requester : Nat) (faulty : Bool)
  | freeListRebuildDone (pool tier : Nat)
  | bufferWaitTimeout (pool : Nat) (r : Req) (rid : Nat)
  -- reset, boot, BIST, recorder (R531 to R567)
  | powerOn
  | coreBrownOut
  | aonBrownOut
  | perstAssert
  | perstDeassert
  | perstGlitch
  | preResetFlushSeal
  | preResetFlushLimit
  | watchdogExpiry
  | bootTimerExpiry
  | managementReset
  | releaseCountDone (straps : Nat)
  | refclkLoss
  | refclkRestore
  | testModeHold (high : Bool)
  | stage1Loader (f : BootFacts)
  | stage2Sealed (f : SealFacts)
  | stage3Ftl
  | strapCheck (straps : Nat)
  | blockResetFlashChannel (i : Nat)
  | blockResetCipherLane (i : Nat)
  | blockResetSoftDecoder (i : Nat)
  | blockResetPlacementEngine (i : Nat)
  | blockResetLoopEngine (i : Nat)
  | blockResetMirrorLink
  | blockResetCascadePort (i : Nat)
  | blockResetTracePort
  | blockResetLoupe
  | maintenanceRequest (value : Nat)
  | bootFailureClear
  | logicBistStart
  | logicBistDone (signatures : List Nat)
  | onlinePassStart
  | memoryBistStep (signature : Nat)
  | deviceSelfTestShort (a : Adm) (failedLanes : List Nat)
  | deviceSelfTestExtended (a : Adm) (failedLanes : List Nat)
  | loupeTriggerPeriod (trigger : Nat)
  | loupeFlush
  | loupeEmpty
  | loupeResume
  | alertReleaseRead
  -- admin commands (R49, R59, R79, R101, R253, R357, R401, R402, R566)
  | namespaceCreate (src : AdmSrc) (zoned : Bool) (size : Nat) (format : NsFormat) (parity : Nat) (place : NsPlace) (activeQuota openQuota : Nat) (reservedZero : Bool) (memberFree : List Nat)
  | namespaceDelete (src : AdmSrc) (nsid : Nat)
  | namespaceAttach (a : Adm) (nsid : Nat) (fns : List Nat)
  | namespaceDetach (a : Adm) (nsid : Nat) (fns : List Nat)
  | formatNvmNoSecureErase (src : AdmSrc) (nsid : Nat) (format : NsFormat)
  | formatNvmUserDataErase (src : AdmSrc) (nsid : Nat) (format : NsFormat)
  | formatNvmCryptoErase (src : AdmSrc) (nsid : Nat) (format : NsFormat)
  | sanitizeBlockErase (src : AdmSrc)
  | sanitizeCryptoErase (src : AdmSrc)
  | sanitizeOverwrite (a : Adm)
  | abort (a : Adm) (sq cid : Nat)
  | setFeaturesFdp (a : Adm) (group : Nat) (enable : Bool) (events : Option (Nat × Nat))
  | admissionLedgerLog (a : Adm) (position : Nat) (remap offsetType1 : Bool) (range : LogRange) (fetched : Option (Nat × List Nat))
  | mediaHealthLog (a : Adm)
  | lensContractLog (a : Adm) (lens : Nat)
  | loupeLog (a : Adm) (source offset length : Nat)
  | smartHealthLog (a : Adm) (retainEvent : Bool)
  | changedZoneListLog (a : Adm) (nsid : Nat) (retainEvent : Bool)
  | fdpLogs (a : Adm) (which : Nat)
  | telemetryLog (a : Adm) (hostInitiated : Bool)
  -- the dictionary (R453 to R492)
  | dictRead (who : Requester) (r : OdReq) (a : Option Adm)
  | dictReadStaged (who : Requester) (r : OdReq) (a : Option Adm)
  | dictDescribe (who : Requester) (r : OdReq) (a : Option Adm)
  | dictWrite (q : CommitReq) (ops : List DictOp)
  | commit (group : List CommitReq)
  | commitDurable (who : Requester) (leadStatus : Nat)
  | discard (who : Requester) (secured : Bool)
  | stagingSetExpiry (endpoint : Nat)
  | dieScriptLoad (q : CommitReq) (image channels : Nat)
  | dieReturn (die : Nat)
  | channelReturn (ch : Nat)
  | pairAttach
  | pairDetach
  | handover
  | discardHistoryAndAttach
  | clearPairing
  -- management network (R413, R484 to R488, R594)
  | setEndpointId (binding eid : Nat)
  | getEndpointId (binding : Nat)
  | getMctpVersionSupport (binding : Nat)
  | getMessageTypeSupport (binding : Nat)
  | getVendorDefinedMessageSupport (binding : Nat)
  | nvmeMiMessage (binding : Nat) (m : MiCmd)
  | setdasa (bus static address : Nat)
  | entdaa (bus address : Nat)
  | targetResetPattern (bus : Nat)
  | smbusSclTimeout (bus : Nat)
  -- supplies, links and the rest
  | supplyWithinRange (supply : Nat)
  | thermalTripRelease
  | fastRetrainDone (port : Nat)
  | frameCheckFailure (port seq : Nat)
  | flitCheckFailure (port : Nat) (replayOk : Bool)
  | periodicChannelRetraining (ch rate : Nat) (done : Bool)
  | korlaCoreMachineCheck
  | ftlFirmwareAssertion
  | hdrEntry (bus : Nat)
  | hdrExitPattern (bus : Nat)
  | endSession (b : Binding)
  | asynchronousEventRequest (a : Adm)
deriving DecidableEq, Repr

end Sys2Proof
end

