-- ==== Sys2Proof/Decode.lean ====
section
/-! DEFINITION. Decoding a table word. The table of operations gives no row any bits: commands reach the block over
its links, pins and queues, not as words, so no word spells a command. -/

namespace Sys2Proof

/-- The command that a word of nbits bits spells by the table's bits: none, since no row has bits. -/
def decodeTableWord (_nbits _w : Nat) : Option Instr := none

end Sys2Proof
end

