-- ==== Sys2Proof/Machine/Bits.lean ====
section
/-! DEFINITION. The plain arithmetic, bit-field, byte and sign helpers of the model. -/

namespace Sys2Proof

/-- Division rounding up, as the spec's ceil(a ÷ b). -/
def ceilDiv (a b : Nat) : Nat := (a + b - 1) / b

/-- The field high:low of a number (R5). -/
def field (hi lo n : Nat) : Nat := (n >>> lo) % 2 ^ (hi - lo + 1)

/-- Bit i of a number (R5). -/
def bit (i n : Nat) : Bool := n.testBit i

/-- Set bit i of a number. -/
def setBit (i n : Nat) : Nat := n ||| (1 <<< i)

/-- Clear bit i of a number. -/
def clearBit (i n : Nat) : Nat := if n.testBit i then n - 1 <<< i else n

/-- The n bytes from byte offset off of a little-endian octets value (R6). -/
def bytesAt (off n v : Nat) : Nat := (v >>> (8 * off)) % 2 ^ (8 * n)

/-- The n-byte field of a layout at byte offset off (R6). -/
def atByte (off n v : Nat) : Nat := v % 2 ^ (8 * n) * 2 ^ (8 * off)

/-- Pack numbers of w bits, the first lowest (R6). -/
def pack (w : Nat) : List Nat → Nat
  | [] => 0
  | x :: t => x % 2 ^ w + pack w t * 2 ^ w

/-- A number read as a signed value of w bits (R455). -/
def toSigned (w n : Nat) : Int :=
  let m := n % 2 ^ w
  if m < 2 ^ (w - 1) then (m : Int) else (m : Int) - (2 ^ w : Int)

/-- A signed value as a number of w bits (R455). -/
def ofSigned (w : Nat) (i : Int) : Nat := (i % (2 ^ w : Int)).toNat

/-- A value limited to the range lo to hi. -/
def clampInt (lo hi i : Int) : Int := if i < lo then lo else if hi < i then hi else i

end Sys2Proof
end

