-- ==== Sys2Proof/Machine/OdTable.lean ====
section
/-! DEFINITION. The object map of the Scaovo dictionary: every element of every object table of the spec. -/

namespace Sys2Proof.Machine

/-- One dictionary element: object, element, type code (R455), size in bytes, read and write rights by rank (R458),
default, persistence (R463), instance kind (R454), lowest and highest value accepted, and the flags of R464. -/
structure OdElem where
  obj : Nat
  elem : Nat
  ty : Nat
  size : Nat
  rd : Nat
  wr : Nat
  dflt : Nat
  persist : Nat
  ikind : Nat
  lo : Int
  hi : Int
  flags : Nat
deriving DecidableEq, Repr

/-- Objects of range 0x0000, part a (R422). -/
def odTable0a : List OdElem := [
  ⟨0x0000, 0x01, 0x20, 20, 15, 0, 0, 2, 0, 0, 0, 0⟩,
  ⟨0x0000, 0x02, 0x20, 8, 15, 0, 0, 0, 0, 0, 0, 8⟩,
  ⟨0x0000, 0x03, 0x03, 4, 15, 0, 0, 0, 0, 0, 4294967295, 8⟩,
  ⟨0x0000, 0x04, 0x03, 4, 15, 0, 0, 0, 0, 0, 4294967295, 8⟩,
  ⟨0x0000, 0x05, 0x20, 96, 15, 0, 0, 0, 0, 0, 0, 8⟩,
  ⟨0x0010, 0x01, 0x20, 1024, 15, 0, 0, 0, 0, 0, 0, 8⟩,
  ⟨0x0010, 0x02, 0x04, 8, 15, 0, 0, 0, 0, 0, 18446744073709551615, 8⟩,
  ⟨0x0010, 0x03, 0x04, 8, 6, 0, 0, 0, 0, 0, 18446744073709551615, 8⟩,
  ⟨0x0010, 0x04, 0x20, 1024, 6, 0, 0, 0, 11, 0, 0, 8⟩,
  ⟨0x0020, 0x01, 0x20, 48, 15, 0, 0, 0, 12, 0, 0, 8⟩]

/-- Objects of range 0x1000, part a (R491). -/
def odTable1a : List OdElem := [
  ⟨0x1000, 0x01, 0x01, 1, 15, 0, 0, 0, 0, 0, 255, 8⟩,
  ⟨0x1000, 0x02, 0x01, 1, 15, 0, 0, 0, 0, 0, 255, 8⟩,
  ⟨0x1000, 0x03, 0x01, 1, 6, 4, 0, 1, 0, 0, 1, 0⟩,
  ⟨0x1000, 0x04, 0x01, 1, 6, 6, 7, 1, 0, 1, 7, 0⟩,
  ⟨0x1000, 0x05, 0x01, 1, 6, 6, 1, 1, 0, 0, 1, 0⟩,
  ⟨0x1000, 0x06, 0x02, 2, 15, 0, 512, 2, 0, 0, 65535, 0⟩,
  ⟨0x1010, 0x01, 0x02, 2, 15, 0, 0, 0, 0, 0, 65535, 8⟩,
  ⟨0x1010, 0x02, 0x20, 256, 15, 0, 0, 1, 0, 0, 0, 8⟩,
  ⟨0x1010, 0x03, 0x01, 1, 15, 0, 9, 2, 0, 0, 255, 0⟩,
  ⟨0x1020, 0x01, 0x04, 8, 6, 0, 0, 0, 22, 0, 18446744073709551615, 8⟩,
  ⟨0x1020, 0x02, 0x03, 4, 6, 0, 0, 0, 22, 0, 4294967295, 8⟩,
  ⟨0x1020, 0x03, 0x03, 4, 6, 0, 0, 0, 22, 0, 4294967295, 8⟩]

/-- Objects of range 0x2000, part a (R106, R149, R164). -/
def odTable2a : List OdElem := [
  ⟨0x2100, 0x01, 0x04, 8, 15, 0, 0, 0, 0, 0, 18446744073709551615, 8⟩,
  ⟨0x2100, 0x02, 0x04, 8, 15, 0, 0, 0, 0, 0, 18446744073709551615, 8⟩,
  ⟨0x2100, 0x03, 0x04, 8, 14, 0, 0, 0, 0, 0, 18446744073709551615, 8⟩,
  ⟨0x2100, 0x04, 0x04, 8, 6, 0, 0, 1, 0, 0, 18446744073709551615, 8⟩,
  ⟨0x2100, 0x05, 0x04, 8, 6, 6, 0, 1, 0, 0, 18446744073709551615, 0⟩,
  ⟨0x2100, 0x06, 0x03, 4, 15, 0, 1, 1, 0, 0, 4294967295, 8⟩,
  ⟨0x2100, 0x07, 0x03, 4, 15, 0, 1073741824, 2, 0, 0, 4294967295, 0⟩,
  ⟨0x2100, 0x08, 0x04, 8, 14, 0, 0, 0, 0, 0, 18446744073709551615, 8⟩,
  ⟨0x2100, 0x09, 0x04, 8, 14, 0, 1, 0, 0, 0, 18446744073709551615, 8⟩,
  ⟨0x2200, 0x01, 0x02, 2, 15, 6, 96, 1, 0, 16, 512, 3⟩,
  ⟨0x2200, 0x02, 0x02, 2, 15, 6, 48, 1, 0, 16, 256, 3⟩,
  ⟨0x2200, 0x03, 0x01, 1, 15, 0, 8, 2, 0, 0, 255, 3⟩,
  ⟨0x2200, 0x04, 0x01, 1, 15, 6, 4, 1, 0, 1, 8, 3⟩,
  ⟨0x2200, 0x05, 0x02, 2, 15, 6, 0, 1, 0, 0, 65535, 3⟩,
  ⟨0x2200, 0x06, 0x02, 2, 15, 0, 3944, 0, 0, 0, 65535, 8⟩,
  ⟨0x2200, 0x07, 0x03, 4, 15, 0, 504832, 0, 0, 0, 4294967295, 8⟩,
  ⟨0x2200, 0x08, 0x03, 4, 15, 0, 0, 0, 0, 0, 4294967295, 8⟩,
  ⟨0x2210, 0x01, 0x20, 544, 15, 6, 0, 1, 0, 0, 0, 3⟩,
  ⟨0x2210, 0x02, 0x20, 48, 15, 0, 0, 0, 0, 0, 0, 8⟩,
  ⟨0x2220, 0x01, 0x04, 8, 14, 0, 0, 0, 5, 0, 18446744073709551615, 8⟩,
  ⟨0x2220, 0x02, 0x02, 2, 14, 0, 0, 0, 5, 0, 65535, 8⟩,
  ⟨0x2220, 0x03, 0x03, 4, 14, 0, 0, 0, 5, 0, 4294967295, 8⟩,
  ⟨0x2220, 0x04, 0x03, 4, 6, 0, 0, 0, 5, 0, 4294967295, 8⟩,
  ⟨0x2220, 0x05, 0x03, 4, 6, 0, 0, 0, 5, 0, 4294967295, 8⟩,
  ⟨0x2230, 0x01, 0x03, 4, 15, 6, 2048, 1, 0, 0, 16384, 0⟩,
  ⟨0x2230, 0x02, 0x04, 8, 6, 0, 0, 0, 0, 0, 18446744073709551615, 8⟩,
  ⟨0x2230, 0x03, 0x04, 8, 6, 0, 0, 0, 0, 0, 18446744073709551615, 8⟩,
  ⟨0x2230, 0x04, 0x04, 8, 6, 0, 0, 0, 0, 0, 18446744073709551615, 8⟩]

/-- Objects of range 0x3000, part a (R164, R202, R214). -/
def odTable3a : List OdElem := [
  ⟨0x3000, 0x01, 0x02, 2, 15, 0, 4096, 0, 0, 0, 65535, 8⟩,
  ⟨0x3000, 0x02, 0x02, 2, 15, 0, 0, 0, 0, 0, 65535, 8⟩,
  ⟨0x3000, 0x03, 0x02, 2, 15, 0, 0, 0, 0, 0, 65535, 8⟩,
  ⟨0x3001, 0x01, 0x02, 2, 6, 0, 0, 0, 3, 0, 65535, 8⟩,
  ⟨0x3001, 0x02, 0x02, 2, 6, 0, 0, 0, 3, 0, 65535, 8⟩,
  ⟨0x3001, 0x03, 0x02, 2, 6, 0, 0, 0, 3, 0, 65535, 8⟩,
  ⟨0x3001, 0x04, 0x01, 1, 6, 0, 0, 0, 3, 0, 255, 8⟩,
  ⟨0x3100, 0x01, 0x03, 4, 15, 6, 2500, 1, 0, 500, 5000, 0⟩,
  ⟨0x3100, 0x02, 0x02, 2, 15, 6, 4095, 1, 0, 1, 65534, 0⟩,
  ⟨0x3100, 0x03, 0x02, 2, 15, 6, 75, 1, 0, 10, 200, 0⟩,
  ⟨0x3100, 0x04, 0x02, 2, 15, 6, 300, 1, 0, 0, 400, 0⟩,
  ⟨0x3100, 0x05, 0x02, 2, 15, 6, 500, 1, 0, 50, 5000, 0⟩,
  ⟨0x3100, 0x06, 0x02, 2, 15, 6, 150, 1, 0, 50, 500, 0⟩,
  ⟨0x3100, 0x07, 0x02, 2, 15, 6, 400, 1, 0, 0, 400, 0⟩,
  ⟨0x3100, 0x08, 0x01, 1, 15, 6, 4, 1, 0, 1, 16, 0⟩,
  ⟨0x3100, 0x09, 0x04, 8, 15, 0, 0, 0, 0, 0, 18446744073709551615, 8⟩,
  ⟨0x3100, 0x0A, 0x03, 4, 6, 4, 0, 0, 0, 0, 4294967295, 8⟩,
  ⟨0x3100, 0x0B, 0x03, 4, 6, 4, 64, 0, 0, 0, 4294967295, 8⟩,
  ⟨0x3100, 0x0C, 0x03, 4, 6, 4, 0, 0, 0, 0, 4294967295, 8⟩,
  ⟨0x3100, 0x0D, 0x02, 2, 6, 0, 64, 2, 0, 0, 65535, 0⟩,
  ⟨0x3110, 0x01, 0x01, 1, 15, 6, 0, 1, 4, 0, 1, 0⟩,
  ⟨0x3110, 0x02, 0x01, 1, 15, 0, 0, 0, 4, 0, 255, 8⟩,
  ⟨0x3110, 0x03, 0x01, 1, 15, 0, 0, 0, 4, 0, 255, 8⟩,
  ⟨0x3110, 0x04, 0x01, 1, 15, 0, 0, 0, 4, 0, 255, 8⟩,
  ⟨0x3110, 0x05, 0x01, 1, 15, 0, 0, 0, 4, 0, 255, 8⟩,
  ⟨0x3110, 0x06, 0x02, 2, 6, 0, 0, 0, 4, 0, 65535, 8⟩,
  ⟨0x3110, 0x07, 0x04, 8, 6, 0, 0, 0, 4, 0, 18446744073709551615, 8⟩,
  ⟨0x3110, 0x08, 0x04, 8, 6, 0, 0, 0, 4, 0, 18446744073709551615, 8⟩,
  ⟨0x3110, 0x09, 0x04, 8, 6, 0, 0, 0, 4, 0, 18446744073709551615, 8⟩,
  ⟨0x3110, 0x0A, 0x04, 8, 6, 0, 0, 0, 4, 0, 18446744073709551615, 8⟩,
  ⟨0x3120, 0x01, 0x01, 1, 6, 0, 0, 0, 3, 0, 255, 8⟩,
  ⟨0x3120, 0x02, 0x02, 2, 6, 0, 0, 0, 3, 0, 65535, 8⟩,
  ⟨0x3120, 0x03, 0x03, 4, 6, 0, 0, 0, 3, 0, 4294967295, 8⟩,
  ⟨0x3120, 0x04, 0x03, 4, 6, 0, 0, 0, 3, 0, 4294967295, 8⟩,
  ⟨0x3120, 0x05, 0x03, 4, 6, 0, 0, 0, 3, 0, 4294967295, 8⟩,
  ⟨0x3200, 0x01, 0x20, 8480, 0, 6, 0, 0, 0, 0, 0, 16⟩,
  ⟨0x3200, 0x02, 0x04, 8, 6, 6, 0, 0, 0, 0, 18446744073709551615, 0⟩,
  ⟨0x3200, 0x03, 0x20, 48, 6, 0, 0, 2, 10, 0, 0, 0⟩,
  ⟨0x3200, 0x04, 0x01, 1, 6, 4, 0, 2, 0, 0, 15, 4⟩,
  ⟨0x3200, 0x05, 0x03, 4, 6, 4, 0, 1, 10, 0, 4294967295, 0⟩]

/-- Objects of range 0x3000, part b (R164, R202, R214). -/
def odTable3b : List OdElem := [
  ⟨0x3210, 0x01, 0x20, 48, 15, 0, 0, 1, 2, 0, 0, 8⟩,
  ⟨0x3210, 0x02, 0x03, 4, 15, 0, 0, 1, 2, 0, 4294967295, 8⟩,
  ⟨0x3210, 0x03, 0x01, 1, 6, 0, 0, 1, 2, 0, 255, 8⟩,
  ⟨0x3210, 0x04, 0x01, 1, 6, 0, 0, 0, 2, 0, 255, 8⟩,
  ⟨0x3220, 0x01, 0x03, 4, 6, 0, 0, 0, 14, 0, 4294967295, 8⟩]

/-- Objects of range 0x4000, part a (R254). -/
def odTable4a : List OdElem := [
  ⟨0x4000, 0x01, 0x04, 8, 6, 0, 0, 0, 0, 0, 18446744073709551615, 8⟩,
  ⟨0x4000, 0x02, 0x04, 8, 6, 0, 0, 0, 0, 0, 18446744073709551615, 8⟩,
  ⟨0x4000, 0x03, 0x04, 8, 6, 0, 0, 0, 0, 0, 18446744073709551615, 8⟩,
  ⟨0x4000, 0x04, 0x04, 8, 6, 0, 0, 0, 0, 0, 18446744073709551615, 8⟩,
  ⟨0x4000, 0x05, 0x04, 8, 6, 0, 0, 0, 0, 0, 18446744073709551615, 8⟩,
  ⟨0x4000, 0x06, 0x04, 8, 6, 0, 0, 0, 0, 0, 18446744073709551615, 8⟩,
  ⟨0x4000, 0x07, 0x04, 8, 6, 0, 0, 0, 0, 0, 18446744073709551615, 8⟩,
  ⟨0x4000, 0x08, 0x04, 8, 6, 0, 0, 0, 0, 0, 18446744073709551615, 8⟩,
  ⟨0x4000, 0x09, 0x04, 8, 6, 0, 0, 0, 0, 0, 18446744073709551615, 8⟩,
  ⟨0x4000, 0x0A, 0x04, 8, 6, 0, 0, 0, 0, 0, 18446744073709551615, 8⟩,
  ⟨0x4000, 0x0B, 0x04, 8, 6, 0, 0, 0, 0, 0, 18446744073709551615, 8⟩,
  ⟨0x4000, 0x0C, 0x04, 8, 6, 0, 0, 0, 0, 0, 18446744073709551615, 8⟩,
  ⟨0x4000, 0x0D, 0x04, 8, 6, 0, 0, 0, 0, 0, 18446744073709551615, 8⟩,
  ⟨0x4000, 0x0E, 0x04, 8, 6, 0, 0, 0, 0, 0, 18446744073709551615, 8⟩,
  ⟨0x4000, 0x0F, 0x04, 8, 6, 0, 0, 0, 0, 0, 18446744073709551615, 8⟩,
  ⟨0x4000, 0x10, 0x04, 8, 6, 0, 0, 0, 0, 0, 18446744073709551615, 8⟩,
  ⟨0x4010, 0x01, 0x01, 1, 6, 6, 7, 1, 0, 0, 15, 0⟩,
  ⟨0x4010, 0x02, 0x02, 2, 6, 6, 96, 1, 0, 1, 1024, 0⟩,
  ⟨0x4010, 0x03, 0x03, 4, 6, 6, 1000000, 1, 0, 10000, 10000000, 0⟩,
  ⟨0x4010, 0x04, 0x02, 2, 6, 6, 168, 1, 0, 24, 720, 0⟩,
  ⟨0x4010, 0x05, 0x01, 1, 6, 6, 2, 1, 0, 1, 8, 0⟩,
  ⟨0x4010, 0x06, 0x01, 1, 6, 6, 10, 1, 0, 1, 100, 0⟩,
  ⟨0x4010, 0x07, 0x01, 1, 6, 6, 90, 1, 0, 1, 100, 0⟩,
  ⟨0x4010, 0x08, 0x02, 2, 6, 0, 1500, 2, 0, 0, 65535, 0⟩,
  ⟨0x4010, 0x09, 0x03, 4, 6, 0, 40000, 2, 0, 0, 4294967295, 0⟩,
  ⟨0x4010, 0x0A, 0x01, 1, 6, 6, 8, 1, 0, 2, 64, 0⟩,
  ⟨0x4010, 0x0B, 0x01, 1, 6, 6, 3, 1, 0, 1, 16, 0⟩,
  ⟨0x4020, 0x01, 0x03, 4, 6, 0, 0, 0, 3, 0, 4294967295, 8⟩,
  ⟨0x4020, 0x02, 0x03, 4, 6, 0, 0, 0, 3, 0, 4294967295, 8⟩,
  ⟨0x4020, 0x03, 0x03, 4, 6, 0, 0, 0, 3, 0, 4294967295, 8⟩,
  ⟨0x4020, 0x04, 0x02, 2, 6, 0, 0, 0, 3, 0, 65535, 8⟩,
  ⟨0x4020, 0x05, 0x03, 4, 6, 0, 0, 0, 3, 0, 4294967295, 8⟩,
  ⟨0x4020, 0x06, 0x03, 4, 6, 0, 0, 0, 3, 0, 4294967295, 8⟩,
  ⟨0x4020, 0x07, 0x02, 2, 6, 0, 0, 0, 3, 0, 65535, 8⟩,
  ⟨0x4020, 0x08, 0x02, 2, 6, 0, 0, 0, 3, 0, 65535, 8⟩,
  ⟨0x4100, 0x01, 0x01, 1, 15, 0, 4, 0, 3, 0, 255, 8⟩,
  ⟨0x4100, 0x02, 0x01, 1, 6, 6, 0, 0, 3, 0, 1, 0⟩,
  ⟨0x4100, 0x03, 0x01, 1, 6, 0, 0, 0, 3, 0, 255, 8⟩,
  ⟨0x4100, 0x04, 0x03, 4, 6, 0, 0, 0, 3, 0, 4294967295, 8⟩,
  ⟨0x4101, 0x01, 0x01, 1, 6, 6, 0, 0, 2, 0, 1, 0⟩]

/-- Objects of range 0x4000, part b (R254). -/
def odTable4b : List OdElem := [
  ⟨0x4200, 0x01, 0x01, 1, 15, 0, 100, 0, 0, 0, 255, 8⟩,
  ⟨0x4200, 0x02, 0x01, 1, 15, 0, 0, 0, 0, 0, 255, 8⟩,
  ⟨0x4200, 0x03, 0x01, 1, 15, 0, 0, 0, 0, 0, 255, 8⟩,
  ⟨0x4200, 0x04, 0x02, 2, 14, 0, 65535, 0, 0, 0, 65535, 8⟩,
  ⟨0x4200, 0x05, 0x20, 256, 6, 0, 0, 0, 0, 0, 0, 8⟩,
  ⟨0x4200, 0x06, 0x20, 1008, 6, 0, 0, 0, 0, 0, 0, 8⟩,
  ⟨0x4200, 0x07, 0x02, 2, 6, 0, 0, 0, 0, 0, 65535, 8⟩]

/-- Objects of range 0x5000, part a (R341). -/
def odTable5a : List OdElem := [
  ⟨0x5000, 0x01, 0x01, 1, 15, 0, 0, 1, 0, 0, 255, 8⟩,
  ⟨0x5000, 0x02, 0x03, 4, 15, 0, 0, 1, 0, 0, 4294967295, 8⟩,
  ⟨0x5000, 0x03, 0x01, 1, 15, 0, 0, 0, 0, 0, 255, 8⟩,
  ⟨0x5000, 0x04, 0x20, 20, 14, 0, 0, 1, 0, 0, 0, 8⟩,
  ⟨0x5000, 0x05, 0x20, 48, 6, 4, 0, 1, 0, 0, 0, 0⟩,
  ⟨0x5000, 0x06, 0x01, 1, 15, 0, 0, 0, 0, 0, 255, 8⟩,
  ⟨0x5000, 0x07, 0x04, 8, 14, 0, 0, 1, 0, 0, 18446744073709551615, 8⟩,
  ⟨0x5000, 0x08, 0x04, 8, 14, 0, 0, 0, 0, 0, 18446744073709551615, 8⟩,
  ⟨0x5000, 0x09, 0x03, 4, 6, 6, 10000, 1, 0, 1000, 600000, 0⟩,
  ⟨0x5000, 0x0A, 0x01, 1, 0, 6, 0, 0, 0, 1, 5, 16⟩,
  ⟨0x5000, 0x0B, 0x01, 1, 6, 0, 0, 1, 0, 0, 255, 8⟩,
  ⟨0x5010, 0x01, 0x01, 1, 6, 0, 0, 0, 0, 0, 255, 8⟩,
  ⟨0x5010, 0x02, 0x03, 4, 6, 0, 0, 0, 0, 0, 4294967295, 8⟩,
  ⟨0x5010, 0x03, 0x03, 4, 6, 0, 0, 0, 0, 0, 4294967295, 8⟩,
  ⟨0x5010, 0x04, 0x04, 8, 6, 0, 0, 0, 0, 0, 18446744073709551615, 8⟩,
  ⟨0x5010, 0x05, 0x04, 8, 6, 0, 0, 0, 0, 0, 18446744073709551615, 8⟩,
  ⟨0x5010, 0x06, 0x01, 1, 15, 0, 0, 0, 0, 0, 255, 8⟩,
  ⟨0x5010, 0x07, 0x03, 4, 6, 0, 0, 0, 0, 0, 4294967295, 8⟩,
  ⟨0x5010, 0x08, 0x03, 4, 6, 0, 0, 0, 0, 0, 4294967295, 8⟩,
  ⟨0x5020, 0x01, 0x03, 4, 15, 0, 0, 0, 0, 0, 4294967295, 8⟩,
  ⟨0x5020, 0x02, 0x04, 8, 6, 0, 0, 0, 0, 0, 18446744073709551615, 8⟩,
  ⟨0x5020, 0x03, 0x03, 4, 6, 6, 16000, 1, 0, 1000, 100000, 0⟩,
  ⟨0x5020, 0x04, 0x03, 4, 15, 0, 0, 0, 0, 0, 4294967295, 8⟩,
  ⟨0x5100, 0x01, 0x01, 1, 15, 0, 0, 0, 0, 0, 255, 8⟩,
  ⟨0x5100, 0x02, 0x01, 1, 15, 0, 1, 0, 0, 0, 255, 8⟩,
  ⟨0x5100, 0x03, 0x01, 1, 6, 6, 15, 1, 0, 1, 15, 0⟩,
  ⟨0x5100, 0x04, 0x01, 1, 0, 4, 0, 0, 0, 1, 3, 16⟩,
  ⟨0x5110, 0x01, 0x01, 1, 15, 0, 0, 0, 8, 0, 255, 8⟩,
  ⟨0x5110, 0x02, 0x03, 4, 6, 0, 0, 0, 8, 0, 4294967295, 8⟩,
  ⟨0x5110, 0x03, 0x04, 8, 6, 0, 0, 0, 8, 0, 18446744073709551615, 8⟩,
  ⟨0x5110, 0x04, 0x04, 8, 6, 0, 0, 0, 8, 0, 18446744073709551615, 8⟩]

/-- Objects of range 0x6000, part a (R375). -/
def odTable6a : List OdElem := [
  ⟨0x6000, 0x01, 0x02, 2, 15, 0, 0, 0, 0, 0, 65535, 8⟩,
  ⟨0x6000, 0x02, 0x02, 2, 6, 0, 8128, 0, 0, 0, 65535, 8⟩,
  ⟨0x6000, 0x03, 0x02, 2, 6, 0, 8640, 0, 0, 0, 65535, 8⟩,
  ⟨0x6100, 0x01, 0x01, 1, 15, 0, 0, 0, 1, 0, 255, 8⟩,
  ⟨0x6100, 0x02, 0x02, 2, 15, 0, 0, 0, 1, 0, 65535, 8⟩,
  ⟨0x6100, 0x03, 0x02, 2, 15, 0, 0, 0, 1, 0, 65535, 8⟩,
  ⟨0x6100, 0x04, 0x01, 1, 15, 0, 0, 0, 1, 0, 255, 8⟩,
  ⟨0x6100, 0x05, 0x02, 2, 15, 0, 0, 0, 1, 0, 65535, 8⟩,
  ⟨0x6100, 0x06, 0x01, 1, 15, 0, 0, 0, 1, 0, 255, 8⟩,
  ⟨0x6100, 0x07, 0x01, 1, 6, 0, 0, 0, 1, 0, 255, 8⟩,
  ⟨0x6200, 0x01, 0x03, 4, 15, 6, 0, 1, 1, 0, 16777215, 0⟩,
  ⟨0x6200, 0x02, 0x03, 4, 15, 6, 2048, 1, 1, 1, 1048576, 0⟩,
  ⟨0x6200, 0x03, 0x03, 4, 15, 6, 0, 1, 1, 0, 16777215, 0⟩,
  ⟨0x6200, 0x04, 0x03, 4, 15, 6, 2048, 1, 1, 1, 1048576, 0⟩,
  ⟨0x6200, 0x05, 0x13, 4, 6, 0, 0, 0, 1, (-2147483648), 2147483647, 8⟩,
  ⟨0x6200, 0x06, 0x13, 4, 6, 0, 0, 0, 1, (-2147483648), 2147483647, 8⟩,
  ⟨0x6210, 0x01, 0x01, 1, 15, 6, 16, 1, 1, 1, 255, 0⟩,
  ⟨0x6210, 0x02, 0x01, 1, 15, 6, 1, 1, 1, 0, 2, 0⟩,
  ⟨0x6210, 0x03, 0x02, 2, 15, 6, 32, 1, 1, 1, 256, 0⟩,
  ⟨0x6210, 0x04, 0x02, 2, 15, 6, 0, 1, 1, 0, 4096, 0⟩,
  ⟨0x6210, 0x05, 0x01, 1, 6, 6, 0, 0, 1, 0, 1, 0⟩,
  ⟨0x6210, 0x06, 0x02, 2, 6, 0, 0, 0, 1, 0, 65535, 8⟩,
  ⟨0x6210, 0x07, 0x03, 4, 6, 0, 0, 0, 1, 0, 4294967295, 8⟩,
  ⟨0x6220, 0x01, 0x01, 1, 15, 0, 0, 0, 1, 0, 255, 8⟩,
  ⟨0x6220, 0x02, 0x04, 8, 15, 0, 0, 0, 1, 0, 18446744073709551615, 8⟩,
  ⟨0x6220, 0x03, 0x04, 8, 15, 0, 0, 0, 1, 0, 18446744073709551615, 8⟩,
  ⟨0x6220, 0x04, 0x04, 8, 15, 0, 0, 0, 1, 0, 18446744073709551615, 8⟩,
  ⟨0x6220, 0x05, 0x04, 8, 15, 0, 0, 0, 1, 0, 18446744073709551615, 8⟩,
  ⟨0x6220, 0x06, 0x04, 8, 15, 0, 0, 0, 1, 0, 18446744073709551615, 8⟩,
  ⟨0x6220, 0x07, 0x04, 8, 6, 0, 0, 0, 1, 0, 18446744073709551615, 8⟩,
  ⟨0x6220, 0x08, 0x04, 8, 6, 0, 0, 0, 1, 0, 18446744073709551615, 8⟩,
  ⟨0x6220, 0x09, 0x04, 8, 6, 0, 0, 0, 1, 0, 18446744073709551615, 8⟩,
  ⟨0x6300, 0x01, 0x01, 1, 6, 2, 0, 0, 1, 0, 1, 0⟩,
  ⟨0x6300, 0x02, 0x04, 8, 6, 2, 0, 0, 1, 0, 18446744073709551615, 0⟩,
  ⟨0x6300, 0x03, 0x04, 8, 6, 2, 0, 0, 1, 0, 18446744073709551615, 0⟩,
  ⟨0x6300, 0x04, 0x04, 8, 6, 2, 0, 0, 1, 0, 18446744073709551615, 0⟩,
  ⟨0x6300, 0x05, 0x04, 8, 6, 2, 0, 0, 1, 0, 18446744073709551615, 0⟩,
  ⟨0x6300, 0x06, 0x01, 1, 6, 2, 0, 0, 1, 0, 1, 0⟩,
  ⟨0x6300, 0x07, 0x04, 8, 6, 0, 0, 0, 1, 0, 18446744073709551615, 8⟩,
  ⟨0x6300, 0x08, 0x04, 8, 6, 0, 0, 0, 1, 0, 18446744073709551615, 8⟩]

/-- Objects of range 0x6000, part b (R375). -/
def odTable6b : List OdElem := [
  ⟨0x6300, 0x09, 0x03, 4, 6, 2, 4294967295, 0, 1, 0, 4294967295, 0⟩,
  ⟨0x6300, 0x0A, 0x04, 8, 6, 0, 0, 0, 1, 0, 18446744073709551615, 8⟩]

/-- Objects of range 0x7000, part a (R422). -/
def odTable7a : List OdElem := [
  ⟨0x7000, 0x01, 0x02, 2, 6, 0, 65535, 0, 0, 0, 65535, 8⟩,
  ⟨0x7000, 0x02, 0x01, 1, 15, 0, 3, 2, 0, 0, 255, 0⟩,
  ⟨0x7000, 0x03, 0x01, 1, 6, 0, 0, 0, 0, 0, 255, 8⟩,
  ⟨0x7000, 0x04, 0x03, 4, 6, 0, 0, 0, 13, 0, 4294967295, 8⟩,
  ⟨0x7000, 0x05, 0x01, 1, 15, 0, 0, 0, 0, 0, 255, 8⟩,
  ⟨0x7000, 0x06, 0x04, 8, 6, 0, 0, 0, 0, 0, 18446744073709551615, 8⟩,
  ⟨0x7000, 0x07, 0x01, 1, 0, 4, 0, 0, 0, 0, 15, 16⟩,
  ⟨0x7010, 0x01, 0x01, 1, 6, 0, 0, 0, 9, 0, 255, 8⟩,
  ⟨0x7010, 0x02, 0x02, 2, 6, 0, 0, 0, 9, 0, 65535, 8⟩,
  ⟨0x7010, 0x03, 0x04, 8, 6, 0, 0, 0, 9, 0, 18446744073709551615, 8⟩,
  ⟨0x7010, 0x04, 0x04, 8, 6, 0, 0, 0, 9, 0, 18446744073709551615, 8⟩,
  ⟨0x7010, 0x05, 0x03, 4, 6, 0, 0, 0, 9, 0, 4294967295, 8⟩,
  ⟨0x7020, 0x01, 0x01, 1, 6, 0, 1, 1, 6, 0, 255, 8⟩,
  ⟨0x7020, 0x02, 0x01, 1, 6, 0, 0, 0, 6, 0, 255, 8⟩,
  ⟨0x7020, 0x03, 0x03, 4, 6, 0, 0, 0, 6, 0, 4294967295, 8⟩,
  ⟨0x7020, 0x04, 0x01, 1, 0, 2, 0, 0, 6, 0, 1, 17⟩,
  ⟨0x7100, 0x01, 0x01, 1, 15, 0, 0, 2, 0, 0, 255, 0⟩,
  ⟨0x7100, 0x02, 0x01, 1, 0, 4, 0, 2, 0, 0, 63, 20⟩,
  ⟨0x7100, 0x03, 0x01, 1, 6, 0, 0, 2, 0, 0, 255, 4⟩]

/-- Objects of range 0x8000, part a (R452, R293). -/
def odTable8a : List OdElem := [
  ⟨0x8000, 0x01, 0x01, 1, 15, 0, 0, 0, 0, 0, 255, 8⟩,
  ⟨0x8000, 0x02, 0x01, 1, 15, 6, 0, 1, 0, 0, 5, 0⟩,
  ⟨0x8000, 0x03, 0x01, 1, 15, 6, 3, 1, 0, 0, 5, 0⟩,
  ⟨0x8000, 0x04, 0x01, 1, 6, 4, 10, 2, 0, 1, 50, 0⟩,
  ⟨0x8000, 0x05, 0x04, 8, 6, 0, 0, 0, 0, 0, 18446744073709551615, 8⟩,
  ⟨0x8000, 0x06, 0x01, 1, 4, 4, 3, 0, 0, 0, 5, 0⟩,
  ⟨0x8010, 0x01, 0x01, 1, 15, 0, 0, 0, 0, 0, 255, 8⟩,
  ⟨0x8010, 0x02, 0x01, 1, 4, 4, 0, 0, 0, 0, 3, 0⟩,
  ⟨0x8010, 0x03, 0x01, 1, 6, 4, 2, 1, 0, 0, 3, 0⟩,
  ⟨0x8010, 0x04, 0x03, 4, 6, 6, 200, 1, 0, 0, 4294967295, 0⟩,
  ⟨0x8010, 0x05, 0x01, 1, 6, 0, 0, 0, 0, 0, 255, 8⟩,
  ⟨0x8010, 0x06, 0x03, 4, 6, 0, 0, 0, 0, 0, 4294967295, 8⟩,
  ⟨0x8010, 0x07, 0x03, 4, 6, 0, 0, 0, 0, 0, 4294967295, 8⟩,
  ⟨0x8100, 0x01, 0x01, 1, 15, 4, 0, 1, 0, 0, 2, 0⟩,
  ⟨0x8100, 0x02, 0x02, 2, 15, 4, 80, 1, 0, 0, 65535, 0⟩,
  ⟨0x8100, 0x03, 0x02, 2, 15, 4, 240, 1, 0, 0, 65535, 0⟩,
  ⟨0x8100, 0x04, 0x02, 2, 15, 4, 215, 1, 0, 0, 65535, 0⟩,
  ⟨0x8100, 0x05, 0x02, 2, 15, 0, 0, 0, 0, 0, 65535, 8⟩,
  ⟨0x8100, 0x06, 0x01, 1, 6, 0, 0, 0, 0, 0, 255, 8⟩,
  ⟨0x8100, 0x07, 0x03, 4, 6, 0, 0, 0, 0, 0, 4294967295, 8⟩,
  ⟨0x8100, 0x08, 0x02, 2, 15, 4, 150, 2, 0, 0, 65535, 0⟩,
  ⟨0x8100, 0x09, 0x02, 2, 15, 4, 150, 1, 0, 0, 65535, 0⟩,
  ⟨0x8100, 0x0A, 0x02, 2, 15, 4, 100, 1, 0, 0, 65535, 0⟩,
  ⟨0x8110, 0x01, 0x01, 1, 6, 4, 0, 2, 16, 0, 5, 0⟩,
  ⟨0x8110, 0x02, 0x13, 4, 6, 4, 0, 2, 16, (-2147483648), 2147483647, 0⟩,
  ⟨0x8110, 0x03, 0x13, 4, 6, 4, 0, 2, 16, (-2147483648), 2147483647, 0⟩,
  ⟨0x8110, 0x04, 0x13, 4, 6, 0, 0, 0, 16, (-2147483648), 2147483647, 8⟩,
  ⟨0x8110, 0x05, 0x03, 4, 6, 0, 0, 0, 16, 0, 4294967295, 8⟩,
  ⟨0x8200, 0x01, 0x01, 1, 15, 4, 2, 1, 0, 0, 2, 0⟩,
  ⟨0x8200, 0x02, 0x02, 2, 15, 4, 16, 1, 0, 1, 256, 0⟩,
  ⟨0x8200, 0x03, 0x12, 2, 15, 6, 85, 1, 0, (-20), 120, 0⟩,
  ⟨0x8200, 0x04, 0x12, 2, 6, 4, 8192, 1, 0, 0, 32767, 0⟩,
  ⟨0x8200, 0x05, 0x01, 1, 6, 4, 2, 1, 0, 0, 5, 0⟩,
  ⟨0x8200, 0x06, 0x03, 4, 6, 4, 16000, 1, 0, 0, 4294967295, 0⟩,
  ⟨0x8200, 0x07, 0x03, 4, 6, 4, 68000, 1, 0, 64, 4294967295, 0⟩,
  ⟨0x8200, 0x08, 0x03, 4, 6, 4, 336, 1, 0, 0, 4294967295, 0⟩,
  ⟨0x8210, 0x01, 0x20, 1672, 0, 6, 0, 1, 15, 0, 0, 16⟩,
  ⟨0x8210, 0x02, 0x01, 1, 15, 0, 3, 0, 15, 0, 255, 8⟩,
  ⟨0x8210, 0x03, 0x01, 1, 0, 4, 0, 0, 15, 0, 1, 16⟩,
  ⟨0x8210, 0x04, 0x01, 1, 6, 0, 0, 0, 15, 0, 255, 8⟩]

/-- Objects of range 0x8000, part b (R452, R293). -/
def odTable8b : List OdElem := [
  ⟨0x8210, 0x05, 0x04, 8, 6, 0, 0, 0, 15, 0, 18446744073709551615, 8⟩,
  ⟨0x8210, 0x06, 0x20, 48, 15, 0, 0, 1, 15, 0, 0, 8⟩,
  ⟨0x8210, 0x07, 0x03, 4, 6, 0, 0, 0, 15, 0, 4294967295, 8⟩,
  ⟨0x8210, 0x08, 0x20, 512, 6, 0, 0, 0, 15, 0, 0, 8⟩,
  ⟨0x8300, 0x01, 0x02, 2, 15, 6, 358, 1, 0, 0, 65535, 0⟩,
  ⟨0x8300, 0x02, 0x02, 2, 15, 6, 368, 1, 0, 0, 65535, 0⟩,
  ⟨0x8300, 0x03, 0x02, 2, 15, 0, 398, 2, 0, 0, 65535, 0⟩,
  ⟨0x8300, 0x04, 0x02, 2, 15, 4, 373, 2, 0, 0, 398, 0⟩,
  ⟨0x8400, 0x01, 0x03, 4, 15, 6, 1024, 1, 0, 256, 4096, 0⟩,
  ⟨0x8400, 0x02, 0x03, 4, 6, 4, 2400, 2, 0, 0, 4294967295, 0⟩,
  ⟨0x8400, 0x03, 0x03, 4, 6, 4, 95000, 2, 0, 0, 4294967295, 0⟩,
  ⟨0x8400, 0x04, 0x02, 2, 6, 4, 880, 2, 0, 500, 1000, 0⟩,
  ⟨0x8400, 0x05, 0x03, 4, 6, 0, 0, 0, 0, 0, 4294967295, 8⟩,
  ⟨0x8400, 0x06, 0x03, 4, 15, 0, 1024, 0, 0, 0, 4294967295, 8⟩,
  ⟨0x8400, 0x07, 0x03, 4, 6, 0, 0, 0, 0, 0, 4294967295, 8⟩,
  ⟨0x8400, 0x08, 0x03, 4, 6, 0, 0, 0, 0, 0, 4294967295, 8⟩,
  ⟨0x8400, 0x09, 0x03, 4, 6, 0, 0, 0, 0, 0, 4294967295, 8⟩,
  ⟨0x8400, 0x0A, 0x03, 4, 6, 0, 0, 0, 0, 0, 4294967295, 8⟩,
  ⟨0x8400, 0x0B, 0x03, 4, 6, 0, 0, 0, 0, 0, 4294967295, 8⟩]

/-- Objects of range 0x9000, part a (R530). -/
def odTable9a : List OdElem := [
  ⟨0x9000, 0x01, 0x02, 2, 6, 0, 0, 0, 0, 0, 65535, 8⟩,
  ⟨0x9000, 0x02, 0x02, 2, 6, 4, 10667, 1, 0, 0, 65535, 0⟩,
  ⟨0x9000, 0x03, 0x02, 2, 6, 6, 2000, 1, 0, 200, 20000, 0⟩,
  ⟨0x9000, 0x04, 0x02, 2, 6, 6, 120, 1, 0, 0, 10000, 0⟩,
  ⟨0x9000, 0x05, 0x03, 4, 6, 6, 2000, 1, 0, 0, 1000000, 0⟩,
  ⟨0x9000, 0x06, 0x02, 2, 6, 6, 250, 1, 0, 50, 1000, 0⟩,
  ⟨0x9000, 0x07, 0x02, 2, 6, 0, 1200, 2, 0, 0, 65535, 0⟩,
  ⟨0x9000, 0x08, 0x02, 2, 6, 6, 24, 1, 0, 1, 168, 0⟩,
  ⟨0x9000, 0x09, 0x04, 8, 15, 0, 0, 0, 0, 0, 18446744073709551615, 8⟩,
  ⟨0x9000, 0x0A, 0x03, 4, 6, 6, 32, 1, 0, 0, 96, 0⟩,
  ⟨0x9000, 0x0B, 0x01, 1, 6, 0, 0, 0, 0, 0, 255, 8⟩,
  ⟨0x9000, 0x0C, 0x01, 1, 6, 0, 0, 0, 0, 0, 255, 8⟩,
  ⟨0x9000, 0x0D, 0x01, 1, 6, 0, 0, 0, 0, 0, 255, 8⟩,
  ⟨0x9000, 0x0E, 0x03, 4, 6, 6, 100, 1, 0, 10, 100000, 0⟩,
  ⟨0x9000, 0x0F, 0x03, 4, 6, 6, 500, 1, 0, 10, 100000, 0⟩,
  ⟨0x9000, 0x10, 0x03, 4, 6, 6, 1000, 1, 0, 10, 100000, 0⟩,
  ⟨0x9000, 0x11, 0x03, 4, 6, 6, 1000, 1, 0, 10, 100000, 0⟩,
  ⟨0x9010, 0x01, 0x01, 1, 6, 0, 0, 0, 17, 0, 255, 8⟩,
  ⟨0x9010, 0x02, 0x04, 8, 6, 0, 0, 0, 17, 0, 18446744073709551615, 8⟩,
  ⟨0x9010, 0x03, 0x03, 4, 6, 0, 0, 0, 17, 0, 4294967295, 8⟩,
  ⟨0x9010, 0x04, 0x03, 4, 6, 0, 0, 0, 17, 0, 4294967295, 8⟩,
  ⟨0x9010, 0x05, 0x03, 4, 6, 0, 0, 0, 17, 0, 4294967295, 8⟩,
  ⟨0x9010, 0x06, 0x12, 2, 6, 0, 0, 0, 17, (-32768), 32767, 8⟩,
  ⟨0x9010, 0x07, 0x01, 1, 6, 0, 0, 0, 17, 0, 255, 8⟩,
  ⟨0x9010, 0x08, 0x04, 8, 6, 0, 0, 0, 17, 0, 18446744073709551615, 8⟩,
  ⟨0x9010, 0x09, 0x04, 8, 6, 0, 0, 0, 17, 0, 18446744073709551615, 8⟩,
  ⟨0x9100, 0x01, 0x04, 8, 6, 0, 0, 0, 0, 0, 18446744073709551615, 8⟩,
  ⟨0x9100, 0x02, 0x04, 8, 6, 0, 0, 0, 0, 0, 18446744073709551615, 8⟩,
  ⟨0x9100, 0x03, 0x04, 8, 6, 0, 0, 0, 0, 0, 18446744073709551615, 8⟩,
  ⟨0x9100, 0x04, 0x03, 4, 6, 0, 0, 0, 0, 0, 4294967295, 8⟩,
  ⟨0x9100, 0x05, 0x03, 4, 6, 0, 0, 0, 0, 0, 4294967295, 8⟩,
  ⟨0x9100, 0x06, 0x03, 4, 6, 0, 0, 0, 0, 0, 4294967295, 8⟩,
  ⟨0x9100, 0x07, 0x03, 4, 6, 0, 0, 0, 0, 0, 4294967295, 8⟩,
  ⟨0x9100, 0x08, 0x03, 4, 6, 0, 0, 0, 0, 0, 4294967295, 8⟩,
  ⟨0x9100, 0x09, 0x03, 4, 6, 0, 0, 0, 0, 0, 4294967295, 8⟩,
  ⟨0x9100, 0x0A, 0x03, 4, 6, 0, 0, 0, 0, 0, 4294967295, 8⟩,
  ⟨0x9100, 0x0B, 0x02, 2, 6, 4, 1024, 1, 0, 64, 16384, 0⟩,
  ⟨0x9100, 0x0C, 0x04, 8, 6, 0, 0, 0, 17, 0, 18446744073709551615, 8⟩,
  ⟨0x9200, 0x01, 0x03, 4, 15, 0, 0, 2, 18, 0, 4294967295, 0⟩,
  ⟨0x9200, 0x02, 0x03, 4, 6, 4, 0, 1, 18, 0, 4294967295, 0⟩]

/-- Objects of range 0x9000, part b (R530). -/
def odTable9b : List OdElem := [
  ⟨0x9200, 0x03, 0x03, 4, 6, 4, 0, 1, 18, 0, 4294967295, 0⟩,
  ⟨0x9200, 0x04, 0x03, 4, 6, 0, 0, 0, 18, 0, 4294967295, 8⟩,
  ⟨0x9200, 0x05, 0x03, 4, 6, 0, 0, 0, 18, 0, 4294967295, 8⟩,
  ⟨0x9200, 0x06, 0x01, 1, 6, 6, 25, 1, 18, 0, 100, 0⟩,
  ⟨0x9200, 0x07, 0x01, 1, 6, 6, 10, 1, 18, 0, 100, 0⟩,
  ⟨0x9200, 0x08, 0x01, 1, 6, 6, 2, 1, 18, 1, 20, 0⟩,
  ⟨0x9200, 0x09, 0x01, 1, 6, 0, 0, 0, 18, 0, 255, 8⟩,
  ⟨0x9200, 0x0A, 0x03, 4, 6, 0, 0, 0, 18, 0, 4294967295, 8⟩,
  ⟨0x9200, 0x0B, 0x04, 8, 6, 0, 0, 0, 18, 0, 18446744073709551615, 8⟩,
  ⟨0x9200, 0x0C, 0x04, 8, 6, 0, 0, 0, 18, 0, 18446744073709551615, 8⟩,
  ⟨0x9200, 0x0D, 0x03, 4, 6, 0, 0, 0, 18, 0, 4294967295, 8⟩,
  ⟨0x9200, 0x0E, 0x03, 4, 6, 0, 0, 0, 18, 0, 4294967295, 8⟩,
  ⟨0x9200, 0x0F, 0x03, 4, 6, 0, 0, 0, 18, 0, 4294967295, 8⟩]

/-- Objects of range 0xA000, part a (R567, R293). -/
def odTableAa : List OdElem := [
  ⟨0xA000, 0x01, 0x03, 4, 6, 0, 0, 0, 0, 0, 4294967295, 8⟩,
  ⟨0xA000, 0x02, 0x01, 1, 0, 4, 0, 0, 0, 0, 1, 16⟩,
  ⟨0xA000, 0x03, 0x02, 2, 0, 6, 0, 0, 0, 0, 65535, 16⟩,
  ⟨0xA000, 0x04, 0x01, 1, 6, 4, 0, 0, 0, 0, 0, 0⟩,
  ⟨0xA000, 0x05, 0x01, 1, 4, 4, 0, 0, 0, 0, 1, 0⟩,
  ⟨0xA000, 0x06, 0x01, 1, 15, 0, 0, 0, 0, 0, 255, 8⟩,
  ⟨0xA000, 0x07, 0x03, 4, 6, 0, 1000, 2, 0, 0, 4294967295, 0⟩,
  ⟨0xA000, 0x08, 0x01, 1, 6, 0, 0, 0, 0, 0, 255, 8⟩,
  ⟨0xA000, 0x09, 0x03, 4, 6, 0, 0, 0, 0, 0, 4294967295, 8⟩,
  ⟨0xA000, 0x0A, 0x01, 1, 15, 0, 0, 0, 0, 0, 255, 8⟩,
  ⟨0xA100, 0x01, 0x01, 1, 6, 0, 0, 0, 0, 0, 255, 8⟩,
  ⟨0xA100, 0x02, 0x03, 4, 6, 0, 0, 0, 0, 0, 4294967295, 8⟩,
  ⟨0xA100, 0x03, 0x03, 4, 6, 0, 0, 0, 0, 0, 4294967295, 8⟩,
  ⟨0xA100, 0x04, 0x03, 4, 6, 0, 0, 0, 0, 0, 4294967295, 8⟩,
  ⟨0xA100, 0x05, 0x01, 1, 6, 0, 0, 0, 0, 0, 255, 8⟩,
  ⟨0xA100, 0x06, 0x04, 8, 6, 0, 0, 0, 0, 0, 18446744073709551615, 8⟩,
  ⟨0xA100, 0x07, 0x04, 8, 6, 0, 0, 0, 0, 0, 18446744073709551615, 8⟩,
  ⟨0xA100, 0x08, 0x01, 1, 6, 0, 0, 0, 0, 0, 255, 8⟩,
  ⟨0xA100, 0x09, 0x04, 8, 6, 0, 0, 0, 0, 0, 18446744073709551615, 8⟩,
  ⟨0xA200, 0x01, 0x01, 1, 0, 4, 0, 0, 0, 0, 1, 16⟩,
  ⟨0xA200, 0x02, 0x03, 4, 6, 0, 0, 0, 0, 0, 4294967295, 8⟩,
  ⟨0xA200, 0x03, 0x20, 256, 6, 0, 0, 0, 0, 0, 0, 8⟩,
  ⟨0xA200, 0x04, 0x01, 1, 6, 6, 0, 0, 0, 0, 1, 0⟩,
  ⟨0xA200, 0x05, 0x20, 17, 6, 0, 0, 0, 0, 0, 0, 8⟩,
  ⟨0xA200, 0x06, 0x03, 4, 6, 0, 0, 0, 0, 0, 4294967295, 8⟩,
  ⟨0xA200, 0x07, 0x03, 4, 6, 0, 0, 0, 0, 0, 4294967295, 8⟩,
  ⟨0xA200, 0x08, 0x04, 8, 6, 0, 0, 0, 0, 0, 18446744073709551615, 8⟩,
  ⟨0xA200, 0x09, 0x20, 1088, 6, 0, 0, 0, 0, 0, 0, 8⟩,
  ⟨0xA300, 0x01, 0x01, 1, 6, 6, 0, 1, 19, 0, 1, 0⟩,
  ⟨0xA300, 0x02, 0x02, 2, 6, 6, 0, 1, 19, 0, 65535, 0⟩,
  ⟨0xA300, 0x03, 0x02, 2, 6, 6, 65535, 1, 19, 0, 65535, 0⟩,
  ⟨0xA300, 0x04, 0x01, 1, 6, 6, 0, 1, 19, 0, 7, 0⟩,
  ⟨0xA300, 0x05, 0x01, 1, 6, 6, 0, 1, 19, 0, 15, 0⟩,
  ⟨0xA300, 0x06, 0x01, 1, 6, 6, 0, 1, 19, 0, 32, 0⟩,
  ⟨0xA300, 0x07, 0x20, 256, 6, 6, 0, 1, 19, 0, 0, 0⟩,
  ⟨0xA300, 0x08, 0x03, 4, 6, 6, 0, 1, 19, 0, 3600000, 0⟩,
  ⟨0xA300, 0x09, 0x03, 4, 6, 0, 0, 0, 19, 0, 4294967295, 8⟩,
  ⟨0xA310, 0x01, 0x04, 8, 6, 0, 0, 0, 0, 0, 18446744073709551615, 8⟩,
  ⟨0xA310, 0x02, 0x20, 32, 6, 0, 0, 0, 0, 0, 0, 8⟩,
  ⟨0xA310, 0x03, 0x02, 2, 6, 0, 0, 0, 0, 0, 65535, 8⟩]

/-- Objects of range 0xA000, part b (R567, R293). -/
def odTableAb : List OdElem := [
  ⟨0xA310, 0x04, 0x02, 2, 6, 0, 0, 0, 0, 0, 65535, 8⟩,
  ⟨0xA310, 0x05, 0x03, 4, 6, 0, 0, 0, 0, 0, 4294967295, 8⟩,
  ⟨0xA310, 0x06, 0x01, 1, 6, 4, 5, 1, 0, 0, 7, 0⟩,
  ⟨0xA310, 0x07, 0x01, 1, 6, 4, 6, 1, 0, 0, 7, 0⟩,
  ⟨0xA310, 0x08, 0x01, 1, 0, 4, 0, 0, 0, 0, 1, 16⟩,
  ⟨0xA310, 0x09, 0x01, 1, 4, 4, 0, 0, 0, 0, 0, 0⟩,
  ⟨0xA310, 0x0A, 0x20, 32, 6, 0, 0, 0, 0, 0, 0, 8⟩]

/-- Objects of range 0xB000, part a (R602). -/
def odTableBa : List OdElem := [
  ⟨0xB000, 0x01, 0x01, 1, 15, 0, 0, 0, 0, 0, 255, 8⟩,
  ⟨0xB000, 0x02, 0x02, 2, 6, 0, 0, 0, 0, 0, 65535, 8⟩,
  ⟨0xB000, 0x03, 0x02, 2, 6, 0, 0, 0, 0, 0, 65535, 8⟩,
  ⟨0xB000, 0x04, 0x03, 4, 6, 0, 0, 0, 0, 0, 4294967295, 8⟩,
  ⟨0xB000, 0x05, 0x03, 4, 6, 0, 0, 0, 0, 0, 4294967295, 8⟩,
  ⟨0xB000, 0x06, 0x03, 4, 6, 0, 0, 0, 0, 0, 4294967295, 8⟩,
  ⟨0xB000, 0x07, 0x01, 1, 6, 0, 0, 0, 0, 0, 255, 8⟩,
  ⟨0xB100, 0x01, 0x01, 1, 6, 6, 0, 1, 20, 0, 2, 0⟩,
  ⟨0xB100, 0x02, 0x01, 1, 6, 6, 0, 1, 20, 0, 1, 0⟩,
  ⟨0xB100, 0x03, 0x01, 1, 6, 0, 0, 0, 20, 0, 255, 8⟩,
  ⟨0xB100, 0x04, 0x01, 1, 6, 6, 0, 1, 20, 0, 2, 0⟩,
  ⟨0xB100, 0x05, 0x01, 1, 6, 6, 0, 1, 20, 0, 3, 0⟩,
  ⟨0xB200, 0x01, 0x01, 1, 6, 6, 0, 1, 21, 0, 5, 0⟩]

/-- Objects of range 0xF000, part a (R492). -/
def odTableFa : List OdElem := [
  ⟨0xF000, 0x01, 0x02, 2, 15, 0, 0, 2, 0, 0, 65535, 0⟩,
  ⟨0xF000, 0x02, 0x03, 4, 15, 0, 0, 0, 0, 0, 4294967295, 8⟩,
  ⟨0xF001, 0x01, 0x20, 4, 15, 0, 0, 2, 23, 0, 0, 0⟩,
  ⟨0xF010, 0x00, 0x01, 1, 14, 14, 0, 0, 0, 1, 2, 0⟩,
  ⟨0xF010, 0x01, 0x04, 8, 15, 0, 0, 0, 0, 0, 18446744073709551615, 8⟩,
  ⟨0xF010, 0x02, 0x02, 2, 14, 0, 0, 0, 0, 0, 65535, 8⟩,
  ⟨0xF010, 0x03, 0x03, 4, 14, 0, 0, 0, 0, 0, 4294967295, 8⟩,
  ⟨0xF010, 0x04, 0x03, 4, 6, 0, 0, 0, 0, 0, 4294967295, 8⟩,
  ⟨0xF010, 0x05, 0x04, 8, 6, 0, 0, 0, 0, 0, 18446744073709551615, 8⟩,
  ⟨0xF030, 0x01, 0x01, 1, 6, 0, 0, 0, 24, 0, 255, 8⟩,
  ⟨0xF030, 0x02, 0x01, 1, 6, 0, 0, 0, 24, 0, 255, 8⟩,
  ⟨0xF030, 0x03, 0x01, 1, 15, 4, 0, 2, 0, 0, 1, 0⟩,
  ⟨0xF030, 0x04, 0x03, 4, 6, 0, 0, 0, 0, 0, 4294967295, 8⟩]

/-- Every element of every object, in ascending object and element number (R490, R465). -/
def odTable : List OdElem :=
  odTable0a ++ odTable1a ++ odTable2a ++ odTable3a ++ odTable3b ++ odTable4a ++ odTable4b ++ odTable5a ++ odTable6a ++ odTable6b ++ odTable7a ++ odTable8a ++ odTable8b ++ odTable9a ++ odTable9b ++ odTableAa ++ odTableAb ++ odTableBa ++ odTableFa

/-- The part of the object map that can hold an object (R490). -/
def odRange (obj : Nat) : List OdElem :=
  match obj / 4096 with
  | 0x0 => odTable0a
  | 0x1 => odTable1a
  | 0x2 => odTable2a
  | 0x3 => odTable3a ++ odTable3b
  | 0x4 => odTable4a
  | 0x5 => odTable5a
  | 0x6 => odTable6a ++ odTable6b
  | 0x7 => odTable7a
  | 0x8 => odTable8a ++ odTable8b
  | 0x9 => odTable9a ++ odTable9b
  | 0xA => odTableAa ++ odTableAb
  | 0xB => odTableBa
  | 0xF => odTableFa
  | _ => []

/-- The element of an object, if it exists. -/
def odFind (obj elem : Nat) : Option OdElem :=
  (odRange obj).find? fun e => e.obj == obj && e.elem == elem

/-- An object is in the catalogue (R465, R490). -/
def odObject (obj : Nat) : Bool := (odRange obj).any fun e => e.obj == obj

/-- The distinct objects in ascending number (R465). -/
def odCatalogue : List Nat :=
  odTable.foldl (fun l e => if l.getLast? == some e.obj then l else l ++ [e.obj]) []

/-- Lowest instance and number of instances of an instance kind (R454). -/
def kindRange : Nat → Nat × Nat
  | 0 => (0, 1) | 1 => (0, 513) | 2 => (0, 64) | 3 => (0, 2048) | 4 => (0, 128) | 5 => (0, 1024)
  | 6 => (1, 4096) | 7 => (0, 8) | 8 => (0, 4) | 9 => (0, 528) | 10 => (0, 4) | 11 => (0, 1024)
  | 12 => (0, 16) | 13 => (0, 5) | 14 => (0, 1024) | 15 => (0, 2) | 16 => (0, 16) | 17 => (0, 8)
  | 18 => (0, 6) | 19 => (0, 64) | 20 => (0, 24) | 21 => (0, 4) | 22 => (0, 2) | 23 => (0, odCatalogue.length)
  | 24 => (0, 3) | _ => (0, 0)

/-- Lowest instance and number of instances of an element, with the narrower ranges that the tables state: lenses
only for OD 0x6100 and 0x6300 (R375), buses only for OD 0xF030:02 (R492). -/
def instRange (e : OdElem) : Nat × Nat :=
  if e.obj = 0x6100 ∨ e.obj = 0x6300 then (1, 512)
  else if e.obj = 0xF030 ∧ e.elem = 2 then (0, 2)
  else kindRange e.ikind

/-- An instance is in range (R453, R454). -/
def instOk (e : OdElem) (inst : Nat) : Bool :=
  (instRange e).1 ≤ inst && inst < (instRange e).1 + (instRange e).2

/-- The element is pair-wide (R478). -/
def OdElem.pairWide (e : OdElem) : Bool := e.flags.testBit 0
/-- The element is placement-relevant (R107). -/
def OdElem.placement (e : OdElem) : Bool := e.flags.testBit 1
/-- The element is written only by setting bits (R462). -/
def OdElem.setOnly (e : OdElem) : Bool := e.flags.testBit 2

/-- The element has a signed type (R455). -/
def OdElem.signed (e : OdElem) : Bool := e.ty == 0x11 || e.ty == 0x12 || e.ty == 0x13 || e.ty == 0x14

/-- The element is an octets element (R455). -/
def OdElem.octets (e : OdElem) : Bool := e.ty == 0x20

/-- A stored value as the number it stands for. -/
def OdElem.value (e : OdElem) (v : Nat) : Int := if e.signed then toSigned (8 * e.size) v else (v : Int)

end Sys2Proof.Machine
end

