-- ==== Sys2Proof/Config.lean ====
section
/-! DEFINITION. What an implementation fixes and the spec leaves open: opaque constants with no body, so that a
statement holds whatever they are; and the named constants of the spec. -/

namespace Sys2Proof.Config

/-- The n-th draw of the DRBG (R393): the spec gives its construction and seeds it from an entropy source, so no
value is known. Log entry 2. -/
opaque drbg : Nat → Nat

/-- SHA-384 over a value of the given number of bytes (named by the spec, defined by its standard). Log entry 3. -/
opaque sha384 : (bytes : Nat) → (value : Nat) → Nat

/-- ECDSA P-384 verification of a signature over a digest (R212, R419). Log entry 3. -/
opaque ecdsaVerify : (key : Nat) → (signature : Nat) → (digest : Nat) → Bool

/-- ECDSA P-384 signature under the identity key (R409, R413). Log entry 3. -/
opaque ecdsaSign : (digest : Nat) → Nat

/-- AES-256-CMAC over one derivation input block (R380). Log entry 3. -/
opaque cmac : (key : Nat) → (block : Nat) → Nat

/-- AES-256 KW wrapping of a data-key root under the wrapping key (R378). Log entry 3. -/
opaque wrapKey : (key root : Nat) → Nat

/-- AES-256-XTS of IEEE 1619 over one data unit, with ciphertext stealing where its length is no multiple of 16 bytes: the
data key, the tweak key, the tweak, the unit's bytes and its plaintext (R387). Log entry 3. -/
opaque xts : (dataKey tweakKey tweak bytes plain : Nat) → Nat

/-- The cipher of the system rows and flush areas under the system key (R379): the spec gives no data unit and no tweak.
Log entry 3. -/
opaque systemCipher : (dataKey tweakKey bytes plain : Nat) → Nat

/-- The LDPC parity that a die script's code gives a codeword's data (R127): the spec gives no code. Log entry 3. -/
opaque ldpc : (script bytes data : Nat) → Nat

/-- The public key of a P-384 private scalar (R382). Log entry 3. -/
opaque ecPublic : (scalar : Nat) → Nat

/-- The device secret in OTP (R376): readable by nothing outside the derivation unit. -/
opaque deviceSecret : Nat

/-- The factory certificate chain of slot 0 (R416). -/
opaque factoryChain : Nat

/-- Bits 7:0 of a Loupe event code (R559): the spec gives the high byte and no list of the low bytes. The argument
is the number of the rule that names the event. Log entry 4. -/
opaque eventLow : Nat → Nat

/-- The text of an event catalogue entry (R566): the spec lists no names. -/
opaque eventName : Nat → Nat

/-- A value the spec leaves open after an operation that goes on; the argument is State's free counter. Log entry 5. -/
opaque freeValue : Nat → Nat

/-- Identity values fixed at manufacture (R422): serial number, firmware revision, placement revision, dictionary
revision. -/
opaque serial : Nat
opaque firmwareRevision : Nat
opaque placementRevision : Nat
opaque dictionaryRevision : Nat

/-- The subsystem NQN formed from a serial number, and the NVMe controller ID of a device in no pair (R294). Log entry
94. -/
opaque subsystemNqn : (serial : Nat) → Nat
opaque controllerId : Nat

/-- The key slot digests in OTP (R214 OD 0x3200:03). -/
opaque keySlotDigest : Nat → Nat

/-- The golden signatures of logic and memory BIST and of the loop engine self-test in OTP (R451, R552, R554). -/
opaque goldenLogic : Nat → Nat
opaque goldenMemory : Nat → Nat
opaque goldenLoop : Nat → Nat

/-- The ROM revision, lifecycle and OTP policy digest that boot stage 0 measures into MS0 (R407). -/
opaque romDigest : Nat

/-- Debug and trace lock state as boot stage 2 finds it (R407, R409): bit 0 set means debug is unlocked. -/
opaque debugState : Nat

/-- The device mode block of GET_MEASUREMENTS index 0xFE, as SPDM defines it (R415). -/
opaque spdmDeviceMode : Nat

/-- Bytes of the journal and ledger copies in DRAM (R520). -/
opaque copyBytes : Nat

/-- Rate and width that the host link trains to, by training (OD 0x1000:01 and 02): the host decides them. -/
opaque hostRate : Nat → Nat
opaque hostWidth : Nat → Nat

/-- Time of a Loupe entry in ns since the device left reset (R559), by sequence: the model keeps no clock (log entry 67). -/
opaque eventTime : Nat → Nat

end Sys2Proof.Config
end

