-- ==== Sys2Proof/Machine/State.lean ====
section
/-! DEFINITION. The state of the Brelux Z640: every register, queue, buffer, counter, mode and pin the spec names, as
plain data. Dictionary elements live once, in Dict.od (those that another field holds are computed from it). -/

namespace Sys2Proof.Machine

/-- A sparse map: keys strictly rising, no entry equal to the default an unlisted key reads as. -/
abbrev Kv (α : Type) := List (Nat × α)

/-- The zone states of R60. -/
inductive ZState where
  | empty | implOpen | explOpen | closed | readOnly | full | offline
deriving DecidableEq, Repr

/-- Where a 4 KiB unit's data stands (R128, R17): neither, the write window (with its ring cell once a record has
completed the unit, R134), its staging cell, its QLC facet, or a conventional pool row. -/
inductive UnitLoc where
  | none
  | window (cell : Option Nat)
  | staged (cell : Nat)
  | qlc
  /-- pool row × 262,144 + unit within the row -/
  | pool (cell : Nat)
deriving DecidableEq, Repr

/-- The unit map entry of one 4 KiB unit (R128, R144, R284, R320). -/
structure UnitSt where
  loc : UnitLoc := .none
  /-- a buffer of the fold cache holds it (R144) -/
  cached : Bool := false
  /-- lost mark (R284) -/
  lost : Bool := false
  /-- pending mark of a resync (R320) -/
  pending : Bool := false
  /-- record that allocated its cell, or conventional sequence that wrote it -/
  asn : Nat := 0
  /-- key generation of its ciphertext (R397) -/
  keyGen : Nat := 0
  /-- the function whose write holds a window buffer for it (R255) -/
  held : Option Nat := none
  /-- placement of the conventional write that stored it: reclaim group × 64 + handle (R80) -/
  handle : Nat := 0
deriving DecidableEq, Repr

/-- The fold state of one fold unit of a zone (R141 to R147, R239). -/
structure FoldSt where
  done : List Nat := []
  absent : List Nat := []
  committed : Bool := false
  /-- ASN at which the unit became complete (R145), 0 while incomplete -/
  completeAsn : Nat := 0
  /-- moved to the head of the fold queue (R228) -/
  urgent : Bool := false
deriving DecidableEq, Repr

/-- One zone (R60, R109, R132, R146, R319, R397). wp counts blocks from the zone start. -/
structure Zone where
  st : ZState := .empty
  wp : Nat := 0
  finish : Option Nat := none
  epoch : Nat := 0
  ring : Option Nat := none
  keyGen : Nat := 0
  lastAdm : Nat := 0
  /-- Reset Zone Recommended (R63) -/
  rzr : Bool := false
  /-- content of each block in the stored form of Ns.flip: data, then metadata complemented (R74, R127); on the media it
  is ciphertext under the key of keyGen -/
  blocks : Kv Nat := []
  units : Kv UnitSt := []
  folds : Kv FoldSt := []
  /-- facets whose erase-ledger completion cell is not yet programmed since the last reset (R29) -/
  eraseLeft : List Nat := []
  /-- facets not yet named by a start cell -/
  eraseQueue : List Nat := []
  /-- the reset's unmap has not been journalled (R28) -/
  unmapDue : Bool := false
  /-- ASN of the reset or Offline that unmapped it last -/
  unmapAsn : Nat := 0
  /-- resync resume offset of a marked zone (R319) -/
  marked : Option Nat := none
  /-- units of a pool row that are absent, by their place in the row (R239, R242) -/
  absent : List Nat := []
deriving DecidableEq, Repr

/-- Reservation state of a namespace (R52, check 4 of R56). -/
structure Resv where
  gen : Nat := 0
  rtype : Nat := 0
  holder : Option Nat := none
  keys : Kv Nat := []
deriving DecidableEq, Repr

/-- A key rotation under way (R398). -/
structure Rotation where
  oldGen : Nat
  newGen : Nat
  oldSalt : Nat
  switchAsn : Nat
  left : List Nat
  pages : List Nat
deriving DecidableEq, Repr

/-- A Format or deletion under way (R401, R607): the internal number of its command (0 for none), and what it does. -/
structure NsEnd where
  cmd : Nat
  delete : Bool
  lbaf : Nat
  pit : Nat
  erase : Bool
  newKey : Bool
  /-- salt that the lead drew (R396) -/
  salt : Option Nat
deriving DecidableEq, Repr

/-- One namespace (R47 to R51, R156, R160, R329, R396). -/
structure Ns where
  nsid : Nat
  zoned : Bool
  size : Nat
  lbaf : Nat
  /-- protection information type (R48, R73), 0 for none -/
  pit : Nat := 0
  parity : Nat
  pclass : Nat
  activeQuota : Nat
  openQuota : Nat
  /-- placement handle list: the reclaim unit handle of each placement handle (R79, R80) -/
  placement : List Nat := [0]
  /-- controller-wide zone numbers, namespace zone i at index i -/
  zones : List Nat := []
  /-- namespace zone index of each of them on a cascade (R329), empty where it is the place in the list -/
  idx : List Nat := []
  poolRows : List Nat := []
  gen : Nat := 1
  salt : Nat := 0
  rot : Option Rotation := none
  resv : Resv := {}
  /-- conventional content in the stored form, and the conventional sequence of the write that each block holds (R114), by
  LBA; unit map by unit -/
  blocks : Kv Nat := []
  seqs : Kv Nat := []
  units : Kv UnitSt := []
  /-- mask of cascade positions that hold its extents (R314) -/
  anaGroup : Nat := 1
  /-- extents: first namespace zone, count, position (R329) -/
  extents : List (Nat × Nat × Nat) := []
  /-- reclaim unit in use by handle (R162): reclaim group × 64 + handle ↦ pool row + 1 -/
  handles : Kv Nat := []
  /-- next free unit of each pool row that has been written (R162) -/
  fill : Kv Nat := []
  /-- content and map entry that the durable map still names for units written since (R283) -/
  old : Kv (UnitSt × List Nat) := []
  /-- a deletion or Format waits for admitted commands -/
  ending : Option NsEnd := none
deriving DecidableEq, Repr

/-- A staging ring (R130 to R139). cells maps a cell counter to the zone and unit whose data it holds. -/
structure Ring where
  c : Nat := 0
  active : Nat := 0
  cells : Kv (Nat × Nat) := []
  /-- ring rows entered since their last erase (R139) -/
  unerased : List Nat := []
  /-- cells whose program was left out because the die is out of service (R239) -/
  absent : List Nat := []
deriving DecidableEq, Repr

/-- The stages of a host command inside the device. -/
inductive Stage where
  | point | admitted | dataIn | unmap | waitData | reading | order | ending | forwarded
deriving DecidableEq, Repr

/-- A host command the device holds (R22 to R24, R44, R45, R66, R76, R309, R330, R358). -/
structure Cmd where
  id : Nat
  op : IoOp
  io : IoCmd
  gen : Nat := 0
  /-- global submission queue index (R44) -/
  index : Nat := 0
  stage : Stage := .point
  /-- zone whose admission point it waits at -/
  zone : Nat := 0
  /-- further ranges of a Deallocate in a pair (R114); of a Report Zones on a cascade (R333), its option and partial flag,
  and its limit -/
  ranges : List (Nat × Nat) := []
  /-- further zones of a Select All command (R66), and cascade positions whose extents it has yet to act on (R333) -/
  zonesLeft : List Nat := []
  posLeft : List Nat := []
  /-- zones whose reset still awaits its unmap (R28) -/
  unmapLeft : List Nat := []
  asns : List Nat := []
  status : Nat := 0
  dw0 : Nat := 0
  dw1 : Nat := 0
  /-- held before check 7 (R139, R255, R325) -/
  held : Bool := false
  /-- stored form of each block of a read, none until it has arrived (R16, R76) -/
  snap : List (Option Nat) := []
  /-- commands whose data a read waits for, or whose completion a Flush waits for -/
  waits : List Nat := []
  /-- media units a read still needs -/
  need : List Nat := []
  /-- host data of a Compare, as extended data LBAs -/
  cmp : List Nat := []
  /-- blocks of a write once fetched, in the stored form; what members have answered to a Report Zones or ledger read -/
  data : List Nat := []
  /-- this twin holds the data, and its twin has acknowledged it (R32) -/
  dataHere : Bool := false
  acked : Bool := false
  /-- 0 own port, 1 sent by the follower, 2 forwarded by the master -/
  origin : Nat := 0
  /-- master tag, or conventional sequence (R313) -/
  tag : Nat := 0
  convSeq : Option Nat := none
  /-- latency class given by the forwarding header (R330) -/
  cls : Nat := 1
  /-- data check carried by a forwarding header or a frame (R301, R330) -/
  check : Option Nat := none
  contract : Bool := false
deriving DecidableEq, Repr

/-- What a completion carries beside its status. -/
inductive Payload where
  | none
  /-- extended data LBAs (R48), one number each -/
  | blocks (l : List Nat)
  | zones (l : List (Nat × Nat × Nat × Nat))
  /-- ledger slots of 64 bytes, each as one little-endian number (R6, R94 to R98) -/
  | slots (l : List Nat)
  | words (l : List Nat)
  /-- a layout of so many bytes, as one little-endian number (R6) -/
  | image (bytes value : Nat)
deriving DecidableEq, Repr

/-- A posted completion entry (R24, R70, R83, R483). status is type × 256 + code. -/
structure Cpl where
  fn : Nat
  sq : Nat
  cid : Nat
  status : Nat
  dw0 : Nat := 0
  dw1 : Nat := 0
  payload : Payload := .none
deriving DecidableEq, Repr

/-- The lens states of R345. -/
inductive LensSt where
  | disabled | offline | probation | online | error
deriving DecidableEq, Repr

/-- TDISP states (R369). -/
inductive Tdisp where
  | unlocked | locked | run | error
deriving DecidableEq, Repr

/-- A fetched entry in a read or write slot (R347, R350). -/
structure Slot where
  op : IoOp
  io : IoCmd
  gen : Nat
  order : Nat
  tag : Option Nat := none
  /-- counted once under R355 -/
  waited : Bool := false
deriving DecidableEq, Repr

/-- One function: the PF (0) or a lens (R342 to R372). -/
structure Fn where
  lens : LensSt := .disabled
  tdisp : Tdisp := .unlocked
  /-- CC.EN, CSTS.RDY, CC.SHN and CSTS.SHST -/
  en : Bool := false
  rdy : Bool := false
  shn : Nat := 0
  shst : Nat := 0
  gen : Nat := 0
  /-- an increment to this generation waits for old work (R361) -/
  genWait : Option Nat := none
  vq : Nat := 0
  vi : Nat := 0
  attached : List Nat := []
  /-- entries that wait in each submission queue, and the fetch rotation (R347) -/
  ready : Kv Nat := []
  sqPtr : Nat := 0
  rd : Option Slot := none
  wr : Option Slot := none
  finish : Nat := 0
  /-- tokens in 1/1,024 unit (R349) -/
  rdTok : Int := 2097152
  wrTok : Int := 2097152
  failedCheck : Nat := 0
  winUnits : Nat := 0
  /-- outstanding Asynchronous Event Requests as identifier and completion entry address, and events waiting for one -/
  aers : List (Nat × Nat) := []
  events : List (Nat × Nat) := []
  /-- Changed Zone List (R64) as NSID and zone start LBA -/
  changed : List (Nat × Nat) := []
  /-- critical warning bits latched for the function (R251) -/
  warn : Nat := 0
  reliability : Bool := false
  /-- controller registers that software has written, by offset, without their reserved bits (R8) -/
  regs : Kv Nat := []
  /-- Asynchronous Event Configuration: critical warnings the function's mask allows (R85) -/
  aec : Nat := 0x1F
  /-- write log (R363 to R367): active buffer, marked pages, flags, header sequence of each buffer, swap under way -/
  logActive : Nat := 0
  logA : List Nat := []
  logB : List Nat := []
  flagsA : Nat := 0
  flagsB : Nat := 0
  seqA : Nat := 0
  seqB : Nat := 0
  swapping : Bool := false
  contractSuspended : Bool := false
  /-- over-budget reads by prism group (R357) -/
  overBudget : Kv Nat := []
  /-- interface report taken at the lock (R370) -/
  report : List Nat := []
  /-- read units, write units and commands counted (R252) -/
  readUnits : Nat := 0
  writeUnits : Nat := 0
  commands : Nat := 0
  mediaErrors : Nat := 0
deriving DecidableEq, Repr

/-- A command granted by the lens arbiter and not yet taken up (R350). -/
structure Granted where
  op : IoOp
  io : IoCmd
  gen : Nat
deriving DecidableEq, Repr

/-- A ledger record with what the device keeps beside it (R99, R608). -/
structure LRec where
  r : LedgerRec
  sealed : Bool
  durable : Bool
  /-- internal number of the command it belongs to, 0 for none -/
  id : Nat := 0
deriving DecidableEq, Repr

/-- A remap record (R97). -/
structure Remap where
  asn : Nat
  epoch : Nat
  zone : Nat
  facet : Nat
  cause : Nat
  localSeq : Nat
  channel : Nat
  die : Nat
  oldBlock : Nat
  newBlock : Nat
  index : Nat
  durable : Bool := false
deriving DecidableEq, Repr

/-- A single-bit event crossing (R36): the toggle has been inverted and not yet returned, and the events merged with it. -/
structure Toggle where
  out : Bool := false
  merged : Nat := 0
deriving DecidableEq, Repr

/-- A device record that is due (R45). -/
inductive Due where
  | restartClose (zone nsid : Nat)
  | epochRec (digest epoch : Nat)
  | preserve (group : Nat)
  /-- the last record of R92 -/
  | lastPreserve
deriving DecidableEq, Repr

/-- What stood before a record: its zone, and the counter of the zone's ring (R283, R609). -/
structure Undo where
  asn : Nat
  zone : Nat
  image : Zone
  ring : Nat
  counter : Nat
deriving DecidableEq, Repr

/-- The admission unit (R45, R89 to R105). -/
structure Admission where
  nextAsn : Nat := 1
  recs : List LRec := []
  /-- second copy of the ledger buffer: the records that are not yet durable (R505) -/
  recs2 : List LedgerRec := []
  floor : Nat := 1
  due : List Due := []
  /-- command taken in the slot after an implicit close (R45) -/
  afterClose : Option Nat := none
  seqPtr : Nat := 0
  zonePtr : Kv Nat := []
  /-- cycle of the last command of each crossing (R39): 0 the own port, 1 the Mirror link, 2 to 4 the cascade ports -/
  crossed : Kv Nat := []
  preserve : Bool := false
  preserveGroup : Option Nat := none
  /-- the last ASN of R92 has been assigned -/
  spent : Bool := false
  remaps : List Remap := []
  nextRemap : Nat := 1
  remapFloor : Nat := 1
  localSeq : Nat := 0
  /-- records passed beyond the consumed mark (R105) -/
  passed : Nat := 0
  /-- a handover holds new commands before check 7 (R325) -/
  holdAll : Bool := false
  /-- last ASN this twin has applied from its lead (R31, R309) -/
  appliedHead : Nat := 0
  /-- before-images by record, kept until the record is durable (R283) -/
  undo : List Undo := []
  /-- preserve report waiting for its link (R235) -/
  reportDue : Option Nat := none
deriving DecidableEq, Repr

/-- A journal record (R270): LSN, type and the body's fields in order. -/
structure JRec where
  lsn : Nat
  typ : Nat
  body : List Nat
deriving DecidableEq, Repr

/-- The journal (R269 to R272). Lengths count 8-byte words. -/
structure Journal where
  nextLsn : Nat := 1
  tail : List JRec := []
  /-- second copy of the tail (R505) -/
  tail2 : List JRec := []
  durable : List JRec := []
  pageSeq : Nat := 0
  /-- bytes written since the previous checkpoint begin -/
  sinceBegin : Nat := 0
  ckpt : Nat := 0
  /-- a checkpoint is being written: its begin LSN -/
  running : Option Nat := none
  beginLsn : Nat := 0
  /-- pages held in the journal row: sequence, first LSN, records and epoch (R269) -/
  pages : List (Nat × Nat × Nat × Nat) := []
deriving DecidableEq, Repr

/-- The write window, fold cache and pool staging (R255, R144). -/
structure Window where
  /-- units held, 4 KiB each -/
  used : Nat := 0
  effectiveMiB : Nat := 1024
  /-- fold cache contents in order of allocation: ASN, zone, unit -/
  cache : List (Nat × Nat × Nat) := []
  convSeq : Nat := 1
  /-- conventional writes applied and not yet ordered, and ranges in lead order (R313) -/
  convOrder : List (Nat × Nat × Nat × Nat) := []
deriving DecidableEq, Repr

/-- The operation states of a die (R189). -/
inductive DieSt where
  | idle | reading | programming | erasing | suspending | suspended | readInSuspend | programInSuspend
  | resuming | out
deriving DecidableEq, Repr

/-- A program or erase that waits in a die queue (R177). -/
inductive Work where
  | program (job : ProgJob)
  | erase (block : Nat)
deriving DecidableEq, Repr

/-- A request in a die queue (R177). Reads name a read unit; programs and erases carry their work. -/
structure DReq where
  cls : Nat
  rid : Nat
  unit : Nat
  plane : Nat
  page : Nat
  /-- a member read of a periscope read or rebuild -/
  member : Bool
  slc : Bool
  work : Option Work := none
deriving DecidableEq, Repr

/-- A rewrite or retirement of a block (R226 to R233). step counts R229's steps. -/
structure Rewrite where
  block : Nat
  row : Nat
  zone : Nat
  facet : Nat
  urgent : Bool
  cause : Nat
  step : Nat := 0
  spare : Option Nat := none
  /-- units or pages copied so far (R229 step 2) -/
  copied : Nat := 0
  deferred : Bool := false
  /-- queued by a verify read in probation: the facet is read by rebuild until the switch (R245) -/
  verify : Bool := false
deriving DecidableEq, Repr

/-- An erase-ledger cell: its kind, sequence, blocks with their purpose and erase count, open floor, journal LSN, and the system
row that holds it (R273). -/
structure EraseCell where
  start : Bool
  seq : Nat
  blocks : List (Nat × Nat × Nat)
  floor : Nat
  lsn : Nat
  row : Nat
deriving DecidableEq, Repr

/-- One die (R118 to R121, R167, R189 to R194, R224, R232, R239, R243 to R246, R273 to R275). -/
structure Die where
  st : DieSt := .idle
  /-- block of its running or suspended erase, and whether it was suspended at a slot boundary (R190, R191) -/
  erase : Option Nat := none
  suspends : Nat := 0
  atBoundary : Bool := false
  resumed : Bool := false
  job : Option ProgJob := none
  queue : List DReq := []
  reading : List DReq := []
  /-- OD 0x3001:04 and the probation phase (R243) -/
  service : Nat := 0
  phase : Nat := 4
  returns : List Nat := []
  /-- frame boundaries in phase 3 with no facet left and no lasting fault since (R243) -/
  cleanFrames : Nat := 0
  /-- the repeat of R211 is under way -/
  repeated : Bool := false
  eraseRepeated : Bool := false
  blocks : Nat := 4200
  good : Nat := 4160
  /-- blocks with the factory bad-block mark, as ascending runs of first block and count (R121) -/
  bad : List (Nat × Nat) := [(4160, 40)]
  /-- time that background and non-contract reads have taken in this frame, in ns (R186) -/
  bgNs : Nat := 0
  /-- unused spares that differ from the default stock: taken blocks, returned blocks (R232) -/
  taken : List Nat := []
  returned : List Nat := []
  /-- row table entries that differ from manufacture (R121) -/
  rowMap : Kv Nat := []
  retired : List Nat := []
  cycles : Kv Nat := []
  relocs : Kv Nat := []
  readCount : Kv Nat := []
  rewrites : List Rewrite := []
  /-- journalled retirement waiting for its row-table switch -/
  switching : List Rewrite := []
  /-- erase ledger: blocks named by durable start cells without completion, erases ended since the last completion
  cell, cell sequence, cells in the current block (R273 to R275) -/
  started : List Nat := []
  ended : List Nat := []
  cellSeq : Nat := 0
  cellCount : Nat := 0
  /-- the system row of the current ledger block, and the cells of both blocks -/
  ledgerRow : Nat := 1
  cells : List EraseCell := []
  half : List Nat := []
  /-- transient faults: block and second (R224); timeouts: second -/
  faults : List (Nat × Nat) := []
  timeouts : List Nat := []
  leftAt : Option Nat := none
  /-- facets verified in probation phase 3 (R245) -/
  verified : List Nat := []
deriving DecidableEq, Repr

/-- How a unit of a read is being served (R20, R180, R218, R222). -/
inductive RdMode where
  | queued | direct | periscope | rebuild | twin
deriving DecidableEq, Repr

/-- One 4 KiB unit of a read at the media (R180 to R184, R218). -/
structure RdUnit where
  rid : Nat
  unit : Nat
  zone : Nat
  /-- location: group, target facet, row, page, plane, cw, and parity count of its stripe -/
  group : Nat
  facet : Nat
  row : Nat
  page : Nat
  plane : Nat
  cw : Nat
  parity : Nat
  slc : Bool
  cls : Nat
  /-- absent facet or die out of service: no direct read (R221) -/
  noDirect : Bool
  /-- counts among its group's periscope reads in flight (R182) -/
  peri : Bool := false
  /-- the rebuild was abandoned, and the read goes direct (R21) -/
  only : Bool := false
  mode : RdMode := .queued
  step : Nat := 0
  members : List Nat := []
  decoded : List Nat := []
  left : List Nat := []
  /-- counted as turned away by the periscope cap (R182) -/
  turned : Bool := false
  /-- member whose codeword is being recovered by the ladder (R222) -/
  member : Option Nat := none
deriving DecidableEq, Repr

/-- One prism group (R173 to R176, R182, R200). state: 0 none, 1 joining, 2 held, 3 suspended. -/
structure Group where
  state : Nat := 0
  d : Nat := 2
  causes : Nat := 0
  periInFlight : Nat := 0
  /-- a cause was present at some time in the current frame -/
  causeInFrame : Bool := false
  qlcPtr : Nat := 0
  slcPtr : Nat := 0
deriving DecidableEq, Repr

/-- The die scheduler's slot counter and grants (R169, R195 to R197). -/
structure Sched where
  slot : Nat := 0
  slotUs : Nat := 2500
  mask : Nat := 0x0FFF
  qlcUsed : Nat := 0
  slcUsed : Nat := 0
  eraseUsed : Nat := 0
  sysUsed : Nat := 0
  qlcBudget : Nat := 0
  slcBudget : Nat := 64
  eraseBudget : Nat := 0
  /-- rotation over prism groups by grant class (R197) -/
  grantPtr : Kv Nat := []
  /-- arbiter pointers of the soft decoders and of placement engine dispatch by class (R42, R44) -/
  softPtr : Nat := 0
  placePtrs : List Nat := [0, 0, 0]
deriving DecidableEq, Repr

/-- The fields of a die script header that the device keeps (R204). -/
structure ScriptHdr where
  rows : Nat := 4096
  parityBytes : Nat := 512
  trQlc : Nat := 70
  trSlc : Nat := 40
  tprogSlc : Nat := 180
  tprogQlc : Nat := 2500
  ters : Nat := 6000
  suspUs : Nat := 20
  suspends : Nat := 1024
  mode : Nat := 1
  flags : Nat := 1
  rate : Nat := 4800
  secVersion : Nat := 0
  keySlot : Nat := 0
  digest : Nat := 0
deriving DecidableEq, Repr

/-- A bus cycle a channel sequencer has driven (R207). -/
inductive BusCyc where
  | cmd (b : Byte)
  | addr (b : Byte)
  | dataOut (b : Byte)
  | streamOut (n : Nat)
  | streamIn (n : Nat)
  | dataIn (b : Byte)
  | status (c : Byte) (row : Option (Byte × Byte × Byte))
  | wait (ns : Nat)
  | ceLow (ce : Nat)
  | ceHigh
deriving DecidableEq, Repr

/-- One flash channel and its sequencer (R203 to R214, R598). state is OD 0x3210:04. -/
structure Chan where
  state : Nat := 0
  /-- a die script is in use (R546, R604) -/
  scripted : Bool := true
  /-- operations that ended with a script-defined status 0x05 to 0x7F (R209) -/
  oddStatuses : Nat := 0
  hdr : ScriptHdr := {}
  code : List Word32 := []
  entry : List Nat := []
  rateNow : Nat := 4800
  bus : List BusCyc := []
  /-- asserted CE#, context on the bus, rotation pointers of the two classes -/
  ce : Option Nat := none
  holder : Option Nat := none
  ptrHigh : Nat := 0
  ptrLow : Nat := 0
  phyRegs : Kv Nat := []
  /-- image waiting to be swapped in (R213) -/
  pending : Option Nat := none
  faulted : Bool := false
deriving DecidableEq, Repr

/-- A sequencer context (R203, R205): sixteen registers, status latch, flags, call stack. -/
structure Ctx where
  v : Vector Word32 16 := Vector.replicate 16 0
  s : Byte := 0
  z : Bool := false
  n : Bool := false
  stack : List Nat := []
  pc : Nat := 0
  /-- entry that is running (R205) -/
  entry : Option Nat := none
  count : Nat := 0
  waiting : Bool := false
  class1 : Bool := false
  /-- status with which the last operation ended (R209) -/
  status : Option Nat := none
  /-- registers as the running entry loaded them, and the entry to repeat after a RESET_DIE (R205, R211) -/
  params : Vector Word32 16 := Vector.replicate 16 0
  redo : Option (Nat × Vector Word32 16) := none
deriving DecidableEq, Repr

/-- A hold-up image in a flush area (R266 to R268). -/
structure Image where
  seq : Nat
  area : Nat
  nextAsn : Nat
  sealedHead : Nat
  lsn : Nat
  epoch : Nat
  /-- zoned units, then conventional units, as zone or NSID and unit -/
  units : List (Nat × Nat)
  conv : List (Nat × Nat)
  convSeq : Nat
  sealed : Bool
  /-- order of each unit in its tag (R267) -/
  orders : List Nat := []
  /-- the ledger buffer and the journal tail -/
  ledger : List LedgerRec := []
  tail : List JRec := []
deriving DecidableEq, Repr

/-- The phases of a power loss (R257, R258, R534). flush is the pre-reset flush. -/
inductive Hold where
  | running | holdup | flush | written | lost
deriving DecidableEq, Repr

/-- Hold-up, shutdown and restart (R255 to R292). -/
structure Power where
  plnLow : Bool := false
  hold : Hold := .running
  armed : Bool := false
  images : List Image := []
  imageSeq : Nat := 0
  area : Nat := 0
  /-- image whose units are still being programmed (R291) -/
  inUse : Bool := false
  reload : List (Nat × Nat) := []
  /-- 0 none, 1 running, 2 complete (R286) -/
  shutdown : Nat := 0
  shutdownFn : Nat := 0
  /-- the last durable journal record is a clean shutdown (R287) -/
  clean : Bool := true
  unsafeShutdowns : Nat := 0
deriving DecidableEq, Repr

/-- A frame queued for a twin or a member (R299), as kind and fields. -/
structure Frame where
  port : Nat
  kind : Nat
  epoch : Nat
  seq : Nat
  /-- cipher lane that encrypted its write data (R44) -/
  lane : Nat := 0
  body : List Nat
deriving DecidableEq, Repr

/-- The Mirror pair (R294 to R326). Role, pair epoch and phase are OD 0x5000:01, :02 and :03. -/
structure Pair where
  linkUp : Bool := false
  session : Bool := false
  /-- keepalive periods since the last valid keepalive (R306) -/
  missed : Nat := 0
  hbIn : Bool := false
  /-- PAIR_HB_IN was present within 1 ms (R308), in keepalive periods of 20 µs -/
  hbAge : Nat := 100
  waiting : Bool := false
  fenced : Bool := false
  detached : Bool := false
  wasLead : Bool := false
  /-- lead by promotion, and no twin has joined since: its fork point stands in OD 0x5000:07 (R309, R318) -/
  promoted : Bool := false
  /-- the pair was formed, and the state transfer to the new twin is still to come (R324) -/
  newTwin : Bool := false
  bootWait : Bool := false
  hbInWait : Bool := false
  twin : Option StatusBlock := none
  txSeq : Nat := 1
  rxSeq : Nat := 0
  /-- frames kept until acknowledged, sequence asked for again, its failures (R300) -/
  unacked : List Frame := []
  resendAsked : Option Nat := none
  retraining : Bool := false
  /-- frames that wait for the link's transmit arbiter, and its pointer over the cipher lanes of write data (R42, R44) -/
  txq : List Frame := []
  lanePtr : Nat := 0
  out : List Frame := []
  /-- admission requests sent and not answered (R309) -/
  asked : List Nat := []
  /-- commands dropped by a reset while the lead had their requests: function, queue and command identifier (R359) -/
  dropped : List (Nat × Nat × Nat) := []
  /-- conventional regions marked (R319), as NSID and 1 MiB region -/
  regions : List (Nat × Nat) := []
  handing : Bool := false
  /-- a detach is agreed, and commands at or below its ASN still complete under R312 (R326) -/
  detaching : Bool := false
  /-- the session's export master secret and identifier (R303) -/
  secret : Nat := 0
  sessionId : Nat := 0
  keyUpdates : Nat := 0
  twinRoot : Option Nat := none
  /-- ASNs of switch frames received: NSID, ASN, generation, salt (R399) -/
  switches : List (Nat × Nat × Nat × Nat) := []
  ana : Nat := 1
deriving DecidableEq, Repr

/-- One cascade port or position (R327 to R338). OD 0x5110:01 holds its state. -/
structure Member where
  linkUp : Bool := false
  /-- the session of the cascade link stands (R302, R386) -/
  session : Bool := false
  serial : Nat := 0
  missed : Nat := 0
  /-- forwarded commands outstanding: master tag and internal command -/
  sent : List (Nat × Nat) := []
  txSeq : Nat := 1
  rxSeq : Nat := 0
  unacked : List Frame := []
  resendAsked : Option Nat := none
  retraining : Bool := false
  keyUpdates : Nat := 0
deriving DecidableEq, Repr

/-- The cascade (R327 to R338). -/
structure Cascade where
  members : Kv Member := []
  nextTag : Nat := 1
  /-- a member without its master (R338) -/
  masterLost : Bool := false
deriving DecidableEq, Repr

/-- A message on a cipher lane (R388 to R390). -/
structure Msg where
  page : Nat
  blocks : Nat
  urgent : Bool
  suspendedOnce : Bool
deriving DecidableEq, Repr

/-- A cipher lane: the message it runs and its single save slot. -/
structure Lane where
  run : Option Msg := none
  saved : Option Msg := none
deriving DecidableEq, Repr

/-- A boot record (R409), without its fixed bytes. -/
structure BootRec where
  flags : Nat
  sequence : Nat
  causes : Nat
  seconds : Nat
  secVersion : Nat
  epoch : Nat
  previous : Nat
  ms : List Nat
  signature : Nat
deriving DecidableEq, Repr

/-- A firmware slot (R418). -/
structure FwSlot where
  valid : Bool := true
  secVersion : Nat := 0
  digest : Nat := 0
  asksRaise : Bool := false
  keySlot : Nat := 0
deriving DecidableEq, Repr

/-- The cipher engine, keys and attestation (R376 to R421). -/
structure Cipher where
  /-- data-key root register; none before the first create and after an erasure -/
  root : Option Nat := none
  /-- wrapped root in row 0, and a pending new one (R378, R402) -/
  stored : Option Nat := none
  pendingRoot : Option Nat := none
  /-- the sanitize of the pending root erases the blocks too -/
  pendingErase : Bool := false
  lanes : List Lane := List.replicate 16 {}
  /-- lanes out of service -/
  badLanes : List Nat := []
  urgentPtr : Nat := 0
  normalPtr : Nat := 0
  /-- derived key cache by page: (NSID, generation), most recent first (R384) -/
  cache : Kv (List (Nat × Nat)) := []
  shared : Nat := 3568
  loaded : List Nat := []
  drbgOk : Bool := true
  drbgUsed : Nat := 0
  alarms : Nat := 0
  /-- sessions held by binding (R414) -/
  sessions : List Nat := []
  negotiated : List Nat := []
  slot1 : Option Nat := none
  /-- an alarm has erased the root, and it is not loaded again (R405) -/
  erased : Bool := false
  ms : List Nat := List.replicate 16 0
  records : List BootRec := []
  retained : Option BootRec := none
  fresh : Option BootRec := none
  /-- a retained record that row 0 lacks (R412) -/
  lacking : Option BootRec := none
  slots : List FwSlot := [{}, {}]
  chosen : Nat := 0
  activeSlot : Nat := 0
  otpMin : Nat := 0
  alarmResets : Nat := 0
deriving DecidableEq, Repr

/-- The steps of a level change (R424). -/
inductive PStep where
  | idle | voltage | bias
deriving DecidableEq, Repr

/-- Levels, sleep, sensors and set-point (R423 to R440, R578 to R581). -/
structure Pwr where
  level : Nat := 3
  /-- level of the clocks in place: never faster than the voltage driven (R424) -/
  clk : Nat := 3
  /-- level of the body bias and wordline underdrive in place (R423, R424) -/
  bias : Nat := 3
  target : Nat := 3
  step : PStep := .idle
  vsel : Nat := 3
  prevVsel : Nat := 3
  vddPg : Bool := true
  /-- alarm window of VDD in tenths of mV: low, high (R581) -/
  alarmLo : Nat := 6440
  alarmHi : Nat := 7560
  /-- fastest level after a regulator failure (R579) -/
  pgCap : Nat := 0
  wakeLevel : Bool := false
  /-- sleep state reached and the standing requests by requester (R429) -/
  sleep : Nat := 0
  idleReq : Nat := 0
  nvmeReq : Nat := 0
  pciReq : Nat := 0
  mgmtReq : Nat := 0
  /-- sleep being entered, next block to ask, blocks stopped (R431) -/
  entering : Option Nat := none
  asked : Nat := 0
  stopped : List Nat := []
  retryDue : Bool := false
  saveArea : Option Nat := none
  ps : Nat := 0
  /-- composite and highest die sensor temperature in m°C, thermal states -/
  composite : Int := 25000
  dieMax : Int := 25000
  packageMax : Int := -273150
  critical : Bool := false
  railSeen : Bool := false
  pF : Int := 0
  pM : Int := 0
  /-- set-point in mW and the PCAP_P measurement (R440) -/
  cM : Nat := 215000
  pcapCond : Nat := 0
  pcapGood : Nat := 0
  pcapLast : Nat := 215000
  pcapSum : Nat := 0
  pcapCount : Nat := 0
deriving DecidableEq, Repr

/-- A loop engine (R444 to R451). Accumulators stand for acc ÷ 2^30. -/
structure Engine where
  a0 : Int := 0
  a1 : Int := 0
  d : Kv Int := []
  z : Bool := false
  n : Bool := false
  s : Bool := false
  c : Bool := false
  pc : Nat := 0
  running : Bool := false
  count : Nat := 0
  code : List Word32 := []
  phase : Nat := 3
  shadow : Nat := 0
  /-- accepted image waiting for the next tick (R449) -/
  image : Option Nat := none
  lastD : Kv Int := []
  /-- back in service, its outputs take effect from the next frame boundary (R451) -/
  late : Bool := false
  /-- ticks since its program was loaded (R442) -/
  tickNo : Nat := 0
  ticks : Nat := 0
deriving DecidableEq, Repr

/-- The loop (R441 to R443). -/
structure Loop where
  mode : Nat := 2
  /-- grant fraction of the last end, and the one in force -/
  u : Int := 0
  uInForce : Int := 0
  levelReq : Nat := 3
  /-- mailbox outputs: engine 1's for engine 0, and engine 0's for engine 1 -/
  mailbox : Int := 0
  mailbox0 : Int := 0
  e0 : Engine := {}
  e1 : Engine := {}
deriving DecidableEq, Repr

/-- One DRAM channel (R494, R502, R511 to R518). state is OD 0x9010:01. -/
structure DChan where
  state : Nat := 0
  open_ : Kv Nat := []
  ptr : List Nat := [0, 0, 0, 0]
  promoted : List Nat := []
  checkCache : List Nat := []
  refreshRate : Nat := 0
  /-- pauses of the current retrain done, retrain due, repeated once, put off for an interval -/
  pauses : Nat := 0
  retrain : Bool := false
  again : Bool := false
  late : Bool := false
  refreshes : Nat := 0
deriving DecidableEq, Repr

/-- The DRAM controller (R493 to R518). mem holds the data space; an unlisted byte reads 0 (R503). -/
structure Dram where
  mem : List Host.Cell := []
  ranks : Nat := 1
  density : Nat := 32
  rate : Nat := 10667
  /-- blocks of 64 KiB not initialised again since reset are those at or above the mark and not listed -/
  initMark : Nat := 0
  initOther : List Nat := []
  chans : Kv DChan := []
  withdrawn : List Nat := []
  sparesUsed : Nat := 0
  /-- corrections: second, frame (R224) and second, channel, rank, bank, row (R509) -/
  corrections : List (Nat × Nat) := []
  watch : List (Nat × Nat × Nat) := []
  nextRetrain : Nat := 0
  /-- the last data delivered: port, request and the bytes of its codeword (R511) -/
  delivered : Option (Nat × Nat × List Byte) := none
deriving DecidableEq, Repr

/-- One tier of a buffer pool (R519 to R525). Buffers are numbered from the region's base. -/
structure Tier where
  base : Nat := 0
  count : Nat := 0
  /-- returned buffers, head first; buffers from fresh on have never been handed out -/
  stack : List Nat := []
  fresh : Nat := 0
  /-- buffers handed out ↦ class + 1 of the request -/
  allocated : Kv Nat := []
  removed : List Nat := []
  /-- bytes that the current owner of a buffer has written, as a mask by buffer (R527) -/
  written : Kv Nat := []
  toRemove : List Nat := []
  rebuilding : Bool := false
deriving DecidableEq, Repr

/-- One buffer pool (R519 to R529). -/
structure Pool where
  sram : Tier := {}
  dram : Tier := {}
  state : Nat := 0
  ptr : List Nat := [0, 0, 0, 0]
  waiting : List Req := []
  /-- a class 0 request has timed out and is served next (R529) -/
  urgent : Option Req := none
  lowest : Nat := 0
deriving DecidableEq, Repr

/-- Where the device stands between reset and service (R543 to R551). -/
inductive Life where
  | inReset | stage0 | stage1 | stage2 | stage3 | service | maintenance | halt (stage : Nat) | qspiRelease
deriving DecidableEq, Repr

/-- The reset controller and the retained registers (R531 to R551, R574). -/
structure Reset where
  life : Life := .stage0
  /-- sources asserted, as a mask of cause bits -/
  asserted : Nat := 0
  /-- cause register (R540), retained -/
  cause : Nat := 0x01000001
  captured : Nat := 0
  /-- source that waits for the pre-reset flush -/
  pending : Nat := 0
  testHold : Bool := false
  ringOsc : Bool := false
  straps : Nat := 0
  bootFailures : Nat := 0
  maintain : Bool := false
  logicRunning : Bool := false
  logicFailed : Nat := 0
  logicSigs : List Nat := []
  /-- signatures of memory partitions 128 to 135 at the last logic BIST (R552, R554), retained -/
  memSigs : List Nat := []
  scanStep : Nat := 0
  /-- boot sequence of the last logic BIST (OD 0xA200:08), retained -/
  logicBoot : Nat := 0
  unclean : Bool := false
  /-- fold programs that the restart found cut short, to be repaired: zone, unit and facet (R285) -/
  cuts : List (Nat × Nat × Nat) := []
  recordDurable : Bool := false
  /-- the crystal is missing, and the real-time counter stands (R589) -/
  rtcStopped : Bool := false
deriving DecidableEq, Repr

/-- Memory BIST and self-test (R554 to R557). -/
structure Bist where
  running : Bool := false
  next : Nat := 0
  failed : List Nat := []
  sigs : Kv Nat := []
  /-- staging buffers removed before the last reset, by address, that BIST has not passed yet (R508) -/
  taken : List Nat := []
  /-- self-test that runs (R557): 0 none, 1 short, 2 extended, 3 its scrub; lanes that fail its vectors -/
  selfTest : Nat := 0
  selfTestLanes : List Nat := []
  /-- Device Self-test log: code and failing segment (0 for a pass), newest first -/
  selfTestLog : List (Nat × Nat) := []
  decodersOut : List Nat := []
  enginesOut : List Nat := []
  traceOn : Bool := false
deriving DecidableEq, Repr

/-- A Loupe entry (R559, R560). rule names the event; its code is the subject and an implementation's low byte. -/
structure LEntry where
  seq : Nat
  subject : Nat
  rule : Nat
  sev : Nat
  trigger : Nat := 0xFF
  bootSeq : Nat := 0
  nextAsn : Nat := 0
  epoch : Nat := 0
  dropped : Nat := 0
  flushed : Bool := false
  /-- a retained copy (bit 1 of the flags) -/
  copy : Bool := false
  detail : List Nat := []
  /-- items: object, element, instance, status, value -/
  items : List (Nat × Nat × Nat × Nat × Nat) := []
deriving DecidableEq, Repr

/-- The Loupe recorder (R558 to R566). -/
structure Loupe where
  nextSeq : Nat := 1
  live : List LEntry := []
  kept : List LEntry := []
  flash : List LEntry := []
  liveDrops : Kv Nat := []
  keptDrops : Kv Nat := []
  droppedSince : Nat := 0
  frozen : Bool := false
  flushing : Bool := false
  telemetry : Nat := 0
deriving DecidableEq, Repr

/-- A staged value (R466): element key, value, bytes covered as (offset, length) pieces. -/
structure Staged where
  key : Nat
  value : Nat
  cover : List (Nat × Nat)
deriving DecidableEq, Repr

/-- A commit whose durable writes are outstanding (R472, R476, R603): its status, the elements superseded, the values for
row 0, the entries that wait for the epoch record with its epoch (0 for none), and the entries of its request list
processed before it and still to come (R483). -/
structure Answering where
  q : CommitReq
  status : Nat
  superseded : List Nat
  saved : List (Nat × Nat)
  waiting : List Staged
  epoch : Nat
  /-- forwarded to the lead (R478) -/
  forwarded : Bool
  count : Nat
  rest : List DictOp
deriving DecidableEq, Repr

/-- A requester's staging set and the status of its last commit (R466, R492). -/
structure Staging where
  who : Requester
  entries : List Staged := []
  last : Nat := 0
  answering : List Answering := []
deriving DecidableEq, Repr

/-- A dictionary answer (R482, R476). -/
structure DictAns where
  who : Requester
  obj : Nat
  elem : Nat
  inst : Nat
  status : Nat
  length : Nat := 0
  value : Nat := 0
deriving DecidableEq, Repr

/-- The dictionary (R453 to R492). -/
structure Dict where
  od : Kv Nat := []
  sets : List Staging := []
  answers : List DictAns := []
  rankPtr : List Nat := [0, 0, 0, 0]
  /-- pair-wide values that each epoch brought, for a twin that was absent (R110, R478) -/
  epochs : Kv (List (Nat × Nat)) := []
  /-- at a follower, the lead's pair-wide values that wait for its epoch records, in order (R110) -/
  waitEpoch : List (List (Nat × Nat)) := []
  durable : Kv Nat := []
  /-- copy of row 0 in use: groups 0 to 63, or 64 to 127 (R265, R282) -/
  copy : Nat := 0
deriving DecidableEq, Repr

/-- A management response (R413 to R417, R484), as binding, kind and words. -/
structure Resp where
  binding : Nat
  kind : Nat
  words : List Nat
deriving DecidableEq, Repr

/-- The management network (R484 to R488, R594). -/
structure Mgmt where
  eids : Kv Nat := []
  addrs : Kv Nat := []
  hdr : List Nat := []
  out : List Resp := []
deriving DecidableEq, Repr

/-- The device-specific outputs (R542, R573): true is the active level. -/
structure Pins where
  wpLow : Bool := true
  ceHigh : Bool := true
  pcieIdle : Bool := true
  mirrorIdle : Bool := true
  hbOut : Bool := false
  trip : Bool := false
  alert : Bool := false
  clkreq : Bool := false
  led0Blink : Bool := false
  dramReset : Bool := true
  i3cOn : Bool := false
  ioApplied : Bool := false
  /-- PHYs at their fixed mid-range setting: FZQ quads 0 to 15, DZQ channels 16 to 23 (R569) -/
  midRange : List Nat := []
  /-- second of the newest entry of severity 5 or higher (LED mode 4, R602) -/
  faultAt : Option Nat := none
deriving DecidableEq, Repr

/-- The host side of the controller (R44, R347 to R351). -/
structure HostSide where
  fns : Kv Fn := []
  vtime : Nat := 0
  rrPtr : Nat := 0
  fetchOrder : Nat := 0
  granted : List Granted := []
  cmds : List Cmd := []
  nextId : Nat := 1
  cq : List Cpl := []
  numVfs : Nat := 0
  /-- the host link (R1, R491): trainings so far, the highest rate allowed at the last of them, and the bifurcation read at
  the last PERST# assertion -/
  linkNo : Nat := 0
  linkMax : Nat := 7
  bifurcated : Bool := false
  freeVq : Nat := 8128
  freeVi : Nat := 8640
  /-- the host accepts commands: configuration space is served (R545) -/
  cfgServed : Bool := false
  /-- FDP (R79, R81): on, event types enabled by handle, events as type, handle and NSID, bytes written by hosts, bytes
  written to and erased from the media -/
  fdp : Bool := false
  fdpEnabled : Kv Nat := []
  fdpEvents : List (Nat × Nat × Nat) := []
  fdpHost : Nat := 0
  fdpMedia : Nat := 0
  fdpErased : Nat := 0
  /-- 0 no sanitize, 1 completed, 2 running -/
  sanitizeStatus : Nat := 0
  d3hot : Bool := false
deriving DecidableEq, Repr

/-- The health figures that no dictionary element holds (R249, R224). -/
structure Health where
  /-- one count each second (R249) -/
  seconds : Nat := 0
  hist : Kv Nat := []
  ring : List Int := []
  maxNow : Option Int := none
  spareLow : Bool := false
  hot : Bool := false
  worn : Bool := false
  critical : Nat := 0
  savedOd : Kv Nat := []
  patrol : Kv Nat := []
  errors : List (Nat × Nat) := []
deriving DecidableEq, Repr

/-- The Brelux Z640. pending is the queue of commands that wait; free is the model's own counter of free values. -/
structure State where
  pending : List Instr := []
  free : Nat := 0
  host : HostSide := {}
  adm : Admission := {}
  zones : Kv Zone := []
  nss : List Ns := []
  rings : Kv Ring := []
  jrn : Journal := {}
  win : Window := {}
  dies : Kv Die := []
  reads : List RdUnit := []
  sched : Sched := {}
  groups : Kv Group := []
  chans : Kv Chan := []
  ctxs : Kv Ctx := []
  power : Power := {}
  pair : Pair := {}
  casc : Cascade := {}
  ciph : Cipher := {}
  pwr : Pwr := {}
  loop : Loop := {}
  dram : Dram := {}
  pools : Kv Pool := []
  rst : Reset := {}
  bist : Bist := {}
  loupe : Loupe := {}
  dict : Dict := {}
  mgmt : Mgmt := {}
  pins : Pins := {}
  health : Health := {}
  /-- single-bit event crossings, by number (R36) -/
  toggles : Kv Toggle := []
deriving DecidableEq, Repr

/-- Why a step stops. -/
inductive Fault where
  /-- raised by a DRAM access beyond the data space of R497: safe, the spec gives the address no location -/
  | noSuchAddress (address : Nat)
deriving DecidableEq, Repr

/-- Why a command has no meaning. -/
inductive Refusal where
  /-- raised by the dispatch of a command the model does not cover: safe -/
  | notModelled (mnemonic : String)
deriving DecidableEq, Repr

/-- The machine right after a power-on reset (R532, R540, R543): stage 0 is about to run, every volatile element at
its default, no command waiting. -/
def State.reset : State := {}

end Sys2Proof.Machine
end

