-- ==== Sys2Proof/Machine/Ops.lean ====
section
/-! DEFINITION. The named operations over the state: sparse maps, the dictionary's store, and one reader and one
writer for each kind of part. -/

namespace Sys2Proof.Machine

/-! Sparse maps. -/

/-- The value of a key; an unlisted key reads the default. -/
def kvGet {α : Type} (d : α) (k : Nat) : Kv α → α
  | [] => d
  | (k', v) :: t => if k = k' then v else kvGet d k t

/-- Set a key, keeping the keys rising and the default unlisted. -/
def kvPut {α : Type} [DecidableEq α] (d : α) (k : Nat) (v : α) : Kv α → Kv α
  | [] => if v = d then [] else [(k, v)]
  | (k', v') :: t =>
    if k < k' then (if v = d then (k', v') :: t else (k, v) :: (k', v') :: t)
    else if k = k' then (if v = d then t else (k, v) :: t)
    else (k', v') :: kvPut d k v t

/-- The canonical form of a sparse map whose unlisted keys read d. -/
abbrev kvWf {α : Type} [DecidableEq α] (d : α) (m : Kv α) : Prop :=
  (m.map Prod.fst).Pairwise (· < ·) ∧ ∀ e ∈ m, e.2 ≠ d

/-- Write a run of values from key k on. -/
def kvPutRun {α : Type} [DecidableEq α] (d : α) (k : Nat) : List α → Kv α → Kv α
  | [], m => m
  | v :: t, m => kvPutRun d (k + 1) t (kvPut d k v m)

/-- Remove the keys for which the test holds. -/
def kvDrop {α : Type} (p : Nat → Bool) (m : Kv α) : Kv α := m.filter fun e => !p e.1

/-- Change every listed value, keeping the form. -/
def kvMap {α : Type} [DecidableEq α] (d : α) (f : α → α) (m : Kv α) : Kv α :=
  (m.map fun e => (e.1, f e.2)).filter fun e => decide (e.2 ≠ d)

/-- A run of n values from key k on. -/
def kvRun {α : Type} (d : α) (k n : Nat) (m : Kv α) : List α := (List.range n).map fun i => kvGet d (k + i) m

/-! The dictionary's store (R453, R463). -/

/-- The key of an element and instance. -/
def odKey (obj elem inst : Nat) : Nat := obj * 2 ^ 24 + elem * 2 ^ 16 + inst

/-- The default of an element for one instance: the tables' default, with the defaults that vary by instance (R519,
R602). -/
def odDflt (obj elem inst : Nat) : Nat :=
  if obj = 0x9200 ∧ elem = 2 then [8192, 4096, 1024, 512, 64, 12].getD inst 0
  else if obj = 0x9200 ∧ elem = 3 then [262144, 262144, 65536, 16384, 4096, 1024].getD inst 0
  else if obj = 0xB200 then [4, 3, 0, 0].getD inst 0
  else match odFind obj elem with
    | some e => e.dflt
    | none => 0

/-- The value in force of a stored element. -/
def od (s : State) (obj elem : Nat) (inst : Nat := 0) : Nat :=
  kvGet (odDflt obj elem inst) (odKey obj elem inst) s.dict.od

/-- Set a stored element. -/
def odSet (s : State) (obj elem inst v : Nat) : State :=
  { s with dict.od := kvPut (odDflt obj elem inst) (odKey obj elem inst) v s.dict.od }

/-- Set a saved element together with its copy in row 0 (R461, R463): an internal unit's write. -/
def odSave (s : State) (obj elem inst v : Nat) : State :=
  { s with dict.od := kvPut (odDflt obj elem inst) (odKey obj elem inst) v s.dict.od
           dict.durable := kvPut (odDflt obj elem inst) (odKey obj elem inst) v s.dict.durable }

/-- Count n in a counter; a counter returns to 0 past its width (log entry 21). -/
def odBump (s : State) (obj elem : Nat) (inst : Nat := 0) (n : Nat := 1) : State :=
  let size := match odFind obj elem with
    | some e => e.size
    | none => 8
  odSet s obj elem inst ((od s obj elem inst + n) % 2 ^ (8 * size))

/-! Parts of the state by number. -/

def zone (s : State) (z : Nat) : Zone := kvGet {} z s.zones
def setZone (s : State) (z : Nat) (v : Zone) : State := { s with zones := kvPut {} z v s.zones }

def ring (s : State) (r : Nat) : Ring := kvGet {} r s.rings
def setRing (s : State) (r : Nat) (v : Ring) : State := { s with rings := kvPut {} r v s.rings }

def die (s : State) (d : Nat) : Die := kvGet {} d s.dies
def setDie (s : State) (d : Nat) (v : Die) : State := { s with dies := kvPut {} d v s.dies }

def grp (s : State) (g : Nat) : Group := kvGet {} g s.groups
def setGrp (s : State) (g : Nat) (v : Group) : State := { s with groups := kvPut {} g v s.groups }

def chan (s : State) (c : Nat) : Chan := kvGet {} c s.chans
def setChan (s : State) (c : Nat) (v : Chan) : State := { s with chans := kvPut {} c v s.chans }

/-- A die's sequencer context; contexts are numbered as dies (R203). -/
def ctx (s : State) (d : Nat) : Ctx := kvGet {} d s.ctxs
def setCtx (s : State) (d : Nat) (v : Ctx) : State := { s with ctxs := kvPut {} d v s.ctxs }

def fnc (s : State) (f : Nat) : Fn := kvGet {} f s.host.fns
def setFn (s : State) (f : Nat) (v : Fn) : State := { s with host.fns := kvPut {} f v s.host.fns }

def member (s : State) (p : Nat) : Member := kvGet {} p s.casc.members
def setMember (s : State) (p : Nat) (v : Member) : State := { s with casc.members := kvPut {} p v s.casc.members }

def dchan (s : State) (c : Nat) : DChan := kvGet {} c s.dram.chans
def setDchan (s : State) (c : Nat) (v : DChan) : State := { s with dram.chans := kvPut {} c v s.dram.chans }

def pool (s : State) (p : Nat) : Pool := kvGet {} p s.pools
def setPool (s : State) (p : Nat) (v : Pool) : State := { s with pools := kvPut {} p v s.pools }

def lane (s : State) (l : Nat) : Lane := s.ciph.lanes.getD l {}
def setLane (s : State) (l : Nat) (v : Lane) : State := { s with ciph.lanes := s.ciph.lanes.set l v }

def eng (s : State) (e : Nat) : Engine := if e = 0 then s.loop.e0 else s.loop.e1
def setEng (s : State) (e : Nat) (v : Engine) : State :=
  if e = 0 then { s with loop.e0 := v } else { s with loop.e1 := v }

def ns? (s : State) (nsid : Nat) : Option Ns := s.nss.find? fun n => n.nsid == nsid

/-- Replace the entry of a namespace. -/
def setNs (s : State) (n : Ns) : State := { s with nss := s.nss.map fun m => if m.nsid = n.nsid then n else m }

def cmd? (s : State) (id : Nat) : Option Cmd := s.host.cmds.find? fun c => c.id == id
def setCmd (s : State) (c : Cmd) : State :=
  { s with host.cmds := s.host.cmds.map fun d => if d.id = c.id then c else d }
def dropCmd (s : State) (id : Nat) : State := { s with host.cmds := s.host.cmds.filter fun d => d.id != id }

def rdUnit? (s : State) (rid unit : Nat) : Option RdUnit := s.reads.find? fun r => r.rid == rid && r.unit == unit
def setRdUnit (s : State) (r : RdUnit) : State :=
  { s with reads := s.reads.map fun q => if q.rid = r.rid ∧ q.unit = r.unit then r else q }
def dropRdUnit (s : State) (rid unit : Nat) : State :=
  { s with reads := s.reads.filter fun q => !(q.rid == rid && q.unit == unit) }

/-- A fresh free value (log entry 5). -/
def freeVal (s : State) : Nat := Config.freeValue s.free
def useFree (s : State) : State := { s with free := s.free + 1 }

/-- A draw from the DRBG (R393, log entry 2). -/
def draw (s : State) : Nat := Config.drbg s.free
def useDraw (s : State) : State := { s with free := s.free + 1, ciph.drbgUsed := s.ciph.drbgUsed + 1 }
/-- Several draws one after the other. -/
def useDraws (s : State) (k : Nat) : State := { s with free := s.free + k, ciph.drbgUsed := s.ciph.drbgUsed + k }

/-- Apply an operation for each number of a list. -/
def forEach {α : Type} (l : List α) (f : State → α → State) (s : State) : State := l.foldl f s

/-- The device accepts commands (R412, R545): it is in service, and neither a hold-up, a pre-reset flush
nor an orderly shutdown has stopped intake (R258, R286). -/
def inService (s : State) : Bool := s.rst.life == .service && s.power.hold == .running && s.power.shutdown == 0

/-- The hold-up sequence or the pre-reset flush runs (R258, R534). -/
def holding (s : State) : Bool := s.power.hold == .holdup || s.power.hold == .flush || s.power.hold == .written

/-- Insert into a list with no repeats. -/
def addTo (x : Nat) (l : List Nat) : List Nat := if l.contains x then l else l ++ [x]

/-- The rotating choice of R40: the smallest member at or above the pointer, else the smallest. -/
def rotPick (ptr : Nat) (l : List Nat) : Option Nat :=
  match (l.filter fun x => ptr ≤ x).min? with
  | some x => some x
  | none => l.min?

/-- The host link trains (R1): up to the highest rate allowed now (OD 0x1000:04). -/
def hostTrains (s : State) : State :=
  { s with host.linkNo := s.host.linkNo + 1, host.linkMax := od s 0x1000 0x04 }

end Sys2Proof.Machine
end

