-- ==== Sys2Proof/Machine/PathCode.lean ====
section
/-! DEFINITION. The path code: a Reed-Solomon code over GF(2^8) with 64 data and 8 check bytes (R498). -/

namespace Sys2Proof.Machine

/-- Multiplication by α = 0x02 in GF(2^8) with the field polynomial 0x11D. -/
def gfDouble (x : Byte) : Byte := if x.msb then (x <<< 1) ^^^ 0x1D#8 else x <<< 1

/-- Product of two field elements: the sum of x·α^i over the bits i of y. -/
def gfMul (x y : Byte) : Byte :=
  (List.range 8).foldr (fun i acc => (if y.getLsbD i then x else 0) ^^^ gfDouble acc) 0

/-- α to a power. -/
def gfAlpha : Nat → Byte
  | 0 => 1
  | n + 1 => gfDouble (gfAlpha n)

/-- Multiply a polynomial, highest coefficient first, by (x − r). -/
def polyRoot (r : Byte) (p : List Byte) : List Byte :=
  List.zipWith (· ^^^ ·) (p ++ [0]) (0 :: p.map (gfMul r))

/-- The generator polynomial (x − α^0)…(x − α^7), highest coefficient first. -/
def generator : List Byte := (List.range 8).foldl (fun p i => polyRoot (gfAlpha i) p) [1]

/-- One step of the division: the register of eight remainders takes the next data byte. -/
def checkStep (reg : List Byte) (d : Byte) : List Byte :=
  let f := reg.headD 0 ^^^ d
  List.zipWith (· ^^^ ·) (reg.drop 1 ++ [0]) ((generator.drop 1).map (gfMul f))

/-- The check bytes C0 to C7 of 64 data bytes: the remainder of D(x)·x^8 by the generator. -/
def checkBytes (data : List Byte) : List Byte := data.foldl checkStep (List.replicate 8 0)

end Sys2Proof.Machine
end

