-- ==== Sys2Proof/Machine/Operands.lean ====
section
/-! DEFINITION. Addresses and sizes: prism map, staging rings, block rows, namespace extents, contract-group terms. -/

namespace Sys2Proof.Machine

/-! Prism groups and the prism map (R122 to R126). -/

def groupOf (z : Nat) : Nat := z % 128
def rowIndexOf (z : Nat) : Nat := z / 128
/-- Block row of a zone (R123). -/
def rowOf (z : Nat) : Nat := 8 + z / 128

/-- Channel of facet f of group g (R122). -/
def facetChan (g f : Nat) : Nat := 16 * (g % 4) + f
/-- Die (channel × 32 + die index) of facet f of group g (R122, R454). -/
def facetDie (g f : Nat) : Nat := facetChan g f * 32 + g / 4
/-- Group and facet of a die. -/
def dieGroup (d : Nat) : Nat := (d % 32) * 4 + (d / 32) / 16
def dieFacet (d : Nat) : Nat := (d / 32) % 16
def dieChan (d : Nat) : Nat := d / 32
/-- The sixteen dies of a group in facet order. -/
def groupDies (g : Nat) : List Nat := (List.range 16).map (facetDie g)

/-- A codeword's place. -/
structure Loc where
  group : Nat
  facet : Nat
  chan : Nat
  row : Nat
  page : Nat
  plane : Nat
  cw : Nat
  /-- first parity facet, and the number of parity facets of the stripe -/
  p0 : Nat
  parity : Nat
deriving DecidableEq, Repr

def Loc.die (l : Loc) : Nat := facetDie l.group l.facet

/-- Stripe of offset o with dn data facets. -/
def stripeOf (dn o : Nat) : Nat := o / dn
/-- Fold unit of offset o. -/
def foldOf (dn o : Nat) : Nat := o / dn / 64

/-- The prism map (R125) of a zone with row index k and group g, pn parity facets. -/
def prismAt (g k pn o : Nat) : Loc :=
  let dn := 16 - pn
  let s := o / dn
  let j := o % dn
  let p0 := (s + k + g) % 16
  let f := (p0 + pn + j) % 16
  { group := g, facet := f, chan := facetChan g f, row := 8 + k, page := 4 * (s / 64) + (s / 16) % 4,
    plane := (s / 4) % 4, cw := s % 4, p0 := p0, parity := pn }

def prism (z pn o : Nat) : Loc := prismAt (groupOf z) (rowIndexOf z) pn o

/-- The parity facets of stripe s of zone z (R126). -/
def parityFacets (z pn s : Nat) : List Nat :=
  (List.range pn).map fun i => ((s + rowIndexOf z + groupOf z) % 16 + i) % 16

/-! Row reservations (R124, R149). -/

def rowsR (s : State) : Nat := od s 0x3000 0x01
def rowsT (s : State) : Nat := od s 0x2200 0x01
def rowsS (s : State) : Nat := od s 0x2200 0x02
def ringsN (s : State) : Nat := od s 0x2200 0x04
/-- Zone rows per group (R163). -/
def zoneRows (s : State) : Nat := rowsR s - rowsS s - rowsT s - 8
def zoneCount (s : State) : Nat := 128 * zoneRows s

/-! Staging rings (R130 to R135). -/

def ringRows (s : State) : Nat := rowsT s / ringsN s
/-- Cells of a ring row, and of a ring (R131). -/
def cellsPerRow : Nat := 57344
def ringCap (s : State) : Nat := ringRows s * cellsPerRow
/-- Ring active limit L (R133). -/
def ringLimit (s : State) : Nat := if od s 0x2200 0x05 = 0 then ringCap s / 1920 else od s 0x2200 0x05
def ringInst (g r : Nat) : Nat := g * 8 + r

/-- Row within the ring of a counter value. -/
def cellRow (s : State) (c : Nat) : Nat := c % ringCap s / 14 / 4096

/-- The cell with counter value c in ring r of group g (R135). -/
def ringLoc (s : State) (inst c : Nat) : Loc :=
  let g := inst / 8
  let t := c % ringCap s / 14
  let j := c % ringCap s % 14
  let x := t / 4096
  let u := t % 4096
  let p0 := (t + g) % 16
  let f := (p0 + 2 + j) % 16
  { group := g, facet := f, chan := facetChan g f, row := rowsR s - rowsT s + (inst % 8) * ringRows s + x,
    page := u / 16, plane := (u / 4) % 4, cw := u % 4, p0 := p0, parity := 2 }

/-! Namespaces and logical blocks (R47, R48, R127). -/

/-- Logical blocks in a 4 KiB unit. -/
def blocksPerUnit (lbaf : Nat) : Nat := if lbaf ≤ 2 then 1 else 8
def blockBytes (lbaf : Nat) : Nat := if lbaf ≤ 2 then 4096 else 512
def metaBytes (lbaf : Nat) : Nat := [0, 8, 16, 0, 8].getD lbaf 0
/-- Protection information of a format (R48). -/
def hasPi (lbaf : Nat) : Bool := lbaf == 1 || lbaf == 2 || lbaf == 4

/-- Units of a zone, and zone capacity and zone size in logical blocks (R47). pn is the parity facet count. -/
def capUnits (pn : Nat) : Nat := (16 - pn) * 16384
def zcapOf (pn lbaf : Nat) : Nat := capUnits pn * blocksPerUnit lbaf
def zszeOf (lbaf : Nat) : Nat := 262144 * blocksPerUnit lbaf

/-- Parity facets of a namespace: its parity mode 0 is single (R49). -/
def Ns.pn (n : Ns) : Nat := n.parity + 1
def Ns.bpu (n : Ns) : Nat := blocksPerUnit n.lbaf
def Ns.zcap (n : Ns) : Nat := zcapOf n.pn n.lbaf
def Ns.zsze (n : Ns) : Nat := zszeOf n.lbaf
/-- Size in logical blocks as addressed: zones × zone size, or the conventional size. -/
def Ns.lbas (n : Ns) : Nat := n.size
/-- Row data capacity in 4 KiB units (R160). -/
def Ns.rowUnits (n : Ns) : Nat := capUnits n.pn

/-- Zone of an LBA of a zoned namespace, where this controller holds it. -/
def Ns.zoneOf (n : Ns) (lba : Nat) : Option Nat :=
  if n.idx.isEmpty then n.zones[lba / n.zsze]? else n.zones[n.idx.idxOf (lba / n.zsze)]?
def Ns.zslba (n : Ns) (lba : Nat) : Nat := lba / n.zsze * n.zsze
def Ns.offset (n : Ns) (lba : Nat) : Nat := lba % n.zsze
/-- Start LBA of a controller-wide zone. -/
def Ns.startOf (n : Ns) (z : Nat) : Nat :=
  (if n.idx.isEmpty then n.zones.idxOf z else n.idx.getD (n.zones.idxOf z) 0) * n.zsze
/-- Cascade position that holds the extent of an LBA (R329), none where no extents are set. -/
def Ns.posOf (n : Ns) (lba : Nat) : Option Nat :=
  (n.extents.find? fun e => decide (e.1 ≤ lba / n.zsze) && decide (lba / n.zsze < e.1 + e.2.1)).map (·.2.2)

/-- The namespace that holds a zone. -/
def nsOfZone (s : State) (z : Nat) : Option Ns := s.nss.find? fun n => n.zoned && n.zones.contains z

def zonePn (s : State) (z : Nat) : Nat := match nsOfZone s z with
  | some n => n.pn
  | none => 1

/-- The filled page sets of a pool row: its programmed fold units (R227). -/
def poolSets (s : State) (z : Nat) : Nat :=
  match s.nss.find? fun n => n.poolRows.contains z with
  | some n => kvGet 0 z n.fill / (64 * (16 - n.pn))
  | none => 0
/-- The absent units of a pool row on a facet (R239). -/
def absentOn (s : State) (z f : Nat) : List Nat :=
  match s.nss.find? fun n => n.poolRows.contains z with
  | some n => (zone s z).absent.filter fun o => (prism z n.pn o).facet == f
  | none => []
/-- Zone rows that no namespace and no pool holds (OD 0x2200:08). -/
def rowUsed (s : State) (z : Nat) : Bool := s.nss.any fun n => n.zones.contains z || n.poolRows.contains z
def rowsUsed (s : State) : Nat := s.nss.foldl (fun k n => k + n.zones.length + n.poolRows.length) 0

/-- Active and open states (R60). -/
def ZState.isOpen : ZState → Bool
  | .implOpen | .explOpen => true
  | _ => false
def ZState.active : ZState → Bool
  | .implOpen | .explOpen | .closed => true
  | _ => false

/-- Zones of a list in a state. -/
def countZones (s : State) (l : List Nat) (p : ZState → Bool) : Nat := (l.filter fun z => p (zone s z).st).length

/-! Die facts (R118 to R121, R232). -/

/-- Spare blocks of a die at manufacture: the spare band and the surplus above R (R121, R163). -/
def stock (s : State) (d : Nat) : Nat := rowsS s + (die s d).good - rowsR s

/-- Unused spare blocks of a die (R232, OD 0x3001:03). -/
def spares (s : State) (d : Nat) : Nat := stock s d + (die s d).returned.length - (die s d).taken.length

/-- The (n + 1)-th good block of a die in ascending physical number (R121). -/
def goodBlock (dd : Die) (n : Nat) : Nat := dd.bad.foldl (fun n r => if r.1 ≤ n then n + r.2 else n) n

/-- Good blocks of a die below block b (R121). -/
def goodBelow (dd : Die) (b : Nat) : Nat := dd.bad.foldl (fun n r => if r.1 < b then n - Nat.min r.2 (b - r.1) else n) b

/-- Spare-band rows of a die that name no block: one for each good block missing from R (R121). -/
def bandGap (s : State) (d : Nat) : Nat := rowsR s - (die s d).good

/-- The block that a row names at manufacture (R121): good blocks in ascending order, the highest rows of the spare band
left out where blocks are missing. -/
def stockBlock (s : State) (d row : Nat) : Nat :=
  goodBlock (die s d) (if rowsR s - rowsT s ≤ row then row - bandGap s d else row)

/-- Physical block of a row on a die (R121): the row table entry. -/
def rowBlock (s : State) (d row : Nat) : Nat := kvGet (stockBlock s d row) row (die s d).rowMap

/-- The row that names a block. -/
def blockRow (s : State) (d block : Nat) : Nat :=
  match (die s d).rowMap.find? fun e => e.2 == block with
  | some e => e.1
  | none =>
    let n := goodBelow (die s d) block
    if rowsR s - rowsT s ≤ n + bandGap s d then n + bandGap s d else n

/-- The block that a row names on a die is retired and no spare replaced it (R237). -/
def deadBlock (s : State) (d row : Nat) : Bool := (die s d).retired.contains (rowBlock s d row)

/-- A die is a hole of its group: out of service or on probation (R174), or on a channel that is (R199). -/
def isHole (s : State) (d : Nat) : Bool :=
  (die s d).service != 0 || (die s d).phase != 4 || (chan s (dieChan d)).state != 0

/-- Holes h of a group (R174). -/
def holes (s : State) (g : Nat) : Nat := ((groupDies g).filter (isHole s)).length

/-- Slot length in force (R169) and the declared header of a die's channel. -/
def hdrOf (s : State) (d : Nat) : ScriptHdr := (chan s (dieChan d)).hdr

/-- Erase reserve (R192). -/
def eraseReserve (s : State) (d : Nat) : Nat := ceilDiv (hdrOf s d).ters s.sched.slotUs + 1

/-- The erase has fallen to its reserve (R192). -/
def atReserve (s : State) (d : Nat) : Bool :=
  (hdrOf s d).suspends - (die s d).suspends ≤ eraseReserve s d

/-- A die is closed (R167, R192). -/
def isClosed (s : State) (d : Nat) : Bool :=
  match (die s d).st with
  | .programming | .programInSuspend => true
  | .erasing | .suspending | .resuming => atReserve s d
  | _ => false

def closedCount (s : State) (g : Nat) : Nat := ((groupDies g).filter (isClosed s)).length

/-- Limit on closed dies in a group, none where no limit applies (R172, R173, R175, R199). -/
def closedLimit (s : State) (g : Nat) : Option Nat :=
  let gr := grp s g
  let eff := gr.d - holes s g
  match gr.state with
  | 1 => some gr.d
  | 2 => some eff
  | 3 => if holding s then none else some (if 1 ≤ eff then eff else gr.d)
  | _ => none

/-- A group is a contract group (R173). -/
def isContract (s : State) (g : Nat) : Bool := od s 0x3110 0x01 g == 1

/-! The latency bounds and the contract utilisation (R185 to R187). -/

/-- t_f and t_b in ns by performance level (R185). -/
def tFront (pl : Nat) : Nat := [1600, 1700, 1900, 2300, 3300, 5700].getD pl 5700
def tBack (pl : Nat) : Nat := [2140, 2300, 2600, 3100, 4400, 7700].getD pl 7700

/-- s in µs: tR plus the transfer of one codeword, at the slowest of the group's channels. -/
def readTime (s : State) (g : Nat) : Rat :=
  (List.range 16).foldl (fun (m : Rat) f =>
    let c := chan s (facetChan g f)
    let t : Rat := (c.hdr.trQlc : Rat) + (4096 + c.hdr.parityBytes : Nat) / (c.rateNow : Rat)
    if m < t then t else m) 0

/-- Largest declared suspend latency of the group. -/
def suspLatency (s : State) (g : Nat) : Nat :=
  (List.range 16).foldl (fun m f => Nat.max m (chan s (facetChan g f)).hdr.suspUs) 0

/-- B1 (w the contract budget) or B2 (w the over-budget limit) in µs (R185). -/
def latencyBound (s : State) (g w : Nat) : Rat :=
  let pl := od s 0x8000 0x03
  (tFront pl + tBack pl : Nat) / (1000 : Rat) + (w : Rat) + (suspLatency s g : Rat) + readTime s g

/-- Share of a lens's zones that lie in group g. -/
def lensShare (s : State) (l g : Nat) : Rat :=
  let zs := (s.nss.filter fun n => (fnc s l).attached.contains n.nsid).flatMap (·.zones)
  if zs.isEmpty then 0 else ((zs.filter fun z => z % 128 == g).length : Rat) / (zs.length : Rat)

/-- The lenses of the contract class. -/
def contractLenses (s : State) : List Nat :=
  s.dict.od.filterMap fun e =>
    if e.1 / 2 ^ 16 = 0x621002 ∧ e.2 = 0 then some (e.1 % 2 ^ 16) else none

/-- Λ_g of R186 in 4 KiB reads per second. -/
def lambdaG (s : State) (g : Nat) : Rat :=
  (contractLenses s).foldl (fun (a : Rat) l => a + (od s 0x6200 0x01 l : Rat) * lensShare s l g) 0

/-- ρ_g in thousandths at dark limit d (R186). -/
def rhoG (s : State) (g d : Nat) : Rat :=
  let m : Nat := if d = 1 then 15 else 14
  lambdaG s g * readTime s g * ((16 + d * (m - 1) : Nat) : Rat) / 16 / ((16 - d : Nat) : Rat) / 1000
    + (od s 0x3100 0x06 : Rat)

/-- The job writes single-parity data into a zone or pool row (R174). -/
def jobSingle (s : State) : ProgJob → Bool
  | .fold z _ | .copy z _ => s.nss.any fun n => n.zoned && n.zones.contains z && n.pn == 1
  | .pool nsid _ => s.nss.any fun n => n.nsid == nsid && n.pn == 1
  | _ => false

/-- A group holds single-parity data, from the start of the first program of it (R174). -/
def singleData (s : State) (g : Nat) : Bool :=
  (s.dies.any fun e => dieGroup e.1 == g && e.2.job.any (jobSingle s)) ||
  s.nss.any fun n => n.pn == 1 &&
    ((n.zones.any fun z => groupOf z == g && (zone s z).folds.any fun f => !f.2.done.isEmpty) ||
     (n.poolRows.any fun z => groupOf z == g && kvGet 0 z n.fill != 0))

/-- The dark limit after a frame boundary (R174). -/
def darkLimit (s : State) (g : Nat) : Nat :=
  let gr := grp s g
  if singleData s g then 1
  else if gr.d = 1 ∧ (od s 0x3100 0x07 : Rat) < rhoG s g 2 then 1 else 2

/-- Dark limit of a group: the one in force, and for a group under no contract the one it would join with (R174). -/
def dOf (s : State) (g : Nat) : Nat := if (grp s g).state = 0 then (if singleData s g then 1 else 2) else (grp s g).d

/-- The tests of R187 for a contract group. -/
def groupTests (s : State) (g : Nat) : Bool :=
  latencyBound s g (od s 0x3100 0x03) ≤ 200 && latencyBound s g (od s 0x3100 0x04) ≤ 400 &&
  rhoG s g (dOf s g) ≤ (od s 0x3100 0x07 : Rat)

/-- Contract groups that a lens's namespaces use, by their zones or pool rows. -/
def lensGroups (s : State) (l : Nat) : List Nat :=
  let zs := (s.nss.filter fun n => (fnc s l).attached.contains n.nsid).flatMap fun n => n.zones ++ n.poolRows
  (List.range 128).filter fun g => isContract s g && zs.any fun z => z % 128 == g

/-- A lens passes the admission tests of R353. -/
def lensContractOk (s : State) (l : Nat) : Bool :=
  0 < od s 0x6200 0x01 l && od s 0x6200 0x02 l * 1000 ≤ od s 0x6200 0x01 l &&
  (lensGroups s l).all (groupTests s)

/-! Hold-up energy (R262 to R264). -/

/-- Flash channels in service. -/
def channelsUp (s : State) : Nat := ((List.range 64).filter fun c => (chan s c).state == 0).length

/-- E_req in mJ for a window of w MiB, rounded up (R262). -/
def energyReq (s : State) (w : Nat) : Nat :=
  let p := od s 0x8400 0x03
  let eta := od s 0x8400 0x04
  let c := channelsUp s
  -- time in ns: 4 ms plus w MiB at c GB/s
  if c = 0 then 2 ^ 32 - 1
  else ceilDiv (p * (4000000 * c + w * 1048576) * 1000) (c * eta * 10 ^ 9)

/-- Largest window, a multiple of 64 MiB, that the store carries (R264). -/
def largestWindow (s : State) : Nat :=
  ((List.range 65).map (· * 64)).foldl (fun m w => if energyReq s w ≤ od s 0x8400 0x02 then w else m) 0

/-! The placement table (R153 to R155). -/

/-- CRC over the bits of a little-endian value in ascending order (reflected form). -/
def crcBits (poly : Nat) : Nat → Nat → Nat → Nat
  | 0, _, crc => crc
  | n + 1, v, crc =>
    let b := (crc + v) % 2
    crcBits poly n (v / 2) (if b = 1 then Nat.xor (crc / 2) poly else crc / 2)

/-- CRC-32 with the IEEE 802.3 polynomial over n bytes (R153). -/
def crc32 (n v : Nat) : Nat := Nat.xor (crcBits 0xEDB88320 (8 * n) v 0xFFFFFFFF) 0xFFFFFFFF
/-- CRC-32C over n bytes. -/
def crc32c (n v : Nat) : Nat := Nat.xor (crcBits 0x82F63B78 (8 * n) v 0xFFFFFFFF) 0xFFFFFFFF
/-- The 64-bit NVM Express CRC over values of n bytes each, in order (R96). -/
def crc64 (n : Nat) (l : List Nat) : Nat :=
  Nat.xor (l.foldl (fun crc v => crcBits 0x9A6C9329AC4BC9B5 (8 * n) v crc) 0xFFFFFFFFFFFFFFFF) 0xFFFFFFFFFFFFFFFF

/-- Class entry c of a table. -/
def classEntry (t c : Nat) : Nat := bytesAt (32 + 64 * c) 64 t
def classGroups (e : Nat) : Nat := bytesAt 0 16 e
def classOrder (e : Nat) : Nat := bytesAt 16 1 e
def classFold (e : Nat) : Nat := bytesAt 17 1 e
def classFlags (e : Nat) : Nat := bytesAt 18 1 e

/-- The default classes (R155). -/
def defaultTable : Nat :=
  let entry (order fold flags : Nat) : Nat := 2 ^ 128 - 1 + order * 2 ^ 128 + fold * 2 ^ 136 + flags * 2 ^ 144
  let es := [entry 0 0 0, entry 0 0 1, entry 1 1 0, entry 0 2 0, entry 0 0 0, entry 0 0 0, entry 0 0 0, entry 0 0 0]
  let body := es.foldr (fun e acc => e + acc * 2 ^ 512) 0
  let v := 0x42544C50 + 1 * 2 ^ 32 + 8 * 2 ^ 48 + body * 2 ^ 256
  v + crc32 528 (v >>> 128) * 2 ^ 96

/-- The table in use: 0 stands for the default classes. -/
def ptable (s : State) : Nat := if od s 0x2210 0x01 = 0 then defaultTable else od s 0x2210 0x01

/-- A placement table is well formed (R153, R154, R159). -/
def ptableOk (t : Nat) : Bool :=
  bytesAt 0 4 t == 0x42544C50 && bytesAt 4 2 t == 1 && bytesAt 6 2 t == 8 &&
  bytesAt 12 4 t == crc32 528 (t >>> 128) && bytesAt 16 16 t == 0 &&
  (List.range 8).all fun c =>
    let e := classEntry t c
    classGroups e != 0 && classOrder e ≤ 1 && classFold e ≤ 2 && classFlags e ≤ 1 && bytesAt 19 45 e == 0

end Sys2Proof.Machine
end

