-- ==== Sys2Proof/Machine/Protection.lean ====
section
/-! DEFINITION. Extended data LBAs, protection information and the data check (R14, R48, R73, R74, R96, R127), and the
64-byte ledger slots (R6, R94 to R98). -/

namespace Sys2Proof.Machine

/-! A block as the host sees it is one number of its data bytes, then its metadata bytes, little-endian (R6, R48). -/

/-- Bytes of a logical block as an extended data LBA (R48). -/
def extBytes (lbaf : Nat) : Nat := blockBytes lbaf + metaBytes lbaf

/-- What the metadata of a block reads as where nothing is stored: every byte 0xFF with protection information (R74),
zero without it. -/
def Ns.metaFill (n : Ns) : Nat := if n.pit = 0 then 0 else (2 ^ (8 * metaBytes n.lbaf) - 1) * 2 ^ (8 * blockBytes n.lbaf)

/-- Between an extended data LBA and its stored form: the bits that a block with nothing stored shows set are
complemented, so that the stored form of such a block is 0 (R74). -/
def Ns.flip (n : Ns) (v : Nat) : Nat := Nat.xor v n.metaFill

/-- A block cut to its bytes. -/
def Ns.cut (n : Ns) (v : Nat) : Nat := v % 2 ^ (8 * extBytes n.lbaf)

/-- An extended data LBA of its data and its metadata (R48). -/
def Ns.extend (n : Ns) (data metadata : Nat) : Nat :=
  data % 2 ^ (8 * blockBytes n.lbaf) + metadata * 2 ^ (8 * blockBytes n.lbaf)

/-- The first blocks of a transfer as extended data LBAs (R48). -/
def Ns.extendAll (n : Ns) (count : Nat) (data metadata : List Nat) : List Nat :=
  (List.range count).map fun i => n.cut (n.extend (data.getD i 0) (metadata.getD i 0))

/-- The stored form of blocks that the host sends. -/
def Ns.toStored (n : Ns) (l : List Nat) : List Nat := l.map fun v => n.flip (n.cut v)

/-- Bytes of the codeword of one 4 KiB unit before its LDPC parity (R127). -/
def unitBytes (lbaf : Nat) : Nat := blocksPerUnit lbaf * extBytes lbaf

/-- Data check over stored blocks (R96): the CRC-64 of their data bytes in LBA order (log entry 99). -/
def dataCheck (lbaf : Nat) (data : List Nat) : Nat := crc64 (blockBytes lbaf) data

/-! Protection information, laid out as NVM Express gives it (log entry 99). -/

/-- The n bytes from byte off of a value, as a big-endian number. -/
def beAt (off n v : Nat) : Nat := (List.range n).foldl (fun a i => a * 256 + bytesAt (off + i) 1 v) 0

/-- One bit of the T10 CRC-16 register. -/
def crc16Bit (crc : Nat) : Nat := if crc.testBit 15 then Nat.xor (crc * 2 % 65536) 0x8BB7 else crc * 2 % 65536

/-- The T10 CRC-16 over n bytes: the 16-bit guard (R48). -/
def crc16 (n v : Nat) : Nat :=
  (List.range n).foldl (fun crc i => (List.range 8).foldl (fun c _ => crc16Bit c) (Nat.xor crc (bytesAt i 1 v * 256))) 0

/-- The fields of protection information. -/
structure Pi where
  guard : Nat
  app : Nat
  ref : Nat
deriving DecidableEq, Repr

/-- Bits of the reference tag. -/
def refBits (lbaf : Nat) : Nat := if lbaf = 2 then 48 else 32

/-- Protection information of an extended data LBA. -/
def piOf (lbaf v : Nat) : Pi :=
  let m := bytesAt (blockBytes lbaf) (metaBytes lbaf) v
  if lbaf = 2 then { guard := beAt 0 8 m, app := beAt 8 2 m, ref := beAt 10 6 m }
  else { guard := beAt 0 2 m, app := beAt 2 2 m, ref := beAt 4 4 m }

/-- The guard of a block's data (R48): 16 bits, or 64. -/
def guardOf (lbaf v : Nat) : Nat := if lbaf = 2 then crc64 4096 [v] else crc16 (blockBytes lbaf) v

/-- A block that no check applies to: the escape of its type, which the block of R74 shows too. -/
def piSkipped (lbaf pit : Nat) (p : Pi) : Bool :=
  p.app == 0xFFFF && (pit != 3 || p.ref == 2 ^ refBits lbaf - 1)

/-- The field that differs is named by its status (R14): guard 0x82, application tag 0x83, reference tag 0x84, of
type 2h. -/
inductive PiField where
  | guard | app | ref
deriving DecidableEq, Repr

/-- The check of block i of a command (R14, R73): none where it passes. Type 3 has no reference tag. -/
def piBlock (lbaf pit : Nat) (c : IoCmd) (i v : Nat) : Option PiField :=
  let p := piOf lbaf v
  if piSkipped lbaf pit p then none
  else if p.guard ≠ guardOf lbaf v then some .guard
  else if Nat.land p.app c.lbatm ≠ Nat.land c.lbat c.lbatm then some .app
  else if pit ≠ 3 ∧ p.ref ≠ (c.ilbrt + i) % 2 ^ refBits lbaf then some .ref
  else none

/-- The first block in LBA order that fails, for a namespace with protection information (R14). -/
def piFails (n : Ns) (c : IoCmd) (l : List Nat) : Option PiField :=
  if n.pit = 0 ∨ metaBytes n.lbaf = 0 then none
  else l.zipIdx.findSome? fun (v, i) => piBlock n.lbaf n.pit c i v

/-- A reference tag put in place of a block's own (R73). -/
def withRef (lbaf v ref : Nat) : Nat :=
  let k := refBits lbaf / 8
  let off := blockBytes lbaf + metaBytes lbaf - k
  let old := bytesAt off k v
  let new := (List.range k).foldl (fun a i => a + ref / 256 ^ (k - 1 - i) % 256 * 256 ^ i) 0
  v - old * 256 ^ off + new * 256 ^ off

/-- Blocks as an append stores them: with Protection Information Remap, each reference tag is the low bits of the
assigned LBA (R73). -/
def remapped (n : Ns) (c : IoCmd) (append : Bool) (lba : Nat) (l : List Nat) : List Nat :=
  if append && c.piRemap && n.pit == 1 && metaBytes n.lbaf != 0 then
    l.zipIdx.map fun (v, i) => withRef n.lbaf v ((lba + i) % 2 ^ refBits n.lbaf)
  else l

/-! Ledger slots (R6, R94 to R98): 64 bytes as one little-endian number. -/

/-- The common header of R94. -/
def slotHead (asn epoch typ flags status : Nat) : Nat :=
  atByte 0 8 asn + atByte 8 4 epoch + atByte 12 1 typ + atByte 13 1 flags + atByte 14 2 status

/-- Bytes 14 and 15 hold a status whose type stands in bits 10:8 (R94). -/
def recImage (r : LedgerRec) : Nat :=
  slotHead r.asn r.epoch r.rtype r.flags r.status +
  match r.rtype with
  | 4 => atByte 16 48 r.body
  | 5 => atByte 16 2 r.body
  | _ => atByte 16 4 r.zone + atByte 20 4 r.nsid + atByte 24 8 r.lba + atByte 32 4 r.blocks + atByte 36 2 r.fn +
    atByte 38 2 r.queue + atByte 40 2 r.cid + atByte 42 1 r.stateAfter + atByte 43 1 r.opcode + atByte 44 1 r.action +
    atByte 45 1 r.generation + atByte 46 1 r.cascade + atByte 48 8 r.wpAfter + atByte 56 8 r.dataCheck

/-- A remap record (R94, R97): type 0x03, twin-local, status 0. -/
def remapImage (r : Remap) : Nat :=
  slotHead r.asn r.epoch 3 1 0 + atByte 16 4 r.zone + atByte 20 1 r.facet + atByte 21 1 r.cause + atByte 22 2 r.localSeq +
  atByte 24 2 r.channel + atByte 26 1 r.die + atByte 28 4 r.oldBlock + atByte 32 4 r.newBlock + atByte 36 8 r.index

end Sys2Proof.Machine
end

