-- ==== Sys2Proof/Machine/Keys.lean ====
section
/-! DEFINITION. Key derivation (R376 to R382, R396), and what stands on the media: the ciphertext of a unit, its codeword
and the parity of its stripe (R112, R126, R127, R146, R216, R379, R387). The ciphers themselves and the LDPC code of a
die script are opaque constants of Config (log entry 3). -/

namespace Sys2Proof.Machine

/-! Derivation (R380). -/

/-- The purposes of R380. -/
inductive Purpose where
  | namespaceKey (nsid gen salt : Nat)
  | systemKey | recorderKey | wrappingKey | identitySeed | selfTestKey
deriving DecidableEq, Repr

def Purpose.code : Purpose → Nat
  | .namespaceKey _ _ _ => 0x01
  | .systemKey => 0x02 | .recorderKey => 0x03 | .wrappingKey => 0x04 | .identitySeed => 0x05 | .selfTestKey => 0x06

/-- Output bits of a purpose. -/
def Purpose.length : Purpose → Nat
  | .wrappingKey => 256
  | _ => 512

/-- The 64-byte input block i of a derivation, as one little-endian number (R380). -/
def deriveBlock (p : Purpose) (i : Nat) : Nat :=
  let own := match p with
    | .namespaceKey nsid gen salt => atByte 10 4 nsid + atByte 14 1 gen + atByte 16 8 salt
    | _ => 0
  atByte 0 4 i + atByte 4 4 0x444B5A42 + atByte 8 1 p.code + own + atByte 60 4 p.length

/-- K_I: the data-key root for a namespace key, and the device secret for every other purpose. -/
def derivationKey (root : Nat) : Purpose → Nat
  | .namespaceKey _ _ _ => root
  | _ => Config.deviceSecret

/-- K(1) ‖ K(2) ‖ … : the first output block is the highest. -/
def derive (root : Nat) (p : Purpose) : Nat :=
  (List.range (p.length / 128)).foldl
    (fun k i => k * 2 ^ 128 + Config.cmac (derivationKey root p) (deriveBlock p (i + 1)) % 2 ^ 128) 0

/-- An XTS key: the first 256 output bits are the data key, the rest the tweak key (R381). -/
structure XtsKey where
  data : Nat
  tweak : Nat
deriving DecidableEq, Repr

def xtsKey (root : Nat) (p : Purpose) : XtsKey := { data := derive root p / 2 ^ 256, tweak := derive root p % 2 ^ 256 }

/-- The two halves of a namespace key are equal: its salt is drawn again (R381). -/
def halvesEqual (root nsid gen salt : Nat) : Bool :=
  let k := xtsKey root (.namespaceKey nsid gen salt)
  k.data == k.tweak

/-- The number of the first draw, from one on, whose salt gives unequal halves (R381, log entry 118). -/
def goodDraw (root nsid gen : Nat) : (fuel : Nat) → (first : Nat) → Nat
  | 0, d => d
  | fuel + 1, d => if halvesEqual root nsid gen (Config.drbg d % 2 ^ 64) then goodDraw root nsid gen fuel (d + 1) else d

/-- Draws that a new salt of a namespace at a generation takes. -/
def saltDraws (s : State) (root nsid gen : Nat) : Nat := goodDraw root nsid gen 256 s.free - s.free + 1

/-- The new salt: the last of those draws. -/
def drawSalt (s : State) (root nsid gen : Nat) : Nat := Config.drbg (goodDraw root nsid gen 256 s.free) % 2 ^ 64

/-- The order of the P-384 group. -/
def p384Order : Nat :=
  0xFFFFFFFFFFFFFFFFFFFFFFFFFFFFFFFFFFFFFFFFFFFFFFFFC7634D81F4372DDF581A0DB248B0A77AECEC196ACCC52973

/-- The identity private scalar (R382): from the first 448 output bits of the identity seed. -/
def identityScalar : Nat := derive 0 .identitySeed / 2 ^ 64 % (p384Order - 1) + 1

/-- The identity public key (R382, OD 0x0000:05). -/
def identityKey : Nat := Config.ecPublic identityScalar

/-! Link keys (R303). -/

/-- HMAC with SHA-384 over byte strings as little-endian numbers, for keys of at most 128 bytes. -/
def hmac384 (key bytes msg : Nat) : Nat :=
  let pad (b : Nat) : Nat := Nat.xor key (pack 8 (List.replicate 128 b))
  Config.sha384 176 (pad 0x5C + Config.sha384 (128 + bytes) (pad 0x36 + msg * 2 ^ 1024) * 2 ^ 1024)

/-- HKDF-Expand with SHA-384 to 256 bits: the first output block covers them. -/
def hkdfExpand (secret : Nat) (label : String) : Nat :=
  let l := label.toList.map Char.toNat
  hmac384 secret (l.length + 1) (pack 8 (l ++ [1])) % 2 ^ 256

/-- The Mirror link key of one direction, named by the SPDM role of the sending end. -/
def linkKey (s : State) (requester : Bool) : Nat :=
  hkdfExpand s.pair.secret (if requester then "blx mirror tx requester" else "blx mirror tx responder")

/-- This end's sending key: the lower serial is the requester (R302). -/
def sendKey (s : State) : Nat := linkKey s (decide (Config.serial < od s 0x5000 0x04))

/-- The GCM nonce of a frame: session identifier, then frame sequence. -/
def frameNonce (s : State) (seq : Nat) : Nat := atByte 0 4 s.pair.sessionId + atByte 4 8 seq

/-- The 16-byte header of a frame, which GCM authenticates (R298): flags bit 0 retransmission, bit 1 last frame of a record's
data. -/
def frameHeader (f : Frame) (retransmission last : Bool) (length : Nat) : Nat :=
  atByte 0 1 f.kind + atByte 1 1 ((if retransmission then 1 else 0) + if last then 2 else 0) + atByte 2 2 length +
    atByte 4 4 f.epoch + atByte 8 8 f.seq

/-! Ciphertext of host data (R387). -/

/-- The salt under which a generation of a namespace's keys stands: a rotation that took a new salt keeps the old one for
the zones it has not reached (R398). -/
def Ns.saltOf (n : Ns) (gen : Nat) : Nat :=
  match n.rot with
  | some r => if gen = r.oldGen then r.oldSalt else n.salt
  | none => n.salt

/-- The XTS data unit of a 4 KiB unit: its blocks' data bytes, then their metadata bytes (R127). -/
def dataUnit (lbaf : Nat) (blocks : List Nat) : Nat :=
  let d := blockBytes lbaf
  let m := metaBytes lbaf
  pack (8 * d) blocks + pack (8 * m) (blocks.map fun v => v / 2 ^ (8 * d)) * 2 ^ (8 * 4096)

/-- Ciphertext of a unit whose first logical block is lba. -/
def encryptUnit (n : Ns) (root gen lba : Nat) (blocks : List Nat) : Nat :=
  let k := xtsKey root (.namespaceKey n.nsid gen (n.saltOf gen))
  Config.xts k.data k.tweak lba (unitBytes n.lbaf) (dataUnit n.lbaf blocks)

/-- What the media hold of unit u of a zone before LDPC: ciphertext, with zeroes for the blocks at and after a finish
point (R146); the units beyond it are zero bytes that do not pass the cipher (R387). -/
def zoneUnitData (s : State) (n : Ns) (z u : Nat) : Nat :=
  let v := zone s z
  let off := u * n.bpu
  let end_ := v.finish.getD (2 ^ 64)
  if end_ ≤ off then 0
  else
    let block (i : Nat) : Nat := if end_ ≤ off + i then 0 else n.flip (kvGet 0 (off + i) v.blocks)
    encryptUnit n (s.ciph.stored.getD 0) v.keyGen (n.startOf z + off) ((List.range n.bpu).map block)

/-- What the media hold of a conventional unit before LDPC. -/
def convUnitData (s : State) (n : Ns) (u : Nat) : Nat :=
  encryptUnit n (s.ciph.stored.getD 0) (kvGet {} u n.units).keyGen (u * n.bpu)
    ((List.range n.bpu).map fun i => n.flip (kvGet 0 (u * n.bpu + i) n.blocks))

/-! Stripe parity (R126, R216). -/

/-- A codeword's data multiplied bytewise by a field element. -/
def gfScale (a : Byte) (bytes v : Nat) : Nat :=
  pack 8 ((List.range bytes).map fun i => (gfMul a (BitVec.ofNat 8 (bytesAt i 1 v))).toNat)

/-- P: the bytewise exclusive or of the stripe's data codewords. -/
def parityP (d : List Nat) : Nat := d.foldl Nat.xor 0

/-- Q: the sum of α^j·D_j over the data slots j. -/
def parityQ (bytes : Nat) (d : List Nat) : Nat :=
  d.zipIdx.foldl (fun q (v, j) => Nat.xor q (gfScale (gfAlpha j) bytes v)) 0

/-- A codeword as it stands on a die: its data, then the LDPC parity of the channel's die script (R127). -/
def mediaCodeword (s : State) (ch bytes data : Nat) : Nat :=
  data + Config.ldpc (chan s ch).hdr.digest bytes data * 2 ^ (8 * bytes)

/-- Data codewords of stripe st of a zone, by data slot (R125). -/
def stripeData (s : State) (n : Ns) (z st : Nat) : List Nat :=
  (List.range (16 - n.pn)).map fun j => zoneUnitData s n z (st * (16 - n.pn) + j)

/-- What facet f of a zone holds at stripe st once it is folded (R112, R125, R126): a data unit's codeword or a parity
codeword. -/
def facetCodeword (s : State) (n : Ns) (z f st : Nat) : Nat :=
  let d := stripeData s n z st
  let p0 := (st + rowIndexOf z + groupOf z) % 16
  let slot := (f + 16 - p0) % 16
  let bytes := unitBytes n.lbaf
  mediaCodeword s (facetChan (groupOf z) f) bytes
    (if slot = 0 then parityP d else if slot < n.pn then parityQ bytes d else d.getD (slot - n.pn) 0)

/-! System rows and flush areas (R265, R379). -/

/-- A codeword of the system rows or a flush area: ciphertext under the system key, but for the boot copies of die script
images, which stand as they are (R379). -/
def systemCodeword (script : Bool) (bytes v : Nat) : Nat :=
  let k := xtsKey 0 .systemKey
  if script then v else Config.systemCipher k.data k.tweak bytes v

/-- The durable ledger as the system rows hold it: pages of 64 records (R94, R379). -/
def ledgerStored (s : State) : List Nat :=
  let rs := (s.adm.recs.filter (·.durable)).map fun l => recImage l.r
  (List.range (ceilDiv rs.length 64)).map fun i => systemCodeword false 4096 (pack 512 ((rs.drop (64 * i)).take 64))

/-- The remap section as the system rows hold it. -/
def remapStored (s : State) : List Nat :=
  let rs := (s.adm.remaps.filter (·.durable)).map remapImage
  (List.range (ceilDiv rs.length 64)).map fun i => systemCodeword false 4096 (pack 512 ((rs.drop (64 * i)).take 64))

/-- The data-key root as row 0 holds it (R378): wrapped under the wrapping key, then under the system key. -/
def rootStored (s : State) : Option Nat :=
  s.ciph.stored.map fun r => systemCodeword false 40 (Config.wrapKey (derive 0 .wrappingKey) r)

end Sys2Proof.Machine
end

