-- ==== Sys2Proof/Machine/Views.lean ====
section
/-! DEFINITION. What the dictionary reads: elements that report state held elsewhere, and every other element from
the store. -/

namespace Sys2Proof.Machine

/-- Sealed head: the highest ASN all of whose records up to it are sealed (R99, R100). -/
def sealedHead (s : State) : Nat :=
  match s.adm.recs.find? fun r => !r.sealed with
  | some r => r.r.asn - 1
  | none => s.adm.nextAsn - 1

/-- Cells of a ring that hold data (OD 0x2220:03). -/
def cellsHeld (s : State) (r : Nat) : Nat := (ring s r).cells.length

/-- The dies of OD 0x3000:03. -/
def diesUp (s : State) : Nat := ((List.range 2048).filter fun d => (die s d).service == 0).length

/-- Sum of the cycle counts of a die's blocks in rows lo to hi. -/
def cycleSum (s : State) (d lo hi : Nat) : Nat :=
  (die s d).cycles.foldl (fun a e => let r := blockRow s d e.1; if lo ≤ r ∧ r < hi then a + e.2 else a) 0

/-- Mean cycles in hundredths of a die's zone and pool rows, and of its staging rows (R246). -/
def meanQlc (s : State) (d : Nat) : Nat := 100 * cycleSum s d 8 (8 + zoneRows s) / zoneRows s
def meanSlc (s : State) (d : Nat) : Nat := 100 * cycleSum s d (rowsR s - rowsT s) (rowsR s) / rowsT s
def maxCycles (s : State) (d : Nat) : Nat := (die s d).cycles.foldl (fun m e => Nat.max m e.2) 0

/-- Percentage Used (R247). -/
def percentUsed (s : State) : Nat :=
  let q := s.dies.foldl (fun a e => a + cycleSum s e.1 8 (8 + zoneRows s)) 0
  let t := s.dies.foldl (fun a e => a + cycleSum s e.1 (rowsR s - rowsT s) (rowsR s)) 0
  let pq := 100 * q / (2048 * zoneRows s * 1500)
  let pt := 100 * t / (2048 * rowsT s * 40000)
  Nat.min 255 (Nat.max pq pt)

/-- Available spare of one die in percent (R248). -/
def dieSpare (s : State) (d : Nat) : Nat :=
  let p := od s 0x4010 0x05
  let s0 := 48 + (die s d).good - rowsR s
  Nat.min 100 (100 * (spares s d - p) / (s0 - p))

/-- Available Spare (R248): the smallest over the dies in service; a die with no entry stands as manufactured. -/
def availableSpare (s : State) : Nat :=
  if s.adm.preserve then 0
  else s.dies.foldl (fun m e => if e.2.service = 0 then Nat.min m (dieSpare s e.1) else m)
    (Nat.min 100 (100 * (rowsS s + 4160 - rowsR s - od s 0x4010 0x05) / (48 + 4160 - rowsR s - od s 0x4010 0x05)))

/-- The lead preference and cascade position straps (R574). -/
def casPos (s : State) : Nat := field 2 1 s.rst.straps
def bootSel (s : State) : Nat := field 4 3 s.rst.straps

/-- Zones with a resync mark (OD 0x5020:01). -/
def markedZones (s : State) : List Nat := s.zones.filterMap fun e => if e.2.marked.isSome then some e.1 else none

/-- Mask of cascade positions in service (OD 0x5100:02): the controller's own and its members'. -/
def positionsUp (s : State) : Nat :=
  (List.range 4).foldl (fun m p => if p = casPos s ∨ od s 0x5110 0x01 p = 2 then m + 2 ^ p else m) 0

/-- The lens state code (R345). -/
def LensSt.code : LensSt → Nat
  | .disabled => 0 | .offline => 1 | .probation => 2 | .online => 3 | .error => 4
def Tdisp.code : Tdisp → Nat
  | .unlocked => 0 | .locked => 1 | .run => 2 | .error => 3
def DieSt.code : DieSt → Nat
  | .idle => 0 | .reading => 1 | .programming => 2 | .erasing => 3 | .suspending => 4 | .suspended => 5
  | .readInSuspend => 6 | .programInSuspend => 7 | .resuming => 8 | .out => 9

/-- Commands of a function outstanding (OD 0x6210:06). -/
def outstanding (s : State) (f : Nat) : Nat :=
  (s.host.cmds.filter fun c => c.io.fn == f && c.origin == 0).length +
  (s.host.granted.filter fun g => g.io.fn == f).length

/-- A contract lens is suspended while a contract group of its namespaces is (R356). -/
def contractState (s : State) (l : Nat) : Nat :=
  if od s 0x6210 0x02 l ≠ 0 then 0
  else if (lensGroups s l).any fun g => (grp s g).state == 3 then 2 else 1

/-- Bytes 927:0 of a boot record (R409). -/
def BootRec.body (b : BootRec) : Nat :=
  atByte 0 4 0x43455242 + atByte 4 2 1 + atByte 6 2 b.flags + atByte 8 8 b.sequence + atByte 16 4 b.causes +
  atByte 24 8 b.seconds + atByte 32 20 Config.serial + atByte 52 4 b.secVersion +
  atByte 56 8 Config.firmwareRevision + atByte 64 4 Config.placementRevision + atByte 68 4 b.epoch +
  atByte 72 48 b.previous + atByte 120 48 (Config.sha384 96 identityKey) +
  atByte 168 576 (pack 384 (b.ms.take 12))

/-- The record's 1,024 bytes. -/
def BootRec.value (b : BootRec) : Nat := b.body + atByte 928 96 b.signature

/-- The newest boot record: in retained memory until row 0 holds it (R410). -/
def newestRecord (s : State) : Option BootRec :=
  match s.ciph.fresh with
  | some b => some b
  | none => s.ciph.records.getLast?

/-- Maintenance partitions whose signatures failed at the last logic BIST (R554, R556). -/
def memoryFailed (s : State) : List Nat :=
  if s.rst.memSigs = [] then []
  else (List.range 8).filterMap fun p =>
    if s.rst.memSigs.getD p 0 = Config.goldenMemory (128 + p) then none else some (128 + p)

/-- State of a user page (OD 0x7010:01): 0 empty, 1 loaded, 2 refused. -/
def pageLoaded (s : State) (p : Nat) : Nat :=
  if 521 ≤ p then (if s.ciph.loaded.contains p then 2 else 0)
  else if p = 513 ∨ p = 520 then (if s.pair.session then 1 else 0)
  else if 514 ≤ p ∧ p ≤ 516 then (if (member s (p - 513)).session then 1 else 0)
  else if s.ciph.loaded.contains p then 1 else 0

/-- Free buffers of a tier (R522). -/
def Tier.free (t : Tier) : Nat :=
  t.stack.length + (t.count - t.fresh) - (t.removed.filter fun b => decide (t.fresh ≤ b)).length

/-- The device's reported life (OD 0xA000:06). -/
def Life.code : Life → Nat
  | .service => 1 | .maintenance => 2 | .halt _ => 3 | _ => 0

/-- Rows of a DRAM bank, from the density in Gb (R496's worked bank; log entry 22). -/
def dramRows (s : State) : Nat := 4096 * s.dram.density
/-- Data rows of a DRAM bank (R497). -/
def dramDataRows (s : State) : Nat := 8 * (dramRows s / 9)
/-- Data capacity in bytes (R497). -/
def dramCapacity (s : State) : Nat := 8 * s.dram.ranks * 16 * dramDataRows s * 4096

/-- The value an element reports (R468), for the requester-independent elements. -/
def odView (s : State) (obj elem inst : Nat) : Nat :=
  match obj, elem with
  | 0x0000, 0x01 => Config.serial
  | 0x0000, 0x02 => Config.firmwareRevision
  | 0x0000, 0x03 => Config.placementRevision
  | 0x0000, 0x04 => (s.ciph.slots.getD s.ciph.activeSlot {}).secVersion
  | 0x0000, 0x05 => identityKey
  | 0x0010, 0x01 => match newestRecord s with | some b => b.value | none => 0
  | 0x0010, 0x02 => match newestRecord s with | some b => b.sequence | none => 0
  | 0x0010, 0x03 => match s.ciph.records.head? with | some b => b.sequence | none => 0
  | 0x0010, 0x04 => match s.ciph.records.find? fun b => b.sequence % 1024 == inst with
      | some b => b.value | none => 0
  | 0x0020, 0x01 => s.ciph.ms.getD inst 0
  | 0x1000, 0x01 => if s.host.cfgServed then 1 + Config.hostRate s.host.linkNo % s.host.linkMax else 0
  | 0x1000, 0x02 =>
    if s.host.cfgServed then 2 ^ (Config.hostWidth s.host.linkNo % (if s.host.bifurcated then 4 else 5)) else 0
  | 0x1000, 0x06 => 512
  | 0x1010, 0x01 => if od s 0x5000 0x01 = 0 then Config.controllerId else if Config.serial < od s 0x5000 0x04 then 1 else 2
  | 0x1010, 0x02 => if od s 0x1010 0x02 = 0 then Config.subsystemNqn Config.serial else od s 0x1010 0x02
  | 0x2100, 0x01 => s.adm.nextAsn
  | 0x2100, 0x02 => sealedHead s
  | 0x2100, 0x03 => s.adm.floor
  | 0x2100, 0x08 => s.adm.nextRemap - 1
  | 0x2100, 0x09 => s.adm.remapFloor
  | 0x2200, 0x06 => zoneRows s
  | 0x2200, 0x07 => zoneCount s
  | 0x2200, 0x08 => zoneCount s - rowsUsed s
  | 0x2210, 0x01 => ptable s
  | 0x2210, 0x02 => Config.sha384 544 (ptable s)
  | 0x2220, 0x01 => (ring s inst).c
  | 0x2220, 0x02 => (ring s inst).active
  | 0x2220, 0x03 => cellsHeld s inst
  | 0x3000, 0x03 => diesUp s
  | 0x3001, 0x01 => (die s inst).blocks
  | 0x3001, 0x02 => (die s inst).good
  | 0x3001, 0x03 => spares s inst
  | 0x3001, 0x04 => (die s inst).service
  | 0x3110, 0x02 => dOf s inst
  | 0x3110, 0x03 => holes s inst
  | 0x3110, 0x04 => (grp s inst).state
  | 0x3110, 0x05 => (grp s inst).causes
  | 0x3110, 0x06 => (rhoG s inst (dOf s inst)).floor.toNat
  | 0x3120, 0x01 => (die s inst).st.code
  | 0x3120, 0x02 => (die s inst).suspends
  | 0x3120, 0x03 => Config.freeValue s.free % 2 ^ 32
  | 0x3200, 0x03 => Config.keySlotDigest inst
  | 0x3210, 0x01 => (chan s inst).hdr.digest
  | 0x3210, 0x02 => (chan s inst).hdr.secVersion
  | 0x3210, 0x03 => (chan s inst).hdr.keySlot
  | 0x3210, 0x04 => (chan s inst).state
  | 0x4020, 0x01 => meanQlc s inst
  | 0x4020, 0x02 => maxCycles s inst
  | 0x4020, 0x03 => meanSlc s inst
  | 0x4020, 0x04 => (die s inst).retired.length
  | 0x4020, 0x07 => (die s inst).rewrites.length
  | 0x4020, 0x08 => ((die s inst).rewrites.filter (·.deferred)).length
  | 0x4100, 0x01 => (die s inst).phase
  | 0x4100, 0x03 => ((die s inst).returns.filter fun t => decide (s.health.seconds < t + 86400)).length
  | 0x4100, 0x04 => if (die s inst).phase ≠ 3 then 0 else
      ((s.zones.filter fun e => groupOf e.1 == dieGroup inst && !(die s inst).verified.contains e.1).map fun e =>
        (e.2.folds.filter fun f => f.2.done.contains (dieFacet inst) || f.2.absent.contains (dieFacet inst)).length).sum +
      (((s.nss.flatMap (·.poolRows)).filter fun z =>
        groupOf z == dieGroup inst && !(die s inst).verified.contains z).map (poolSets s)).sum
  | 0x4200, 0x01 => availableSpare s
  | 0x4200, 0x02 => percentUsed s
  | 0x4200, 0x03 => if s.adm.preserve then 1 else 0
  | 0x4200, 0x04 => s.adm.preserveGroup.getD 0xFFFF
  | 0x4200, 0x05 => pack 32 (kvRun 0 0 64 s.health.hist)
  | 0x4200, 0x06 => pack 8 ((List.range 1008).map fun i =>
      match s.health.ring[i]? with | some t => ofSigned 8 t | none => 0x80)
  | 0x4200, 0x07 => (s.health.seconds / 600 - 1) % 1008
  | 0x5000, 0x06 => field 0 0 s.rst.straps
  | 0x5010, 0x06 => if s.pair.hbIn then 1 else 0
  | 0x5020, 0x01 => (markedZones s).length
  | 0x5020, 0x04 => s.pair.regions.length
  | 0x5100, 0x01 => casPos s
  | 0x5100, 0x02 => positionsUp s
  | 0x6000, 0x01 => s.host.numVfs
  | 0x6000, 0x02 => s.host.freeVq
  | 0x6000, 0x03 => s.host.freeVi
  | 0x6100, 0x01 => (fnc s inst).lens.code
  | 0x6100, 0x02 => (fnc s inst).vq
  | 0x6100, 0x03 => (fnc s inst).vi
  | 0x6100, 0x04 => if (fnc s inst).genWait.isSome then 0 else (fnc s inst).gen
  | 0x6100, 0x05 => (fnc s inst).attached.length
  | 0x6100, 0x06 => (fnc s inst).tdisp.code
  | 0x6100, 0x07 => (fnc s inst).failedCheck
  | 0x6200, 0x05 => ofSigned 32 ((fnc s inst).rdTok.fdiv 1024)
  | 0x6200, 0x06 => ofSigned 32 ((fnc s inst).wrTok.fdiv 1024)
  | 0x6210, 0x06 => outstanding s inst
  | 0x6210, 0x07 => 4 * (fnc s inst).winUnits
  | 0x6220, 0x01 => contractState s inst
  | 0x6300, 0x06 => (fnc s inst).logActive
  | 0x6300, 0x0A => Nat.max (fnc s inst).seqA (fnc s inst).seqB
  | 0x7000, 0x01 => (List.range 16).foldl (fun m l => if s.ciph.badLanes.contains l then m else m + 2 ^ l) 0
  | 0x7000, 0x03 => s.ciph.alarms
  | 0x7000, 0x05 => if s.ciph.erased then 1 else 0
  | 0x7010, 0x01 => pageLoaded s inst
  | 0x7010, 0x02 => (kvGet [] inst s.ciph.cache).length
  | 0x7020, 0x01 => match ns? s inst with | some n => n.gen | none => 1
  | 0x7020, 0x02 => match ns? s inst with | some n => (if n.rot.isSome then 1 else 0) | none => 0
  | 0x7020, 0x03 => match ns? s inst with
      | some n => (match n.rot with | some r => r.left.length | none => 0) | none => 0
  | 0x7100, 0x01 => s.ciph.otpMin
  | 0x8000, 0x01 => s.pwr.level
  | 0x8010, 0x01 => s.pwr.sleep
  | 0x8100, 0x05 => s.pwr.cM / 1000
  | 0x8100, 0x06 => s.pwr.pcapCond
  | 0x8210, 0x02 => (eng s inst).phase
  | 0x8210, 0x05 => (eng s inst).ticks
  | 0x8210, 0x08 => pack 16 ((List.range 256).map fun i => ofSigned 16 (kvGet 0 i (eng s inst).lastD))
  | 0x8400, 0x05 => energyReq s (od s 0x8400 0x01)
  | 0x8400, 0x06 =>
      let w := od s 0x8400 0x01
      if w < s.win.effectiveMiB ∧ s.win.used ≤ w * 256 then w else s.win.effectiveMiB
  | 0x9000, 0x01 => s.dram.rate
  | 0x9000, 0x09 => dramCapacity s
  | 0x9000, 0x0B => s.dram.ranks
  | 0x9000, 0x0C => s.dram.density
  | 0x9010, 0x01 => (dchan s inst).state
  | 0x9010, 0x07 => (dchan s inst).refreshRate
  | 0x9200, 0x01 => [512, 4096, 16384, 65536, 262144, 1048576].getD inst 0
  | 0x9200, 0x04 => (pool s inst).sram.free
  | 0x9200, 0x05 => (pool s inst).dram.free
  | 0x9200, 0x09 => (pool s inst).state
  | 0x9200, 0x0A => (pool s inst).waiting.length
  | 0x9200, 0x0F => (pool s inst).lowest
  | 0xA000, 0x01 => s.rst.captured
  | 0xA000, 0x04 => s.rst.bootFailures
  | 0xA000, 0x05 => if s.rst.maintain then 1 else 0
  | 0xA000, 0x06 => s.rst.life.code
  | 0xA000, 0x0A => bootSel s
  | 0xA100, 0x01 => s.rst.scanStep
  -- FLITs received, VDD at the package and the level of a GPIO ball are measured (log entries 69, 98)
  | 0x1020, 0x01 => Config.freeValue s.free % 2 ^ 64
  | 0xB000, 0x03 => Config.freeValue s.free % 2 ^ 16
  | 0xB100, 0x03 => Config.freeValue s.free % 2
  | 0xA100, 0x06 => s.jrn.nextLsn - 1
  | 0xA100, 0x07 => s.jrn.beginLsn
  | 0xA100, 0x08 => s.power.area
  | 0xA200, 0x02 => s.rst.logicFailed
  | 0xA200, 0x03 => pack 64 s.rst.logicSigs
  | 0xA200, 0x08 => s.rst.logicBoot
  | 0xA200, 0x04 => if s.bist.running then 1 else 0
  | 0xA200, 0x05 => (s.bist.failed ++ memoryFailed s).foldl (fun m p => setBit p m) 0
  | 0xA200, 0x09 => pack 64 (kvRun 0 0 128 s.bist.sigs ++ s.rst.memSigs)
  | 0xA310, 0x01 => s.loupe.nextSeq
  | 0xA310, 0x02 => pack 32 (kvRun 0 0 8 s.loupe.liveDrops)
  | 0xA310, 0x03 => s.loupe.live.length
  | 0xA310, 0x04 => s.loupe.kept.length
  | 0xA310, 0x09 => if s.loupe.frozen then 1 else 0
  | 0xA310, 0x0A => pack 32 (kvRun 0 0 8 s.loupe.keptDrops)
  | 0xB000, 0x01 => s.rst.straps
  | 0xF000, 0x01 => odCatalogue.length
  | 0xF000, 0x02 => Config.dictionaryRevision
  | 0xF001, 0x01 => match odCatalogue[inst]? with
      | some o => o + ((odRange o).filter (·.obj == o)).length * 2 ^ 16 +
          (match (odRange o).find? (·.obj == o) with | some e => e.ikind | none => 0) * 2 ^ 24
      | none => 0
  | 0xF030, 0x01 => kvGet 0 inst s.mgmt.eids
  | 0xF030, 0x02 => kvGet 0 inst s.mgmt.addrs
  | _, _ => if obj = 0xB100 ∧ elem = 1 ∧ 16 ≤ inst ∧ inst ≤ 19 then 3 else od s obj elem inst

/-- The fault condition of LED mode 4 (R602). -/
def faultShown (s : State) : Bool :=
  s.adm.preserve || match s.pins.faultAt with
    | some t => decide (s.health.seconds < t + 10)
    | none => false

/-- What an LED shows (R542, R548, R602): 0 off, 1 on, 2 blink at 2 Hz, 3 host activity, 5 locate at 8 Hz. -/
def ledShows (s : State) (i : Nat) : Nat :=
  if i = 0 ∧ s.pins.led0Blink then 2
  else if !s.pins.ioApplied then 0
  else match odView s 0xB200 0x01 i with
    | 4 => if faultShown s then 1 else 0
    | m => m

/-- What the device drives on a GPIO ball (R542, R578, R602): nothing until stage 3 and on an input; an open-drain
output drives low alone; GPIO 16 to 18 carry VSEL, and GPIO 19 is the input VDD_PG. -/
def gpioDrives (s : State) (i : Nat) : Option Bool :=
  if !s.pins.ioApplied then none
  else if 16 ≤ i ∧ i ≤ 18 then some (s.pwr.vsel.testBit (i - 16))
  else match odView s 0xB100 0x01 i with
    | 1 => some (odView s 0xB100 0x02 i == 1)
    | 2 => if odView s 0xB100 0x02 i = 0 then some false else none
    | _ => none

end Sys2Proof.Machine
end

