-- ==== Sys2Proof/Machine/Recorder.lean ====
section
/-! DEFINITION. The Loupe recorder's one shared operation: an event with a severity becomes an entry (R558 to R565). -/

namespace Sys2Proof.Machine

/-- Event code (R559): the high byte of the subject's object range, and an implementation's low byte; a periodic
trigger's is 0xA001 (R561). -/
def eventCode (subject rule : Nat) : Nat := if rule = 561 then 0xA001 else subject * 256 + Config.eventLow rule % 256

/-- Enabled triggers, in ascending number. -/
def triggersOn (s : State) : List Nat :=
  s.dict.od.filterMap fun e => if e.1 / 2 ^ 16 = 0xA30001 ∧ e.2 = 1 then some (e.1 % 2 ^ 16) else none

/-- The lowest-numbered trigger that matches an event; a periodic trigger matches none (R561). -/
def matchTrigger (s : State) (code sev : Nat) : Option Nat :=
  (triggersOn s).find? fun t =>
    od s 0xA300 0x08 t == 0 && Nat.land code (od s 0xA300 0x03 t) == od s 0xA300 0x02 t &&
    decide (od s 0xA300 0x04 t ≤ sev)

/-- Status of the addressing checks (R453, R454). -/
def odAddress (obj elem inst : Nat) : Nat :=
  if !odObject obj then 0x10
  else match odFind obj elem with
    | none => 0x11
    | some e => if instOk e inst then 0x00 else 0x12

/-- The addressing checks: those of the catalogue, and a ring instance beyond Nr is refused (R164). -/
def odAddressIn (s : State) (obj elem inst : Nat) : Nat :=
  let st := odAddress obj elem inst
  if st = 0 ∧ obj = 0x2220 ∧ ringsN s ≤ inst % 8 then 0x12 else st

/-- The items of a trigger: object, element, instance, status and the first 16 bytes of the value (R560, R561). -/
def triggerItems (s : State) (t : Nat) : List (Nat × Nat × Nat × Nat × Nat) :=
  (List.range (od s 0xA300 0x06 t)).map fun i =>
    let w := bytesAt (8 * i) 8 (od s 0xA300 0x07 t)
    let obj := bytesAt 0 2 w
    let elem := bytesAt 2 1 w
    let inst := bytesAt 4 2 w
    let st := odAddressIn s obj elem inst
    (obj, elem, inst, st, if st = 0 then odView s obj elem inst % 2 ^ 128 else 0)

/-- Put an entry into a memory of cap slots: a free slot, or the oldest entry of equal or lower severity (R562). -/
def storeEntry (cap : Nat) (e : LEntry) (l : List LEntry) : Option (List LEntry) :=
  if l.length < cap then some (l ++ [e])
  else match l.findIdx? fun x => decide (x.sev ≤ e.sev) with
    | some i => some (l.eraseIdx i ++ [e])
    | none => none

/-- Count a drop of a severity. -/
def dropAt (sev : Nat) (m : Kv Nat) : Kv Nat := kvPut 0 sev (kvGet 0 sev m + 1) m

/-- The live-buffer part of R562: the entry is stored, or dropped and counted. -/
def loupeLive (s : State) (e : LEntry) : State :=
  match storeEntry 2048 e s.loupe.live with
  | some l => { s with loupe.live := l, loupe.droppedSince := 0 }
  | none => { s with loupe.liveDrops := dropAt e.sev s.loupe.liveDrops
                     loupe.droppedSince := s.loupe.droppedSince + 1 }

/-- The retained copy of R563. -/
def loupeKeep (s : State) (e : LEntry) : State :=
  match storeEntry 256 { e with copy := true } s.loupe.kept with
  | some l => { s with loupe.kept := l }
  | none => { s with loupe.keptDrops := dropAt e.sev s.loupe.keptDrops }

/-- The boot sequence an entry carries: 0 until the running boot's record is durable (R559). -/
def bootSeqNow (s : State) : Nat :=
  if s.rst.recordDurable then (match s.ciph.records.getLast? with | some b => b.sequence | none => 0) else 0

/-- Record an entry for the event of a rule, with an optional trigger (R559 to R565). -/
def loupeEntry (s : State) (rule subject sev : Nat) (detail : List Nat) (t : Option Nat) : State :=
  let acts := match t with
    | some t => od s 0xA300 0x05 t
    | none => 0
  let e : LEntry := { seq := s.loupe.nextSeq, subject := subject, rule := rule, sev := sev
                      trigger := t.getD 0xFF, bootSeq := bootSeqNow s, nextAsn := s.adm.nextAsn
                      epoch := od s 0x2100 0x06, dropped := s.loupe.droppedSince, detail := detail
                      items := match t with | some t => triggerItems s t | none => [] }
  let s := { s with loupe.nextSeq := s.loupe.nextSeq + 1 }
  if s.loupe.frozen ∧ sev ≠ 7 then
    { s with loupe.liveDrops := dropAt sev s.loupe.liveDrops, loupe.droppedSince := s.loupe.droppedSince + 1 }
  else
    let s := loupeLive s e
    let s := if od s 0xA310 0x06 ≤ sev ∨ acts.testBit 3 then loupeKeep s e else s
    let s := if od s 0xA310 0x07 ≤ sev ∨ acts.testBit 1 then { s with pins.alert := true } else s
    let s := if 6 ≤ sev ∨ acts.testBit 0 then { s with loupe.flushing := true } else s
    let s := if sev = 7 then { s with loupe.telemetry := s.loupe.telemetry + 1 } else s
    let s := if 5 ≤ sev then { s with pins.faultAt := some s.health.seconds } else s
    let s := match t with | some t => odBump s 0xA300 0x09 t | none => s
    if acts.testBit 2 then { s with loupe.frozen := true } else s

/-- Record the event that a rule names, with the subject's range, severity and detail (R562). -/
def loupe (s : State) (rule subject sev : Nat) (detail : List Nat := []) : State :=
  loupeEntry s rule subject sev detail (matchTrigger s (eventCode subject rule) sev)

end Sys2Proof.Machine
end

