-- ==== Sys2Proof/Machine/HostOps.lean ====
section
/-! DEFINITION. Host-visible effects shared by the commands: completions, asynchronous events, DMA and its write log,
frames to a twin or member. A status is written type × 256 + code. -/

namespace Sys2Proof.Machine

/-! Status values (R11, R65, R83, and the NVM Express values the spec names; log entry 13). -/

def stOk : Nat := 0x000
def stOpcode : Nat := 0x001
def stField : Nat := 0x002
def stPowerLoss : Nat := 0x005
def stInternal : Nat := 0x006
def stAbort : Nat := 0x007
def stSqDeletion : Nat := 0x008
def stNamespace : Nat := 0x00B
def stRange : Nat := 0x080
def stCapacity : Nat := 0x081
def stNotReady : Nat := 0x082
def stReservation : Nat := 0x083
def stSanitizing : Nat := 0x01D
def stFormatting : Nat := 0x084
def stContract : Nat := 0x0C1
def stFenced : Nat := 0x0C4
def stPreserve : Nat := 0x0C6
def stStep : Nat := 0x0C8
def stLogPage : Nat := 0x109
def stBoundary : Nat := 0x1B8
def stFull : Nat := 0x1B9
def stReadOnly : Nat := 0x1BA
def stOffline : Nat := 0x1BB
def stInvalidWrite : Nat := 0x1BC
def stTooManyActive : Nat := 0x1BD
def stTooManyOpen : Nat := 0x1BE
def stTransition : Nat := 0x1BF
def stUnrecovered : Nat := 0x281
def stGuard : Nat := 0x282
def stAppTag : Nat := 0x283
def stRefTag : Nat := 0x284
def stCompare : Nat := 0x285
def stAnaLoss : Nat := 0x301
def stAnaInaccessible : Nat := 0x302
def stAnaTransition : Nat := 0x303

/-! The write log (R363 to R367). -/

/-- The buffer that the next DMA write marks: the other one from a swap request on (R367). -/
def logTarget (f : Fn) : Nat := if f.swapping then 1 - f.logActive else f.logActive

/-- Pages of the range touched by len bytes at address a (R363, R365). -/
def logPages (base length a len : Nat) : List Nat :=
  let lo := Nat.max a base
  let hi := Nat.min (a + len) (base + length)
  if lo < hi then (List.range ((hi - 1 - base) / 4096 + 1 - (lo - base) / 4096)).map ((lo - base) / 4096 + ·) else []

/-- Set pages and flag bits in the log's target buffer. -/
def Fn.mark (f : Fn) (pages : List Nat) (flags : Nat) : Fn :=
  if logTarget f = 0 then { f with logA := pages.foldl (fun l p => addTo p l) f.logA, flagsA := Nat.lor f.flagsA flags }
  else { f with logB := pages.foldl (fun l p => addTo p l) f.logB, flagsB := Nat.lor f.flagsB flags }

/-- A DMA write of len bytes by function n, logged where its write log is on (R18, R365). -/
def dmaWrite (s : State) (n pasid a len : Nat) : State :=
  if od s 0x6300 0x01 n ≠ 1 ∨ len = 0 then s
  else
    let base := od s 0x6300 0x04 n
    let length := od s 0x6300 0x05 n
    if pasid ≠ od s 0x6300 0x09 n then
      odBump (setFn s n ((fnc s n).mark [] 2)) 0x6300 0x08 n
    else if a < base ∨ base + length < a + len then
      odBump (setFn s n ((fnc s n).mark (logPages base length a len) 1)) 0x6300 0x07 n
    else setFn s n ((fnc s n).mark (logPages base length a len) 0)

/-! Completions (R24, R360, R606). -/

/-- The generation that stands for a command of an ended PF era (R606): no lens generation takes it. -/
def staleGen : Nat := 256

/-- A function's current generation; none while an increment waits (R361) or before its first. -/
def curGen (s : State) (n : Nat) : Nat := if (fnc s n).genWait.isSome then 0 else (fnc s n).gen

/-- Work of a generation still belongs to the function's current era (R360, R606). -/
def genOk (s : State) (n gen : Nat) : Bool :=
  if n = 0 then gen == 0 else gen == curGen s n && gen != 0

/-- Number of data bytes a payload moves, with the block size of the command. -/
def Payload.isNone : Payload → Bool
  | .none => true
  | _ => false

/-- Bytes of a payload that is laid out in bytes. -/
def Payload.bytes : Payload → Nat
  | .image b _ => b
  | .slots l => 64 * l.length
  | _ => 0

/-- Post a completion of function n's work fetched in a generation, after its data DMA (R18, R360, R365). bytes is
the data moved to dptr. From step 3 of the hold-up sequence on, none is posted (R260). -/
def post (s : State) (n sq cid gen status dw0 dw1 : Nat) (payload : Payload) (pasid dptr bytes cqAddr : Nat) : State :=
  if s.power.hold ≠ .running then s
  else if genOk s n gen then
    let s := dmaWrite s n pasid dptr (if payload.isNone then 0 else bytes)
    let s := dmaWrite s n pasid cqAddr 16
    { s with host.cq := s.host.cq ++ [{ fn := n, sq := sq, cid := cid, status := status, dw0 := dw0, dw1 := dw1
                                        payload := payload }] }
  else if n = 0 then s
  else
    let s := odBump s 0x6220 0x07 n
    if payload.isNone then s else odBump s 0x6220 0x08 n

/-- Complete an admin command. -/
def adminDone (s : State) (a : Adm) (status : Nat) (dw0 : Nat := 0) (payload : Payload := .none) (bytes : Nat := 0) :
    State :=
  post s a.fn 0 a.cid (curGen s a.fn) status dw0 0 payload 0xFFFFFFFF a.dptr bytes a.cqAddr

/-! Asynchronous events (R64, R85, R251, R314, R356). -/

/-- Complete an Asynchronous Event Request, its completion entry marked in the write log first (R18). -/
def answerAer (s : State) (n : Nat) (r : Nat × Nat) (etype info : Nat) : State :=
  let s := dmaWrite s n 0xFFFFFFFF r.2 16
  { s with host.cq := s.host.cq ++ [{ fn := n, sq := 0, cid := r.1, status := 0, dw0 := etype + info * 256 }] }

/-- Post an event: it takes the oldest outstanding Asynchronous Event Request, or waits for one; from step 3 of the
hold-up sequence on it waits (R260). -/
def aen (s : State) (n etype info : Nat) : State :=
  let f := fnc s n
  match (if s.power.hold = .running then f.aers else []) with
  | r :: rest => answerAer (setFn s n { f with aers := rest }) n r etype info
  | [] => setFn s n { f with events := f.events ++ [(etype, info)] }

/-- Functions that have a namespace attached. -/
def attachedFns (s : State) (nsid : Nat) : List Nat :=
  s.host.fns.filterMap fun e => if e.2.attached.contains nsid then some e.1 else none

/-- A controller in service with CC.EN set (R68). -/
def fnEnabled (s : State) (n : Nat) : Bool := (fnc s n).en && (n == 0 || (fnc s n).lens == .online)

def enabledFns (s : State) : List Nat := (s.host.fns.map (·.1)).filter (fnEnabled s)

/-- Zone Descriptor Changed for a zone start LBA (R64). -/
def zoneChanged (s : State) (nsid zslba : Nat) : State :=
  (attachedFns s nsid).foldl (fun s n =>
    let f := fnc s n
    let s := setFn s n { f with changed := if f.changed.contains (nsid, zslba) then f.changed
                                           else f.changed ++ [(nsid, zslba)] }
    aen s n 2 0xEF) s

/-- A SMART/Health event goes to every controller in service whose mask allows one of the critical warning bits (R85,
R251). -/
def warnAll (s : State) (bits info : Nat) : State :=
  ((enabledFns s).filter fun n => Nat.land (fnc s n).aec bits != 0).foldl (fun s n => aen s n 1 info) s

/-- The critical warning that a function shows (R85, R251): the device's conditions, and its own reliability bit. -/
def critWarn (s : State) (n : Nat) : Nat :=
  Nat.lor (fnc s n).warn ((if s.health.spareLow || s.adm.preserve then 1 else 0) + (if s.health.hot then 2 else 0) +
    (if s.adm.preserve then 8 else 0))

/-- What the preserve state brings at its ASN (R85): the state with its group, one event, and a severity-7 entry. -/
def preserveBegins (s : State) (g : Nat) : State :=
  loupe (warnAll { s with adm.preserve := true, adm.preserveGroup := some g } 9 2) 85 0x42 7 [g]

/-- The reliability condition begins for the lenses of a namespace (R251). -/
def reliability (s : State) (nsid : Nat) : State :=
  (attachedFns s nsid).foldl (fun s n =>
    let f := fnc s n
    let s := setFn s n { f with warn := Nat.lor f.warn 4, reliability := true }
    if f.reliability || Nat.land f.aec 4 == 0 then s else aen s n 1 0) s

/-! Frames (R298, R299, R328). -/

/-- The twin is joined: phase 3 and later of R317 while roles stand. -/
def pairRole (s : State) : Nat := od s 0x5000 0x01
def pairPhase (s : State) : Nat := od s 0x5000 0x03
def pairEpoch (s : State) : Nat := od s 0x5000 0x02

/-- Class of a frame kind at the Mirror link's transmit arbiter (R44, R299): 0 keepalive, 1 ledger record, 2 write data,
3 dictionary. -/
def frameClass (kind : Nat) : Nat := if kind < 0x10 then 0 else if kind < 0x20 then 1 else if kind < 0x30 then 2 else 3

/-- Queue a frame of a kind for a port: 0 the Mirror link, where it waits for the transmit arbiter with the cipher lane
that encrypted it (R44, log entry 100); 1 to 3 the cascade links. -/
def sendFrame (s : State) (port kind : Nat) (body : List Nat) : State :=
  if port = 0 then
    let f : Frame := { port := 0, kind := kind, epoch := 0, seq := 0, lane := freeVal s % 16, body := body }
    useFree { s with pair.txq := s.pair.txq ++ [f] }
  else
    let m := member s port
    let f : Frame := { port := port, kind := kind, epoch := 0, seq := m.txSeq, body := body }
    let s := setMember s port { m with txSeq := m.txSeq + 1, unacked := m.unacked ++ [f] }
    { s with pair.out := s.pair.out ++ [f] }

/-- The frame that the Mirror link's transmit arbiter grants (R40, R44): of the highest class, and of write data by the
rotation over the cipher lanes. -/
def txPick (s : State) : Option Frame :=
  match (s.pair.txq.map fun f => frameClass f.kind).min? with
  | none => none
  | some 2 =>
    let l := s.pair.txq.filter fun f => frameClass f.kind == 2
    (rotPick s.pair.lanePtr (l.map (·.lane))).bind fun i => l.find? fun f => f.lane == i
  | some c => s.pair.txq.find? fun f => frameClass f.kind == c

/-- The Mirror link sends one frame (R44, R298): it takes the pair epoch and the next frame sequence, and is kept until
it is acknowledged (R300). -/
def txGrant (s : State) : State :=
  match (if s.pair.linkUp then txPick s else none) with
  | none => s
  | some f =>
    let g := { f with epoch := pairEpoch s, seq := s.pair.txSeq }
    let ptr := if frameClass f.kind = 2 then (f.lane + 1) % 16 else s.pair.lanePtr
    odBump { s with pair.txq := s.pair.txq.erase f, pair.lanePtr := ptr, pair.txSeq := s.pair.txSeq + 1
                    pair.unacked := s.pair.unacked ++ [g], pair.out := s.pair.out ++ [g] } 0x5010 0x04

/-! Single-bit event crossings (R36): 0 to 512, the doorbells of a function. -/

/-- The sender raises an event: it inverts the toggle, or while the toggle is out the event is merged and counted. -/
def raiseToggle (s : State) (k : Nat) : State :=
  let t := kvGet {} k s.toggles
  let t : Toggle := if t.out then { t with merged := t.merged + 1 } else { t with out := true }
  { s with toggles := kvPut {} k t s.toggles }

/-- Every receiving domain returns its toggle. -/
def returnToggles (s : State) : State :=
  { s with toggles := kvMap {} (fun t => { t with out := false }) s.toggles }

/-- What happens while no command waits (log entry 8): every crossing returns its toggle, and the Mirror link sends its
next frame. -/
def idle (s : State) : State := txGrant (returnToggles s)

/-- Opcode and Zone Send action of an operation (R52, R96). -/
def opCode : IoOp → Nat
  | .flush => 0x00 | .write => 0x01 | .read => 0x02 | .compare => 0x05 | .writeZeroes => 0x08 | .dsm => 0x09
  | .verify => 0x0C | .resvRegister => 0x0D | .resvReport => 0x0E | .resvAcquire => 0x11 | .resvRelease => 0x15
  | .zoneAppend => 0x7D | .zoneSend _ => 0x79 | .zoneSetExt => 0x79 | .zoneReport => 0x7A | .zoneExtReport => 0x7A
  | .other o => o
def actCode : ZoneAct → Nat
  | .closeZ => 1 | .finishZ => 2 | .openZ => 3 | .resetZ => 4 | .offlineZ => 5
def opAction : IoOp → Nat
  | .zoneSend a => actCode a
  | _ => 0

/-- The command writes data (R69, R85). -/
def opWrites : IoOp → Bool
  | .write | .writeZeroes | .zoneAppend => true
  | _ => false

/-- The fields of a submission entry as a frame carries them. -/
def ioFields (op : IoOp) (c : IoCmd) : List Nat :=
  [opCode op, opAction op, c.fn, c.sq, c.cid, c.nsid, c.slba, c.nlb, if c.selectAll then 1 else 0,
   c.ilbrt, c.lbat, c.lbatm, if c.piRemap then 1 else 0, (c.dspec.map (· + 1)).getD 0]

/-- Discard a requester's staging set (R469). -/
def dropSet (s : State) (w : Requester) : State :=
  { s with dict.sets := s.dict.sets.map fun t => if t.who = w then { t with entries := [] } else t }

/-- A link is lost: the sets that came over it are discarded (R469, R479). -/
def dropLinkSets (s : State) (mirror : Bool) : State :=
  if mirror then dropSet (dropSet (dropSet s .twin) (.hostRelay 2)) (.mgmt 4)
  else dropSet (dropSet s (.hostRelay 1)) (.mgmt 3)

/-! Finishing a host command. -/

/-- The command's global submission queue index (R44). -/
def queueIndex (fn sq : Nat) : Nat := fn * 8192 + sq

end Sys2Proof.Machine
end

