-- ==== Sys2Proof/Machine/Zones.lean ====
section
/-! DEFINITION. Zones and the admission ledger: the outcome of check 7, ring cells, zone changes and records (R45, R58
to R72, R85 to R100, R130 to R148). -/

namespace Sys2Proof.Machine

/-- The twin is joined (R317), so R32 and R312 apply. -/
def joined (s : State) : Bool := pairRole s != 0 && (pairPhase s == 3 || pairPhase s == 4)

/-- Write pointer that a record shows: an LBA, or all ones when the pointer is invalid (R96). -/
def wpShown (zslba : Nat) (z : Zone) : Nat :=
  match z.st with
  | .full | .readOnly | .offline => 2 ^ 64 - 1
  | _ => zslba + z.wp

/-- State codes of R60. -/
def ZState.code : ZState → Nat
  | .empty => 0x1 | .implOpen => 0x2 | .explOpen => 0x3 | .closed => 0x4 | .readOnly => 0xD | .full => 0xE
  | .offline => 0xF

/-! The change record of a lead whose twin is away (R319). -/

def changeRecordOpen (s : State) : Bool :=
  pairRole s == 1 && decide (pairPhase s < 3) || od s 0x5000 0x0B == 1

/-- Mark a zone from a unit offset on. -/
def markZone (s : State) (z off : Nat) : State :=
  if changeRecordOpen s then
    let v := zone s z
    setZone s z { v with marked := some (match v.marked with | some c => Nat.min c off | none => off) }
  else s

/-! Ring cells (R132 to R139, R148). -/

/-- The fold unit of a zone is complete (R141). -/
def foldComplete (s : State) (z w : Nat) : Bool := (kvGet {} w (zone s z).folds).completeAsn != 0

/-- Counter values at which an allocation of n cells from c enters a ring row. -/
def rowEntries (c n : Nat) : List Nat :=
  let first := ceilDiv c cellsPerRow
  ((List.range (n / cellsPerRow + 2)).map fun i => (first + i) * cellsPerRow).filter fun b => c ≤ b && b < c + n

/-- Ring rows that an allocation enters. -/
def rowsEntered (s : State) (c n : Nat) : List Nat := (rowEntries c n).map (cellRow s)

/-- Cells of incomplete fold units in the ring row two ahead of row x, in ring order (R137). -/
def carryOf (s : State) (inst x : Nat) : List (Nat × Nat) :=
  let r := ring s inst
  let target := (x + 2) % ringRows s
  (r.cells.filter fun e =>
    cellRow s e.1 == target &&
    !foldComplete s e.2.1 (foldOf (16 - zonePn s e.2.1) e.2.2) &&
    -- the unit's current cell, not one already carried
    ((kvGet {} e.2.2 (zone s e.2.1).units).loc == .staged e.1 ||
     (kvGet {} e.2.2 (zone s e.2.1).units).loc == .window (some e.1))).map (·.2)

/-- The carries of an allocation of n cells: each row that the carried and the record's own cells enter adds the
cells of the row two ahead (R137). -/
def carries (s : State) (inst : Nat) : (fuel n : Nat) → (done : List Nat) → List (Nat × Nat) → List (Nat × Nat)
  | 0, _, _, l => l
  | fuel + 1, n, done, l =>
    match (rowsEntered s (ring s inst).c (l.length + n)).find? fun x => !done.contains x with
    | some x => carries s inst fuel n (x :: done) (l ++ carryOf s inst x)
    | none => l

/-- What an unlisted cell reads as: no zone has this number. -/
def noCell : Nat × Nat := (2 ^ 32, 0)

/-- Give a unit the next cell of a ring. A unit in the window keeps its data there; a staged unit's staging location
is its new cell (R138). -/
def giveCell (inst asn : Nat) (pending : Bool) (s : State) (u : Nat × Nat) : State :=
  let r := ring s inst
  let z := zone s u.1
  let us := kvGet {} u.2 z.units
  let us' : UnitSt := match us.loc with
    | .staged _ => { us with loc := .staged r.c }
    | _ => { us with loc := .window (some r.c), asn := asn, pending := us.pending || pending }
  let s := setZone s u.1 { z with units := kvPut {} u.2 us' z.units }
  setRing s inst { r with c := r.c + 1, cells := kvPut noCell r.c u r.cells }

/-- Enter ring rows: each holds 16 blocks to erase before the cursor enters it again (R139), and the absent cells of the
pass before are gone. -/
def enterRows (s : State) (inst : Nat) (rows : List Nat) : State :=
  let r := ring s inst
  let keys := rows.foldl (fun l x => (List.range 16).foldl (fun l f => addTo (x * 16 + f) l) l) r.unerased
  setRing s inst { r with unerased := keys, absent := r.absent.filter fun c => !rows.contains (cellRow s c) }

/-- Allocate ring cells for the units a record completes, after the carries it starts (R134, R136, R137). -/
def allocCells (s : State) (inst asn : Nat) (pending : Bool) (units : List (Nat × Nat)) : State :=
  if units.isEmpty then s
  else
    let cs := carries s inst 8 units.length [] []
    let s := enterRows s inst (rowsEntered s (ring s inst).c (cs.length + units.length))
    let s := odBump s 0x2220 0x05 inst cs.length
    let s := cs.foldl (giveCell inst asn false) s
    units.foldl (giveCell inst asn pending) s

/-- A ring row is not yet erased: a die in service still holds a block of it to erase (R139). -/
def rowUnerased (s : State) (inst x : Nat) : Bool :=
  (ring s inst).unerased.any fun e => e / 16 == x && (die s (facetDie (inst / 8) (e % 16))).service == 0

/-- An allocation of n cells would enter a row that is not yet erased (R139). -/
def allocBlocked (s : State) (inst n : Nat) : Bool :=
  n != 0 && (rowsEntered s (ring s inst).c ((carries s inst 8 n [] []).length + n)).any (rowUnerased s inst)

/-- The ring a zone takes on leaving Empty at an ASN (R132). -/
def ringChoice (s : State) (z asn : Nat) : Option Nat :=
  ((List.range (ringsN s)).map fun i => ringInst (groupOf z) ((rowIndexOf z + asn + i) % ringsN s)).find? fun r =>
    decide ((ring s r).active < ringLimit s)

/-- Free every ring cell of a zone (R148). -/
def freeZoneCells (s : State) (z : Nat) : State :=
  match (zone s z).ring with
  | some inst =>
    let r := ring s inst
    setRing s inst { r with cells := r.cells.filter fun e => e.2.1 != z }
  | none => s

/-- Leaving the active states gives up the ring's active count (R132). -/
def releaseActive (s : State) (z : Nat) : State :=
  match (zone s z).ring with
  | some inst => if (zone s z).st.active then
      setRing s inst { ring s inst with active := (ring s inst).active - 1 } else s
  | none => s

/-! Fold units (R141, R145). -/

/-- Note the fold units in a list complete at an ASN. -/
def completeFolds (s : State) (z asn : Nat) (ws : List Nat) : State :=
  let v := zone s z
  setZone s z { v with folds := ws.foldl (fun m w =>
    let f := kvGet {} w m
    if f.completeAsn = 0 then kvPut {} w { f with completeAsn := asn } m else m) v.folds }

/-- Fold units wholly below unit offset u. -/
def foldsBelow (pn u : Nat) : List Nat := List.range (u / (64 * (16 - pn)))

/-! Zone changes. -/

/-- Give back the window buffers held for units of these functions (R255, OD 0x6210:07). -/
def freeWindow (s : State) (owners : List Nat) : State :=
  owners.foldl (fun s f =>
    let s := { s with win.used := s.win.used - 1 }
    setFn s f { fnc s f with winUnits := (fnc s f).winUnits - 1 }) s

/-- A reset or Offline abandons the zone's rewrites: each spare taken returns to the die's unused spares (R230, R231).
Retirements go on. -/
def dropRewrites (s : State) (z : Nat) : State :=
  (groupDies (groupOf z)).foldl (fun s d =>
    let dd := die s d
    let gone := dd.rewrites.filter fun r => r.zone == z && r.cause == 2 && decide (r.step < 3)
    if gone = [] then s
    else setDie s d { dd with rewrites := dd.rewrites.filter fun r => !gone.contains r
                              returned := dd.returned ++ gone.filterMap (·.spare) }) s

/-- A zone loses Reset Zone Recommended once no rewrite of a facet of it stands deferred (R63). -/
def rzrEnds (s : State) (z : Nat) : State :=
  if (zone s z).rzr && (groupDies (groupOf z)).all fun d => (die s d).rewrites.all fun r => r.zone != z || !r.deferred then
    setZone s z { zone s z with rzr := false }
  else s

/-- A zone that becomes Full while a rewrite of a facet stands deferred gains Reset Zone Recommended (R63, R231). -/
def rzrOnFull (s : State) (n : Ns) (z : Nat) : State :=
  if (zone s z).st == .full && !(zone s z).rzr &&
      (groupDies (groupOf z)).any fun d => (die s d).rewrites.any fun r => r.zone == z && r.deferred then
    zoneChanged (setZone s z { zone s z with rzr := true }) n.nsid (n.startOf z)
  else s

/-- Unmap a zone: content, units, folds and cells go, and the facets wait for their erases (R28, R148). -/
def unmapZone (s : State) (z : Nat) (st : ZState) : State :=
  let s := dropRewrites (freeZoneCells (releaseActive s z) z) z
  let v := zone s z
  let s := freeWindow s (v.units.filterMap fun e => e.2.held)
  let s := { s with win.cache := s.win.cache.filter fun e => e.2.1 != z }
  let facets := if v.folds.isEmpty then [] else List.range 16
  setZone s z { st := st, lastAdm := v.lastAdm, epoch := v.epoch, marked := v.marked,
                eraseQueue := facets, eraseLeft := v.eraseLeft ++ facets.filter fun f => !v.eraseLeft.contains f,
                unmapDue := true, unmapAsn := v.lastAdm }

/-- A zone takes the Read Only state: its write pointer is its finish point (R236), and every remaining fold unit is
complete at the record. -/
def enterReadOnly (s : State) (z asn : Nat) : State :=
  let s := releaseActive s z
  let v := zone s z
  completeFolds (setZone s z { v with st := .readOnly, finish := some v.wp }) z asn (List.range 256)

/-- Unit offsets that a record completes when the write pointer goes from block a to block b; a zone that becomes Full
completes its partial unit (R134). -/
def unitsCompleted (bpu a b : Nat) (full : Bool) : List Nat :=
  let hi := if full then ceilDiv b bpu else b / bpu
  (List.range (hi - a / bpu)).map (a / bpu + ·)

/-- The key generation of a zone that leaves Empty at an ASN (R397, R398). -/
def genAt (n : Ns) (asn : Nat) : Nat :=
  match n.rot with
  | some r => if r.switchAsn ≤ asn then r.newGen else r.oldGen
  | none => n.gen

/-- Leave Empty at an ASN: the zone takes a ring, the epoch and its namespace's key generation (R109, R132, R397). -/
def leaveEmpty (s : State) (n : Ns) (z asn : Nat) : State :=
  match ringChoice s z asn with
  | some inst =>
    let s := setRing s inst { ring s inst with active := (ring s inst).active + 1 }
    setZone s z { zone s z with ring := some inst, epoch := od s 0x2100 0x06, keyGen := genAt n asn }
  | none => s

/-- The write pointer advances over nlb blocks at an ASN (R61, R134). -/
def advance (s : State) (n : Ns) (z asn nlb : Nat) (pending : Bool) : State :=
  let v := zone s z
  let s := if v.st = .empty then leaveEmpty s n z asn else s
  let v := zone s z
  let wp' := v.wp + nlb
  let full := decide (n.zcap ≤ wp')
  let st := if full then ZState.full else if v.st = .explOpen then .explOpen else .implOpen
  let units := (unitsCompleted n.bpu v.wp wp' full).map fun u => (z, u)
  let s := setZone s z { v with wp := wp', st := st }
  let s := match v.ring with
    | some inst => allocCells s inst asn pending units
    | none => s
  let s := match v.ring with
    | some inst => if full then setRing s inst { ring s inst with active := (ring s inst).active - 1 } else s
    | none => s
  let s := markZone s z (v.wp / n.bpu)
  rzrOnFull (completeFolds s z asn (if full then List.range 256 else foldsBelow n.pn (wp' / n.bpu))) n z

/-- Finish at an ASN (R61, R141, R146). An Empty zone leaves Empty without a ring. -/
def finishZoneAt (s : State) (n : Ns) (z asn : Nat) : State :=
  let v := zone s z
  let v := if v.st = .empty then { v with epoch := od s 0x2100 0x06, keyGen := genAt n asn } else v
  let units := if v.st = .empty then [] else (unitsCompleted n.bpu v.wp v.wp true).map fun u => (z, u)
  let s := releaseActive s z
  let s := setZone s z { v with st := .full, finish := some v.wp }
  let s := match v.ring with
    | some inst => allocCells s inst asn false units
    | none => s
  rzrOnFull (completeFolds s z asn (List.range 256)) n z

/-- Close: Closed, or Empty when the write pointer is at the start (R61). -/
def closeZoneAt (s : State) (z : Nat) : State :=
  let v := zone s z
  if v.wp = 0 then setZone (releaseActive s z) z { v with st := .empty, ring := none }
  else setZone s z { v with st := .closed }

/-! The outcome of check 7. -/

/-- What check 7 decides: the status, whether the zone goes Read Only, and the zone to close first. -/
structure ZOut where
  status : Nat
  readOnly : Bool := false
  close : Option Nat := none
deriving DecidableEq, Repr

/-- The zone that R71 closes: the Implicitly Opened zone whose newest admitted command has the lowest ASN. -/
def closeChoice (s : State) (n : Ns) (z : Nat) : Option Nat :=
  (n.zones.filter fun y => y != z && (zone s y).st == .implOpen).foldl (fun m y =>
    match m with
    | some x => if (zone s y).lastAdm < (zone s x).lastAdm then some y else some x
    | none => some y) none

def activeCount (s : State) (n : Ns) : Nat := countZones s n.zones ZState.active
def openCount (s : State) (n : Ns) : Nat := countZones s n.zones ZState.isOpen

/-- The zone-resources step (R71, R72, R132): k is what follows when the resources are there. -/
def resources (s : State) (n : Ns) (z asn : Nat) (needActive needOpen : Bool) (k : ZOut) : ZOut :=
  if needActive && decide (n.activeQuota ≤ activeCount s n) then { status := stTooManyActive }
  else if needActive && (ringChoice s z asn).isNone then { status := stTooManyActive }
  else if needOpen && decide (n.openQuota ≤ openCount s n) then
    match closeChoice s n z with
    | some y => { k with close := some y }
    | none => { status := stTooManyOpen }
  else k

/-- Write pointer and zone capacity (R69, R70). start is the LBA the command names. -/
def pointerCheck (n : Ns) (v : Zone) (zslba : Nat) (op : IoOp) (lba nlb : Nat) : ZOut :=
  match op with
  | .zoneAppend => if v.wp + nlb ≤ n.zcap then { status := stOk } else { status := stBoundary }
  | _ =>
    if lba ≠ zslba + v.wp then { status := stInvalidWrite }
    else if v.wp + nlb ≤ n.zcap then { status := stOk } else { status := stBoundary }

/-- Check 7 for a write, Write Zeroes or append (R56, R65, R69 to R72, R85, R87). -/
def writeOutcome (s : State) (n : Ns) (z asn : Nat) (op : IoOp) (lba nlb : Nat) : ZOut :=
  let v := zone s z
  let zslba := n.startOf z
  if op = .zoneAppend ∧ lba ≠ zslba then { status := stField }
  else match v.st with
    | .full => { status := stFull }
    | .readOnly => { status := stReadOnly }
    | .offline => { status := stOffline }
    | .empty =>
      if s.adm.preserve then { status := stCapacity }
      else resources s n z asn true true (pointerCheck n v zslba op lba nlb)
    | .closed =>
      if s.adm.preserve then { status := stReadOnly, readOnly := true }
      else resources s n z asn false true (pointerCheck n v zslba op lba nlb)
    | _ =>
      if s.adm.preserve then { status := stReadOnly, readOnly := true }
      else pointerCheck n v zslba op lba nlb

/-- Check 7 for a Zone Send action on one zone (R65, R71, R87). -/
def sendOutcome (s : State) (n : Ns) (z asn : Nat) (a : ZoneAct) : ZOut :=
  let v := zone s z
  match a, v.st with
  | .openZ, .empty =>
    if s.adm.preserve then { status := stCapacity } else resources s n z asn true true { status := stOk }
  | .openZ, .closed =>
    if s.adm.preserve then { status := stCapacity } else resources s n z asn false true { status := stOk }
  | .openZ, .implOpen | .openZ, .explOpen => { status := stOk }
  | .openZ, _ => { status := stTransition }
  | .closeZ, .implOpen | .closeZ, .explOpen | .closeZ, .closed => { status := stOk }
  | .closeZ, _ => { status := stTransition }
  | .finishZ, st =>
    if s.adm.preserve then { status := stPreserve }
    else if st = .readOnly ∨ st = .offline then { status := stTransition } else { status := stOk }
  | .resetZ, st =>
    if s.adm.preserve then { status := stPreserve }
    else if st = .readOnly ∨ st = .offline then { status := stTransition } else { status := stOk }
  | .offlineZ, .readOnly | .offlineZ, .offline => { status := stOk }
  | .offlineZ, _ => { status := stTransition }

/-- Check 7 of a command at zone z that would take an ASN. -/
def outcome (s : State) (n : Ns) (c : Cmd) (z asn : Nat) : ZOut :=
  match c.op with
  | .zoneSend a =>
    if !c.io.selectAll && c.io.slba != n.startOf z then { status := stField } else sendOutcome s n z asn a
  | op => writeOutcome s n z asn op c.io.slba c.io.nlb

/-- The change a successful Zone Send action makes. -/
def applySend (s : State) (n : Ns) (z asn : Nat) (a : ZoneAct) : State :=
  let v := zone s z
  match a with
  | .openZ =>
    -- in the preserve state an opened zone stays as it is (R87)
    if s.adm.preserve ∧ v.st.isOpen then s
    else
      let s := if v.st = .empty then leaveEmpty s n z asn else s
      setZone s z { zone s z with st := .explOpen }
  | .closeZ => if v.st.isOpen then closeZoneAt s z else s
  | .finishZ => if v.st = .full then s else markZone (finishZoneAt s n z asn) z (v.wp / n.bpu)
  | .resetZ => if v.st = .empty then s else markZone (unmapZone s z .empty) z 0
  | .offlineZ => if v.st = .offline then s else markZone (unmapZone s z .offline) z 0

/-- A zone in scope of a Select All action (R66). -/
def inScope (a : ZoneAct) (st : ZState) : Bool :=
  match a, st with
  | .openZ, .closed => true
  | .closeZ, .implOpen | .closeZ, .explOpen => true
  | .finishZ, .implOpen | .finishZ, .explOpen | .finishZ, .closed => true
  | .resetZ, .implOpen | .resetZ, .explOpen | .resetZ, .closed | .resetZ, .full => true
  | .offlineZ, .readOnly => true
  | _, _ => false

/-! The ledger (R90, R94 to R105). -/

/-- Both copies of the ledger buffer hold the records that are not yet durable (R505). -/
def copyLedger (s : State) : State :=
  { s with adm.recs2 := s.adm.recs.filterMap fun l => if l.durable then none else some l.r }

/-- Append a record at the next ASN; the oldest one is overwritten when the ledger is full (R104, R105). DESIGN CHOICE,
log entry 101: a floor of consumed mark + 1 holds no unread record, so a record counts as passed from a floor of mark + 2
on. -/
def addRecord (s : State) (r : LedgerRec) (sealNow : Bool) (id : Nat) : State :=
  let s := { s with adm.recs := s.adm.recs ++ [{ r := r, sealed := sealNow, durable := false, id := id }]
                    adm.nextAsn := s.adm.nextAsn + 1, adm.localSeq := 0 }
  let s := copyLedger s
  let s := if od s 0x2100 0x07 < s.adm.recs.length then
      let s := { s with adm.recs := s.adm.recs.drop 1, adm.floor := s.adm.floor + 1 }
      let s := odSave s 0x2100 0x04 0 (od s 0x2100 0x04 + 1)
      if od s 0x2100 0x05 + 1 < s.adm.floor then
        let s := { s with adm.passed := s.adm.passed + 1 }
        if s.adm.passed % 2 ^ 20 = 1 then loupe s 105 0x21 4 [s.adm.floor] else s
      else s
    else s
  if pairRole s = 1 ∧ 2 ≤ pairPhase s then sendFrame s 0 0x11 [recImage r] else s

/-- Seal the record of an ASN with a status and data check (R99); a lead tells its twin (R301). -/
def sealRecord (s : State) (asn status check : Nat) : State :=
  let done (l : LRec) : LRec :=
    if l.r.asn = asn ∧ !l.sealed then { l with sealed := true, r := { l.r with status := status, dataCheck := check } }
    else l
  let s := copyLedger { s with adm.recs := s.adm.recs.map done }
  if pairRole s = 1 ∧ 2 ≤ pairPhase s then
    match s.adm.recs.find? fun l => l.r.asn == asn with
    | some l => sendFrame s 0 0x11 [recImage l.r]
    | none => s
  else s

/-- Mark the 1 MiB regions of a conventional range in the change record (R319). -/
def markRegions (s : State) (n : Ns) (lba nlb : Nat) : State :=
  if changeRecordOpen s then
    let per := 1048576 / blockBytes n.lbaf
    let new := (List.range ((lba + nlb - 1) / per + 1 - lba / per)).map fun i => (n.nsid, lba / per + i)
    { s with pair.regions := s.pair.regions ++ new.filter fun r => !s.pair.regions.contains r }
  else s

/-- The record of a command at a zone (R96), read from the zone as it stands after the command. -/
def commandRecord (s : State) (n : Ns) (c : Cmd) (z asn status lba : Nat) : LedgerRec :=
  let v := zone s z
  { asn := asn, epoch := od s 0x2100 0x06, rtype := 1
    flags := (if c.origin = 2 then 2 else 0) + (if c.io.selectAll then 4 else 0)
    status := status, zone := z, nsid := n.nsid, lba := lba
    blocks := if opWrites c.op then c.io.nlb else 0
    fn := c.io.fn, queue := c.io.sq, cid := c.io.cid, stateAfter := v.st.code, opcode := opCode c.op
    action := opAction c.op, generation := c.gen % 256, cascade := casPos s
    wpAfter := wpShown (n.startOf z) v, dataCheck := 0, body := 0 }

/-- The record of a change the device makes (R62, R96). -/
def deviceRecord (s : State) (n : Ns) (z asn cause : Nat) : LedgerRec :=
  let v := zone s z
  { asn := asn, epoch := od s 0x2100 0x06, rtype := 2, flags := 0, status := 0, zone := z, nsid := n.nsid
    lba := n.startOf z, blocks := 0, fn := 0xFFFF, queue := 0, cid := 0, stateAfter := v.st.code, opcode := 0
    action := cause, generation := 0, cascade := casPos s, wpAfter := wpShown (n.startOf z) v, dataCheck := 0
    body := 0 }

/-- A record without a zone: epoch or preserve entry (R98). -/
def plainRecord (s : State) (rtype epoch body : Nat) : LedgerRec :=
  { asn := s.adm.nextAsn, epoch := epoch, rtype := rtype, flags := 0, status := 0, zone := 0, nsid := 0, lba := 0
    blocks := 0, fn := 0, queue := 0, cid := 0, stateAfter := 0, opcode := 0, action := 0, generation := 0
    cascade := casPos s, wpAfter := 0, dataCheck := 0, body := body }

/-- Close a zone of the device's own accord, at the next ASN (R68, R71). -/
def deviceClose (s : State) (z cause : Nat) : State :=
  match nsOfZone s z with
  | some n =>
    let asn := s.adm.nextAsn
    let s := closeZoneAt s z
    addRecord s (deviceRecord s n z asn cause) true 0
  | none => s

/-- Enter the preserve state at the next ASN (R85, R235). -/
def enterPreserve (s : State) (g : Nat) : State :=
  if s.adm.preserve then s
  else
    let s := addRecord s (plainRecord s 5 (od s 0x2100 0x06) g) true 0
    -- the last ASN goes to a preserve entry record only, and none remains after it (R92)
    preserveBegins { s with adm.spent := s.adm.spent || s.adm.nextAsn == 2 ^ 64 } g

/-- The body of the placement configuration block of R604 (816 bytes). -/
def configBlock (s : State) : Nat :=
  let geo := (List.range 64).foldl (fun m c =>
    let h := (chan s c).hdr
    m + (if !(chan s c).scripted then 0 else h.rows % 65536 + h.parityBytes % 65536 * 65536) * 2 ^ (32 * c)) 0
  atByte 0 4 0x47464350 + atByte 4 2 1 + atByte 6 2 (rowsR s) + atByte 8 2 (rowsT s) + atByte 10 2 (rowsS s) +
  atByte 12 1 (od s 0x2200 0x03) + atByte 13 1 (ringsN s) + atByte 14 2 (od s 0x2200 0x05) + atByte 16 256 geo +
  atByte 272 544 (ptable s)

/-- Take one due device record (R45). DESIGN CHOICE, log entry 102: the last preserve entry record of R92 names group
0xFFFF where no group's spares ran out. -/
def takeDue (s : State) (d : Due) : State :=
  match d with
  | .restartClose z _ => if (zone s z).st.isOpen then deviceClose s z 2 else s
  | .epochRec digest epoch => addRecord s (plainRecord s 4 epoch digest) true 0
  | .preserve g => enterPreserve s g
  | .lastPreserve =>
    let g := s.adm.preserveGroup.getD 0xFFFF
    let s := addRecord s (plainRecord s 5 (od s 0x2100 0x06) g) true 0
    let s := if s.adm.preserve then s else preserveBegins s g
    { s with adm.spent := true }

/-! The journal (R269 to R272) and the remap section (R97, R104). -/

/-- Append a journal record (R270), in both copies of the tail (R505). -/
def journal (s : State) (typ : Nat) (body : List Nat) : State :=
  { s with jrn.nextLsn := s.jrn.nextLsn + 1
           jrn.tail := s.jrn.tail ++ [{ lsn := s.jrn.nextLsn, typ := typ, body := body }]
           jrn.tail2 := s.jrn.tail2 ++ [{ lsn := s.jrn.nextLsn, typ := typ, body := body }] }

/-- Length of a record in bytes (R270). -/
def jrecBytes (r : JRec) : Nat :=
  8 * [0, 4, 4, 5, 4, 4, 5, 5, 4, 4, 4, 4, 5, 4, 4, 4, 4].getD r.typ 4

def tailBytes (s : State) : Nat := (s.jrn.tail.map jrecBytes).sum

/-- Zone of a block row in a group, or 0xFFFFFFFF for a system, spare or staging row (R97). -/
def zoneOfRow (s : State) (g row : Nat) : Nat :=
  if 8 ≤ row ∧ row < 8 + zoneRows s then (row - 8) * 128 + g else 0xFFFFFFFF

/-- Write a remap record for a durable row-table switch (R97, R104, R233). -/
def addRemap (s : State) (d row old new cause : Nat) : State :=
  let r : Remap := { asn := s.adm.nextAsn - 1, epoch := od s 0x2100 0x06, zone := zoneOfRow s (dieGroup d) row
                     facet := dieFacet d, cause := cause, localSeq := s.adm.localSeq + 1, channel := dieChan d
                     die := d % 32, oldBlock := old, newBlock := new, index := s.adm.nextRemap }
  let s := { s with adm.remaps := s.adm.remaps ++ [r], adm.nextRemap := s.adm.nextRemap + 1
                    adm.localSeq := s.adm.localSeq + 1 }
  if 2 ^ 24 < s.adm.remaps.length then
    { s with adm.remaps := s.adm.remaps.drop 1, adm.remapFloor := s.adm.remapFloor + 1 }
  else s

end Sys2Proof.Machine
end

