-- ==== Sys2Proof/Machine/NsOps.lean ====
section
/-! DEFINITION. Shared operations of Format NVM, namespace deletion and Sanitize, and the end of a command, which lets a
waiting one of them go on (R61, R333, R401, R402, R607). -/

namespace Sys2Proof.Machine

/-! Zones and conventional data. -/

/-- The number of a pool unit in the journal (R270, log entry 128): its row's place among the namespace's rows, and its place in
the row. -/
def poolUnit (n : Ns) (c : Nat) : Nat := n.poolRows.findIdx (· == c / 262144) * 262144 + c % 262144

/-- Every facet of a row is to be erased (R30). -/
def eraseRow (s : State) (z : Nat) : State :=
  setZone s z { zone s z with eraseQueue := List.range 16, eraseLeft := List.range 16, absent := [] }

/-- Return a zone to Empty (R61): its map is unmapped and journalled, and its facets are erased as steps. -/
def emptyZone (erase : Bool) (s : State) (z : Nat) : State :=
  let v := zone s z
  let s := if v.st = .offline then s
    else if v.st = .empty ∧ v.units.isEmpty then s
    else
      let s := markZone (unmapZone s z .empty) z 0
      journal (setZone s z { zone s z with unmapDue := false }) 1 [z, v.lastAdm]
  if erase then eraseRow s z else s

/-- Clear a range of a conventional namespace: its blocks read zeroes and its units are unmapped. -/
def convClear (s : State) (nsid lba nlb : Nat) : State :=
  match ns? s nsid with
  | some n =>
    let gone (l : Nat) : Bool := decide (lba ≤ l) && decide (l < lba + nlb)
    let whole (u : Nat) : Bool := gone (u * n.bpu) && gone (u * n.bpu + n.bpu - 1)
    let s := freeWindow s (n.units.filterMap fun e => if whole e.1 then e.2.held else none)
    let s := markRegions s n lba nlb
    setNs s { n with blocks := kvDrop gone n.blocks, units := kvDrop whole n.units }
  | none => s

/-- Drop all of a conventional namespace's data; rows that have been written, or all of them, are erased. -/
def emptyConv (erase : Bool) (s : State) (n : Ns) : State :=
  let s := freeWindow s (n.units.filterMap fun e => e.2.held)
  let s := markRegions s n 0 n.size
  let s := (n.poolRows.filter fun z => erase || kvGet 0 z n.fill != 0).foldl eraseRow s
  let s := { s with win.convOrder := s.win.convOrder.filter fun e => e.2.1 != n.nsid }
  setNs s { n with blocks := [], units := [], old := [], handles := [], fill := [] }

/-- Empty a namespace. -/
def emptyNs (erase : Bool) (s : State) (n : Ns) : State :=
  if n.zoned then n.zones.foldl (emptyZone erase) s else emptyConv erase s n

/-- The derived key cache with other entries: a page's first entry is its reserved one, and the others come from the
shared pool of 3,568 (R384). -/
def setCache (s : State) (c : List (Nat × List (Nat × Nat))) : State :=
  { s with ciph.cache := c, ciph.shared := c.foldl (fun k e => k - (e.2.length - 1)) 3568 }

/-- The derived keys that `gone` names leave the cache (R384). -/
def dropKeysOf (gone : Nat × Nat → Bool) (s : State) : State :=
  let cut (l : List (Nat × Nat)) : List (Nat × Nat) := l.filter fun k => !gone k
  setCache s (kvMap [] cut s.ciph.cache)

/-- The derived keys of a namespace leave the cache. -/
def dropKeys (s : State) (nsid : Nat) : State := dropKeysOf (fun k => k.1 == nsid) s

/-! Format and deletion. -/

/-- Send a Format, deletion or Sanitize that takes effect at the lead to the follower (R157, R396, R402). -/
def tellFollower (s : State) (body : List Nat) : State :=
  if pairRole s = 1 ∧ s.pair.linkUp then sendFrame s 0 0x04 (10 :: body) else s

/-- The size of a namespace in blocks of another format, with the same zones or the same bytes. -/
def sizeIn (n : Ns) (lbaf : Nat) : Nat :=
  if n.zoned then n.size / zszeOf n.lbaf * zszeOf lbaf else n.size * blockBytes n.lbaf / blockBytes lbaf

/-- A Format takes effect (R401). -/
def formatNs (s : State) (n : Ns) (e : NsEnd) : State :=
  let s := emptyNs e.erase s n
  let root := s.ciph.root.getD 0
  let salt := if e.newKey then e.salt.getD (drawSalt s root n.nsid 1) else n.salt
  let s := if e.newKey then dropKeys (if e.salt.isNone then useDraws s (saltDraws s root n.nsid 1) else s) n.nsid else s
  match ns? s n.nsid with
  | none => s
  | some m =>
    let m := { m with lbaf := e.lbaf, pit := e.pit, size := sizeIn n e.lbaf, salt := salt, ending := none }
    let s := setNs s (if e.newKey then { m with gen := 1, rot := none } else m)
    tellFollower s [0x80, 0, n.nsid, e.lbaf, e.pit, if e.erase then 1 else 0, if e.newKey then 1 else 0, salt]

/-- A deletion takes effect: its rows are unassigned again (R160, R607). -/
def freeNs (s : State) (n : Ns) : State :=
  let s := emptyNs false s n
  let clear (s : State) (z : Nat) : State :=
    setZone s z { eraseLeft := (zone s z).eraseLeft, eraseQueue := (zone s z).eraseQueue }
  let s := (n.zones ++ n.poolRows).foldl clear (dropKeys s n.nsid)
  let off (f : Fn) : Fn := { f with attached := f.attached.filter fun x => x != n.nsid
                                    changed := f.changed.filter fun x => x.1 != n.nsid }
  tellFollower { s with nss := s.nss.filter fun m => m.nsid != n.nsid, host.fns := kvMap {} off s.host.fns }
    [0x0D, 0, n.nsid]

/-! Sanitize (R402). -/

/-- The namespaces take new salts and generation 1. -/
def newSalts : List Nat → List Ns → State → State
  | _, [], s => s
  | salts, n :: more, s =>
    let put (salt : Nat) (s : State) : State := match ns? s n.nsid with
      | some m => setNs s { m with gen := 1, salt := salt, rot := none }
      | none => s
    match salts with
    | x :: rest => newSalts rest more (put x s)
    | [] =>
      let root := s.ciph.root.getD 0
      newSalts [] more (put (drawSalt s root n.nsid 1) (useDraws s (saltDraws s root n.nsid 1)))

/-- Every block of the zone and pool rows is to be erased. -/
def eraseAllRows (s : State) : State :=
  let dirty (z : Nat) : Nat × Zone := (z, { zone s z with eraseQueue := List.range 16, eraseLeft := List.range 16 })
  { s with zones := (List.range (zoneCount s)).map dirty }

/-- Every staging ring is emptied; with erase, all its rows are to be erased. -/
def emptyRings (erase : Bool) (s : State) : State :=
  let all := (List.range (ringRows s)).flatMap fun x => (List.range 16).map (x * 16 + ·)
  if erase then
    let insts := (List.range 1024).filter fun i => decide (i % 8 < ringsN s)
    { s with rings := insts.map fun i => (i, { ring s i with cells := [], unerased := all }) }
  else
    let fresh (r : Ring) : Ring := { r with cells := [] }
    { s with rings := kvMap {} fresh s.rings }

/-- Every namespace and staging row is emptied; a block erase queues every zone, pool and staging block, and the flush
areas, for erase. -/
def emptyAll (erase : Bool) (s : State) : State :=
  let s := emptyRings erase (s.nss.foldl (emptyNs erase) s)
  if erase then { eraseAllRows s with power.images := [] } else s

/-- Send the data-key root to the twin (R304). -/
def sendRoot (s : State) : State :=
  match s.ciph.root with
  | some r => sendFrame s 0 0x04 [7, r]
  | none => s

/-- The sanitize takes effect: the new root takes the place of the old one, in a pair on both twins. -/
def sanitizeEnd (salts : List Nat) (s : State) : State :=
  let s := emptyAll s.ciph.pendingErase s
  let s := { setCache s [] with ciph.stored := s.ciph.pendingRoot, ciph.root := s.ciph.pendingRoot
                                ciph.pendingRoot := none, ciph.pendingErase := false, ciph.erased := false }
  let s := newSalts salts s.nss s
  if pairRole s = 1 ∧ s.pair.linkUp then
    let s := sendRoot s
    tellFollower { s with host.sanitizeStatus := 2 } (0x84 :: 0 :: s.nss.map (·.salt))
  else { s with host.sanitizeStatus := 1 }

/-! The end of a command. -/

/-- Drop a command: its completion goes to the host, to the master that forwarded it, or nowhere when the twin's own port
posts it (R309, R334). -/
def endCmd (s : State) (c : Cmd) (payload : Payload) : State :=
  let s := dropCmd s c.id
  match c.origin with
  | 0 =>
    let s := setFn s c.io.fn { fnc s c.io.fn with commands := (fnc s c.io.fn).commands + 1 }
    let lbaf := match ns? s c.io.nsid with | some n => n.lbaf | none => 0
    post s c.io.fn c.io.sq c.io.cid c.gen c.status c.dw0 c.dw1 payload c.io.pasid c.io.dptr
      (c.io.nlb * extBytes lbaf) c.io.cqAddr
  | 2 =>
    let s := match payload with
      | .blocks l => sendFrame s 1 0x21 ([c.tag, c.io.nsid, c.io.slba] ++ l)
      | .zones l => sendFrame s 1 0x21 ([c.tag, c.io.nsid, c.io.slba] ++ l.flatMap fun d => [d.1, d.2.1, d.2.2.1, d.2.2.2])
      | _ => s
    sendFrame s 1 0x40 [c.tag, c.status, c.dw0, c.dw1, sealedHead s]
  | _ => s

/-- Parts of a command are outstanding at cascade members. -/
def partsOut (s : State) (id : Nat) : Bool := s.casc.members.any fun e => e.2.sent.any fun x => x.2 == id

/-- A Format or deletion goes on once no command of its namespace holds an ASN (R607). -/
def settleNs (s : State) (nsid : Nat) : State :=
  match ns? s nsid with
  | none => s
  | some n => match n.ending with
    | none => s
    | some e =>
      if s.power.hold ≠ .running ∨ s.host.cmds.any (fun k => k.io.nsid == nsid && !k.asns.isEmpty) then s
      else
        let s := if e.delete then freeNs s n else formatNs s n e
        match cmd? s e.cmd with
        | some k => if partsOut s k.id then s else endCmd s k .none
        | none => s

/-- A sanitize goes on once no command holds an ASN. -/
def settleSanitize (s : State) : State :=
  if s.ciph.pendingRoot.isNone ∨ s.host.sanitizeStatus ≠ 2 ∨ s.power.hold ≠ .running ∨
      s.host.cmds.any (fun k => !k.asns.isEmpty) then s
  else sanitizeEnd [] s

/-- End a command the device holds. -/
def finishCmd (s : State) (c : Cmd) (payload : Payload := .none) : State :=
  settleSanitize (settleNs (endCmd s c payload) c.io.nsid)

end Sys2Proof.Machine
end

