-- ==== Sys2Proof/Machine/HostOps2.lean ====
section
/-! DEFINITION. The host I/O path before admission: checks 1 to 6 of R56, starting and forwarding a command, and
serving a read (R15 to R18, R74 to R76, R330, R333). -/

namespace Sys2Proof.Machine

/-- Work of an ended PF era is outstanding, which keeps CSTS.RDY at 0 (R606). -/
def pfBusy (s : State) : Bool := s.host.cmds.any fun k => k.io.fn == 0 && k.gen == staleGen

/-- A function may have commands taken: the device is in service, and the controller enabled and ready (R345, R412,
R606). -/
def accepts (s : State) (n : Nat) : Bool :=
  inService s && !(n == 0 && pfBusy s) && (fnc s n).en && (fnc s n).rdy && (n == 0 || (fnc s n).lens == .online)

/-- ANA state of a namespace at this port (R305, R314, R335): 1 optimized, 2 non-optimized, 3 inaccessible, 4 persistent
loss, 15 change. A namespace with an extent on an absent member is inaccessible, and on a removed one lost (R337). -/
def nsAna (s : State) (n : Ns) : Nat :=
  if s.ciph.erased then 3
  else if n.extents.any fun e => e.2.2 != casPos s && od s 0x5110 0x01 e.2.2 == 3 then 4
  else if n.extents.any fun e => e.2.2 != casPos s && od s 0x5110 0x01 e.2.2 != 2 then 3 else s.pair.ana

/-- Status of an ANA state, none where commands are served (check 5). -/
def anaStatus : Nat → Option Nat
  | 3 => some stAnaInaccessible
  | 4 => some stAnaLoss
  | 15 => some stAnaTransition
  | _ => none

/-- A reservation conflict of a host's command (check 4). -/
def resvConflict (r : Resv) (host : Nat) (isWrite : Bool) : Bool :=
  let registered := (kvGet 0 host r.keys) != 0
  let holder := r.holder == some host
  match r.rtype with
  | 1 => isWrite && !holder
  | 2 => !holder
  | 3 => isWrite && !registered
  | 4 => !registered
  | 5 => isWrite && !registered
  | 6 => !registered
  | _ => false

/-- Commands that pass an admission point (R52). -/
def admits (op : IoOp) (zoned : Bool) : Bool :=
  zoned && match op with
    | .write | .writeZeroes | .zoneAppend | .zoneSend _ => true
    | _ => false

/-- The command moves data, which R55 bounds. -/
def movesData : IoOp → Bool
  | .write | .read | .compare | .zoneAppend => true
  | _ => false

/-- The command names an LBA range or start (check 3): its number of blocks. -/
def rangeLen (op : IoOp) (c : IoCmd) : Option Nat :=
  match op with
  | .write | .read | .compare | .writeZeroes | .verify => some c.nlb
  | .zoneAppend | .zoneReport => some 1
  | .zoneSend _ => if c.selectAll then none else some 1
  | _ => none

/-- The command counts as a write for a reservation. -/
def resvWrites : IoOp → Bool
  | .write | .writeZeroes | .zoneAppend | .zoneSend _ | .flush | .dsm => true
  | _ => false
/-- The command is subject to reservations. -/
def resvChecked : IoOp → Bool
  | .resvRegister | .resvReport | .resvAcquire | .resvRelease | .zoneReport => false
  | _ => true

/-- The operation exists on the namespace's kind (R52). -/
def opOnKind (op : IoOp) (zoned : Bool) : Bool :=
  match op with
  | .zoneAppend | .zoneSend _ | .zoneSetExt | .zoneReport | .zoneExtReport => zoned
  | .other _ => false
  | _ => true

/-- Placement identifier of a directive type 2 write is valid for a placement handle list (R80). -/
def dspecOk (placement : List Nat) (c : IoCmd) : Bool :=
  match c.dspec with
  | none => true
  | some d => field 12 6 d == 0 && field 15 13 d ≤ 7 && decide (field 5 0 d < placement.length)

/-- Checks 1 to 6 of R56: the status of the first that fails. -/
def checks (s : State) (op : IoOp) (c : IoCmd) : Option Nat :=
  let kind := match ns? s c.nsid with
    | some n => n.zoned
    | none => true
  let placement := match ns? s c.nsid with
    | some n => n.placement
    | none => List.range 64
  if !opOnKind op kind then some stOpcode
  else if c.badField || !dspecOk placement c then some stField
  else match ns? s c.nsid with
    | none => some stNamespace
    | some n =>
      if movesData op && decide (2097152 < c.nlb * extBytes n.lbaf) then some stField
      else if !(fnc s c.fn).attached.contains c.nsid then some stNamespace
      else if (match n.ending with | some e => e.delete | none => false) then some stNamespace
      else if n.ending.isSome || s.host.sanitizeStatus == 2 || (s.ciph.erased && pairRole s == 0) then some stNotReady
      else if (match rangeLen op c with | some k => decide (n.lbas < c.slba + k) | none => false) then some stRange
      else if resvChecked op && resvConflict n.resv c.host (resvWrites op) then some stReservation
      else match anaStatus (nsAna s n) with
        | some st => some st
        | none => if admits op n.zoned && s.pair.fenced then some stFenced else none

/-- Pass a crossing (R39): a command leaves it no earlier than the one before it. -/
def passCrossing (s : State) (k : Nat) (c : IoCmd) : State × IoCmd :=
  let t := Nat.max c.cross (kvGet 0 k s.adm.crossed)
  ({ s with adm.crossed := kvPut 0 k t s.adm.crossed }, { c with cross := t })

/-- Take up a command: its granted entry gives the generation it was fetched in (R358), and it passes the crossing of the
own port. -/
def startCmd (s : State) (op : IoOp) (c : IoCmd) : State × Cmd :=
  let same (g : Granted) : Bool := g.io.fn == c.fn && g.io.sq == c.sq && g.io.cid == c.cid
  let gen := match s.host.granted.find? same with
    | some g => g.gen
    | none => curGen s c.fn
  let (s, c) := passCrossing s 0 c
  let k : Cmd := { id := s.host.nextId, op := op, io := c, gen := gen, index := queueIndex c.fn c.sq
                   cls := od s 0x6210 0x02 c.fn }
  ({ s with host.granted := s.host.granted.filter fun g => !same g, host.nextId := s.host.nextId + 1 }, k)

/-- Hold a command in the device. -/
def holdCmd (s : State) (k : Cmd) : State := { s with host.cmds := s.host.cmds ++ [k] }

/-- Take a command of the host: refuse it by checks 1 to 6, or go on with it (R56). A command for a controller that
is not ready is not accepted (log entry 9). -/
def withChecks (s : State) (op : IoOp) (c : IoCmd) (go : State → Cmd → State) : State :=
  if !accepts s c.fn then s
  else
    let (t, k) := startCmd s op c
    match checks s op c with
    | some st => finishCmd t { k with status := st }
    | none => go t k

/-! Forwarding (R309, R330, R333). -/

/-- The ANA group of a namespace: the mask of the positions that hold its extents (R314). -/
def groupOfExtents (s : State) (extents : List (Nat × Nat × Nat)) : Nat :=
  if extents.isEmpty then 2 ^ casPos s else
    ((List.range 4).filter fun p => extents.any fun e => e.2.2 == p).foldl (fun m p => m + 2 ^ p) 0

/-- The 32-byte forwarding header (R330). -/
def forwardHeader (k : Cmd) (first tag : Nat) : Nat :=
  atByte 0 4 k.index + atByte 4 2 k.io.fn + atByte 6 1 k.gen + atByte 7 1 k.cls + atByte 8 8 first +
    atByte 16 8 (k.check.getD 0) + atByte 24 4 tag

/-- Forward a part of a command to a cascade member, under a master tag. -/
def forwardPart (s : State) (k : Cmd) (pos first : Nat) : State :=
  let tag := s.casc.nextTag
  let m := member s pos
  let s := setMember s pos { m with sent := m.sent ++ [(tag, k.id)] }
  let s := { s with casc.nextTag := tag + 1 }
  let s := odBump s 0x5110 0x03 pos
  sendFrame s pos 0x41 (forwardHeader k first tag :: ioFields k.op k.io)

/-- Cascade positions other than this one that hold an extent, in ascending order. -/
def remotePositions (s : State) (n : Ns) : List Nat :=
  (List.range 4).filter fun p => p != casPos s && n.extents.any fun e => e.2.2 == p

/-- Host LBA at which the extent of an LBA begins (R330). -/
def extentFirst (n : Ns) (lba : Nat) : Nat :=
  match n.extents.find? fun e => decide (e.1 ≤ lba / n.zsze) && decide (lba / n.zsze < e.1 + e.2.1) with
  | some e => e.1 * n.zsze
  | none => 0

/-- Drop leading zones of a Select All command that are out of scope when the action reaches them (R66). -/
def trimZones (s : State) (k : Cmd) : List Nat :=
  match k.op with
  | .zoneSend a => k.zonesLeft.dropWhile fun z => !inScope a (zone s z).st
  | _ => k.zonesLeft

/-- End a command whose records are final: at once, or after the twin's acknowledgement while joined (R32, R312). -/
def conclude (s : State) (k : Cmd) : State :=
  if joined s ∧ !k.acked ∧ k.asns ≠ [] then setCmd s { k with stage := .dataIn, dataHere := true }
  else finishCmd s k

/-- Bring a held command to its admission point: here, or at the lead for a follower (R299, R309). A Select All that the
lead already has goes on there. -/
def seekPoint (s : State) (k : Cmd) : State :=
  if pairRole s ≠ 2 then setCmd s { k with stage := .point }
  else
    let s := setCmd s { k with stage := .forwarded }
    if s.pair.asked.contains k.id then s
    else sendFrame { s with pair.asked := s.pair.asked ++ [k.id] } 0 0x10 ([k.index, k.io.fn, k.gen] ++ ioFields k.op k.io)

/-- Zones of this controller in an extent. -/
def extentZones (n : Ns) (e : Nat × Nat × Nat) : List Nat :=
  n.zones.filter fun z => decide (e.1 * n.zsze ≤ n.startOf z) && decide (n.startOf z < (e.1 + e.2.1) * n.zsze)

/-- Go on with a Zone Send after one zone: more zones, the next extent of a Select All on a cascade, the unmaps of a reset,
or the end (R28, R66, R333). -/
def sendProgress (s : State) (k : Cmd) : State :=
  let left := trimZones s k
  let waitsOr (s : State) (k : Cmd) : State :=
    if partsOut s k.id then setCmd s { k with stage := .forwarded }
    else if k.unmapLeft ≠ [] then setCmd s { k with stage := .unmap }
    else conclude s k
  if k.io.selectAll ∧ left ≠ [] then seekPoint s { k with zonesLeft := left }
  else
    let k := { k with zonesLeft := [] }
    let s := { s with pair.asked := s.pair.asked.filter fun i => i != k.id }
    match k.posLeft, ns? s k.io.nsid with
    | i :: rest, some n =>
      let e := n.extents.getD i default
      if e.2.2 ≠ casPos s then
        forwardPart (setCmd s { k with posLeft := rest, stage := .forwarded }) k e.2.2 (e.1 * n.zsze)
      else seekPoint s { k with posLeft := rest, zonesLeft := extentZones n e }
    | _, _ => waitsOr s k

/-- Start a Select All (R66, R333): zone by zone in ascending LBA, extent by extent on a cascade, whose extents are listed
in ascending LBA. -/
def startAll (s : State) (n : Ns) (k : Cmd) : State :=
  let k := { k with zonesLeft := if n.extents.isEmpty then n.zones else [], posLeft := List.range n.extents.length }
  sendProgress (holdCmd s k) k

/-- The command acts on no zone: of a Select All, no zone in scope here and no extent elsewhere. -/
def allIdle (s : State) (n : Ns) (k : Cmd) : Bool :=
  match k.op with
  | .zoneSend a => !(n.zones.any fun z => inScope a (zone s z).st) && (remotePositions s n).isEmpty
  | _ => true

/-- Bring a changing command to its admission point: here, at the lead for a follower (R299, R309), or at the member
that holds the zone (R330). Once no ASN remains it completes with 0xC6 (R92). -/
def toPoint (s : State) (n : Ns) (k : Cmd) : State :=
  match (if k.io.selectAll then none else n.posOf k.io.slba) with
  | some p =>
    if p ≠ casPos s then forwardPart (holdCmd s { k with stage := .forwarded }) k p (extentFirst n k.io.slba)
    else if s.adm.spent ∧ pairRole s ≠ 2 then finishCmd s { k with status := stPreserve }
    else
      let k := { k with zone := (n.zoneOf k.io.slba).getD 0 }
      seekPoint (holdCmd s k) k
  | none =>
    if k.io.selectAll && allIdle s n k then finishCmd s k
    else if s.adm.spent ∧ pairRole s ≠ 2 then finishCmd s { k with status := stPreserve }
    else if k.io.selectAll then startAll s n k
    else
      let k := { k with zone := (n.zoneOf k.io.slba).getD 0 }
      seekPoint (holdCmd s k) k

/-- Placement engine dispatch grants a unit's request in a class (R44): 0 read, 1 write, 2 background. Each grant finds one
requester of its class, and the class pointer moves past it (R41). -/
def placeGrant (s : State) (cls unit : Nat) : State :=
  { s with sched.placePtrs := s.sched.placePtrs.set cls ((unit + 1) % 6) }

/-! Conventional writes (R82, R114, R313). -/

/-- A conventional write takes its sequence here, or asks the lead for it (R82, R313). In the preserve state it fails
with 0xC6 (R87). -/
def convWrite (s : State) (k : Cmd) : State :=
  if s.adm.preserve then finishCmd s { k with status := stPreserve }
  else if pairRole s = 2 then
    let s := holdCmd s { k with stage := .order }
    sendFrame s 0 0x13 [k.id, k.io.nsid, k.io.slba, k.io.nlb]
  else
    let s := placeGrant s 1 1
    let s := { s with win.convSeq := s.win.convSeq + 1
                      win.convOrder := s.win.convOrder ++ [(s.win.convSeq, k.io.nsid, k.io.slba, k.io.nlb)] }
    let s := if pairRole s = 1 ∧ 2 ≤ pairPhase s then
        sendFrame s 0 0x13 [0, k.io.nsid, k.io.slba, k.io.nlb, s.win.convSeq - 1] else s
    holdCmd s { k with stage := .waitData, convSeq := some (s.win.convSeq - 1) }

/-- Go on with the ranges of a Deallocate in a pair: each is written as zeroes in the lead's order. -/
def convRanges (s : State) (k : Cmd) (l : List (Nat × Nat)) : State :=
  match l with
  | [] => finishCmd s k
  | r :: rest => convWrite (dropCmd s k.id)
      { k with io := { k.io with slba := r.1, nlb := r.2 }, ranges := rest, dataHere := false, acked := false }

/-! The path code along a data path (R13, R38, R223, R499, R504). -/

/-- A window unit that no copy in step can replace is lost (R284, R504). A conventional unit is named by 2^32 and its
namespace. -/
def loseUnit (s : State) (z u : Nat) : State :=
  let s := odBump (journal s 8 [z, 4, 0, u]) 0x9100 0x09
  if 2 ^ 32 ≤ z then match ns? s (z - 2 ^ 32) with
    | some n => setNs s { n with units := kvPut {} u { kvGet {} u n.units with lost := true } n.units }
    | none => s
  else setZone s z { zone s z with units := kvPut {} u { kvGet {} u (zone s z).units with lost := true } (zone s z).units }

/-- An uncorrectable codeword of a window unit: the twin's copy is fetched where it is in step, else the unit is lost. -/
def windowLost (s : State) (z u : Nat) : State :=
  let inStep := if 2 ^ 32 ≤ z then !s.pair.regions.contains (z - 2 ^ 32, u / 256) else (zone s z).marked.isNone
  if s.pair.linkUp ∧ joined s ∧ inStep then
    loupe (sendFrame s 0 0x12 [0, z, u, 1]) 504 0x91 5 [z, u]
  else loupe (loseUnit s z u) 504 0x91 6 [z, u]

/-- A staging SRAM correction (R223): counted, with its second reading clean or not. A buffer with a lasting fault leaves
its pool when it is returned (R508). -/
def sramCorrected (s : State) (second : Bool) : State :=
  let s := odBump s 0x9100 0x02
  if second then loupe (odBump s 0x4000 0x09) 225 0x91 1 [] else loupe (odBump s 0x4000 0x0A) 225 0x91 5 []

/-- An uncorrectable SRAM or FIFO codeword (R504): counted, and what it held decides. Read data is read again by the command
that carries it. -/
def sramLost (s : State) (h : Held) : State :=
  let s := odBump s 0x9100 0x05
  match h with
  | .windowUnit z u => windowLost s z u
  | _ => loupe s 504 0x91 4 []

/-- Each block that reads a buffer or a FIFO checks and corrects the path code first (R13, R38). -/
def sramPath (s : State) (p : SramPath) : State :=
  let s := match p.staging with
    | .clean => s
    | .corrected second => sramCorrected s second
    | .uncorrectable h => sramLost s h
  match p.fifo with
  | .clean => s
  | .corrected _ => odBump s 0x9100 0x03
  | .uncorrectable h => sramLost s h

/-- The data did not come through. -/
def SramPath.bad (p : SramPath) : Bool :=
  match p.staging, p.fifo with
  | .uncorrectable _, _ | _, .uncorrectable _ => true
  | _, _ => false

/-! Reads (R15 to R17, R74 to R76). -/

/-- First LBA of a command's data: an append's is the assigned one. -/
def cmdLba (k : Cmd) : Nat := if k.op = .zoneAppend then k.dw0 + k.dw1 * 2 ^ 32 else k.io.slba

/-- The zone of an admitted write has been reset since: its data belongs to no block any more (R74, R76). -/
def overtaken (s : State) (k : Cmd) : Bool :=
  match k.asns.getLast? with
  | some a => decide (a < (zone s k.zone).unmapAsn)
  | none => false

/-- Commands whose admitted data for an LBA of a zone has not reached power-protected state (R16). -/
def pendingWriter (s : State) (nsid lba : Nat) : Option Nat :=
  (s.host.cmds.find? fun k => k.io.nsid == nsid && (k.stage == .admitted || k.stage == .waitData) &&
    (k.op == .write || k.op == .zoneAppend) && !k.asns.isEmpty && !k.dataHere && !overtaken s k &&
    decide (cmdLba k ≤ lba) && decide (lba < cmdLba k + k.io.nlb)).map (·.id)

/-- A block of a read returns zeroes without media access: at or after the write pointer or the finish point (R74,
R146). -/
def blockZero (s : State) (n : Ns) (lba : Nat) : Bool :=
  if n.zoned then match n.zoneOf lba with
    | some z =>
      let v := zone s z
      let off := n.offset lba
      v.st == .empty || v.st == .offline || (v.st != .full && decide (v.wp ≤ off)) || decide (n.zcap ≤ off) ||
        (match v.finish with | some f => decide (f ≤ off) | none => false)
    | none => true
  else (kvGet {} (lba / n.bpu) n.units).loc == .none

/-- Stored form of a block: 0 where nothing is stored, which reads as zeroes, and at or after the write pointer or the finish
point (R74, R146). -/
def blockAt (s : State) (n : Ns) (lba : Nat) : Nat :=
  if blockZero s n lba then 0
  else if n.zoned then match n.zoneOf lba with
    | some z => kvGet 0 (n.offset lba) (zone s z).blocks
    | none => 0
  else kvGet 0 lba n.blocks

/-- Unit map entry of a namespace unit (unit number = LBA ÷ blocks per unit). -/
def unitAt (s : State) (n : Ns) (u : Nat) : UnitSt :=
  if n.zoned then match n.zoneOf (u * n.bpu) with
    | some z => kvGet {} (n.offset (u * n.bpu) / n.bpu) (zone s z).units
    | none => {}
  else kvGet {} u n.units

/-- Every block that a read takes from a unit returns zeroes without media access. -/
def unitZero (s : State) (n : Ns) (lbas : List Nat) (u : Nat) : Bool :=
  (lbas.filter fun l => l / n.bpu == u).all (blockZero s n)

/-- The cell that holds a staged unit: the oldest one it has, until a carry's copy is programmed (R137). -/
def cellOf (s : State) (n : Ns) (z u c : Nat) : Nat :=
  let x := (z, n.offset (u * n.bpu) / n.bpu)
  (((ring s ((zone s z).ring.getD 0)).cells.find? fun e => e.2 == x).map (·.1)).getD c

/-- Where a unit's data stands on the media: place, and whether in SLC. -/
def unitLoc (s : State) (n : Ns) (u : Nat) : Option (Loc × Bool) :=
  let z := (n.zoneOf (u * n.bpu)).getD 0
  match (unitAt s n u).loc with
  | .staged c => some (ringLoc s ((zone s z).ring.getD 0) (cellOf s n z u c), true)
  | .qlc => some (prism z n.pn (n.offset (u * n.bpu) / n.bpu), false)
  | .pool c => some (prismAt (c / 262144 % 128) (c / 262144 / 128) n.pn (c % 262144), false)
  | _ => none

/-- The media read of one unit. -/
def rdUnit (s : State) (n : Ns) (rid u cls : Nat) : Option RdUnit :=
  (unitLoc s n u).map fun (l, slc) =>
    let z := match (unitAt s n u).loc with
      | .pool c => c / 262144
      | _ => (n.zoneOf (u * n.bpu)).getD 0
    let w := foldOf (16 - n.pn) (n.offset (u * n.bpu) / n.bpu)
    { rid := rid, unit := u, zone := z, group := l.group, facet := l.facet, row := l.row, page := l.page
      plane := l.plane, cw := l.cw, parity := l.parity, slc := slc, cls := cls
      noDirect := match (unitAt s n u).loc with
        | .staged c => (ring s ((zone s z).ring.getD 0)).absent.contains (cellOf s n z u c)
        | .pool c => (zone s (c / 262144)).absent.contains (c % 262144)
        | _ => n.zoned && (kvGet {} w (zone s z).folds).absent.contains l.facet }

/-- Units that a range of blocks touches. -/
def unitsOf (bpu lba nlb : Nat) : List Nat :=
  (List.range ((lba + nlb - 1) / bpu + 1 - lba / bpu)).map (lba / bpu + ·)

/-- Status of a field of protection information that differs (R14). -/
def stPi : PiField → Nat
  | .guard => stGuard
  | .app => stAppTag
  | .ref => stRefTag

/-- A protection information mismatch fails the command with the field's status and records a severity-6 event (R14). -/
def piStatus (s : State) (k : Cmd) (bad : Option PiField) : State × Cmd :=
  match bad with
  | some f => (loupe s 14 0x10 6 [k.io.nsid, k.io.slba], { k with status := if k.status = 0 then stPi f else k.status })
  | none => (s, k)

/-- The blocks of a read as extended data LBAs. -/
def readData (s : State) (k : Cmd) : List Nat :=
  match ns? s k.io.nsid with
  | some n => k.snap.map fun v => n.flip (v.getD 0)
  | none => k.snap.map (·.getD 0)

/-- Complete a read whose data has all arrived: its protection information is checked (R14), Compare decides, Read
returns the blocks (R65, R76). -/
def readDone (s : State) (k : Cmd) : State :=
  let data := readData s k
  let (s, k) := piStatus s k (if k.status ≠ 0 then none else (ns? s k.io.nsid).bind fun n => piFails n k.io data)
  let k := if k.status = 0 ∧ k.op = .compare ∧ k.cmp ≠ data then { k with status := stCompare } else k
  let s := setFn s k.io.fn { fnc s k.io.fn with
    readUnits := (fnc s k.io.fn).readUnits + (if k.op = .read ∧ k.status = 0 then k.io.nlb else 0) }
  finishCmd s k (if k.op = .read ∧ k.status = 0 then .blocks data else .none)

/-- Complete a read once nothing is awaited. -/
def tryRead (s : State) (id : Nat) : State :=
  match cmd? s id with
  | some k =>
    if (k.stage = .reading ∨ k.stage = .forwarded) ∧ k.waits = [] ∧ k.need = [] ∧ k.snap.all (·.isSome) ∧ k.snap ≠ [] then
      readDone s k
    else s
  | none => s

/-- An unrecovered read of a unit (R220): counted, logged, and the reliability condition begins (R251). -/
def unrecovered (s : State) (nsid fn unit : Nat) : State :=
  let s := odBump s 0x4000 0x0F
  let bpu := match ns? s nsid with | some n => n.bpu | none => 1
  let s := { s with health.errors := s.health.errors ++ [(nsid, unit * bpu)] }
  let s := setFn s fn { fnc s fn with mediaErrors := (fnc s fn).mediaErrors + 1 }
  let s := loupe s 220 0x40 6 [nsid, unit]
  reliability s nsid

/-- Resolve a read and serve it (R76): zeroes and window units at once, media units through the die scheduler, the
data of pending writes once it has arrived. -/
def serveRead (s : State) (n : Ns) (k : Cmd) : State :=
  let lbas := (List.range k.io.nlb).map (k.io.slba + ·)
  let local? (lba : Nat) : Bool := match n.posOf lba with
    | some p => p == casPos s
    | none => true
  let offl := n.zoned && lbas.any fun l => match n.zoneOf l with
    | some z => local? l && (zone s z).st == .offline
    | none => false
  if offl then finishCmd s { k with status := stOffline }
  else
    let units := (unitsOf n.bpu k.io.slba k.io.nlb).filter fun u => local? (u * n.bpu) && !unitZero s n lbas u
    match units.find? fun u => (unitAt s n u).lost with
    | some u => finishCmd (unrecovered s n.nsid k.io.fn u) { k with status := stUnrecovered }
    | none =>
      let remote := (lbas.filter fun l => !local? l)
      let away (u : Nat) : Bool := pairRole s == 2 && pairPhase s == 3 &&
        (zone s ((n.zoneOf (u * n.bpu)).getD 0)).marked.isSome
      let far := units.filter away
      let media := units.filterMap fun u => if away u then none else rdUnit s n k.id u k.cls
      let snap := lbas.map fun l =>
        if local? l && (pendingWriter s n.nsid l).isNone && (blockZero s n l || !away (l / n.bpu)) then
          some (blockAt s n l) else none
      let waits := lbas.foldl (fun acc l => match pendingWriter s n.nsid l with
        | some i => addTo i acc
        | none => acc) []
      let s := placeGrant s 0 0
      let k := { k with stage := .reading, snap := snap, waits := waits, need := media.map (·.unit) ++ far }
      let s := holdCmd s k
      let s := { s with reads := s.reads ++ media }
      let s := far.foldl (fun s u => sendFrame s 0 0x12 [k.id, (n.zoneOf (u * n.bpu)).getD 0, u]) s
      let s := ((List.range 4).filter fun p => p != casPos s && remote.any fun l => n.posOf l == some p).foldl
        (fun s p => forwardPart s k p 0) s
      tryRead s k.id

end Sys2Proof.Machine
end

