-- ==== Sys2Proof/Machine/HostIo.lean ====
section
/-! DEFINITION. The host I/O commands of R52. -/

namespace Sys2Proof.Machine

/-- The namespace of a command, once its checks have passed. -/
def withNs (s : State) (k : Cmd) (f : Ns → State) : State :=
  match ns? s k.io.nsid with
  | some n => f n
  | none => finishCmd s { k with status := stNamespace }

/-- Flush (R54, R333): every write completed before it has completed, so it ends at once on this controller; parts on
other controllers are awaited. -/
def execFlush (c : IoCmd) (s : State) : Host.Outcome State Fault Refusal :=
  .next (withChecks s .flush c fun s k => withNs s k fun n =>
    match remotePositions s n with
    | [] => finishCmd s k
    | ps => ps.foldl (fun s p => forwardPart s k p 0) (holdCmd s { k with stage := .forwarded }))

/-- Write (R69, R80, R82). -/
def execWrite (c : IoCmd) (s : State) : Host.Outcome State Fault Refusal :=
  .next (withChecks s .write c fun s k => withNs s k fun n => if n.zoned then toPoint s n k else convWrite s k)

/-- Read (R74 to R76). -/
def execRead (c : IoCmd) (s : State) : Host.Outcome State Fault Refusal :=
  .next (withChecks s .read c fun s k => withNs s k fun n => serveRead s n k)

/-- Compare (R65): read as a Read, then compared with the host's data. -/
def execCompare (c : IoCmd) (data : List Nat) (s : State) : Host.Outcome State Fault Refusal :=
  .next (withChecks s .compare c fun s k => withNs s k fun n => serveRead s n { k with cmp := data })

/-- Write Zeroes (R69): as a write on a zoned namespace. On a conventional one the range is zeroed; in a pair it takes
its place in the order of the writes (R313), and WRITE_DATA_FETCH applies it. -/
def execWriteZeroes (c : IoCmd) (s : State) : Host.Outcome State Fault Refusal :=
  .next (withChecks s .writeZeroes c fun s k => withNs s k fun n =>
    if n.zoned then toPoint s n k
    else if pairRole s ≠ 0 then convWrite s k
    else if s.adm.preserve then finishCmd s { k with status := stPreserve }
    else finishCmd (convClear s n.nsid c.slba c.nlb) k)

/-- Dataset Management (R53, R87): hints change nothing; deallocate fails on zoned namespaces. In a pair each range takes
its place in the order of the writes, as zeroes (R114, log entry 91). -/
def execDatasetManagement (c : IoCmd) (deallocate : Bool) (ranges : List (Nat × Nat)) (s : State) :
    Host.Outcome State Fault Refusal :=
  .next (withChecks s .dsm c fun s k => withNs s k fun n =>
    if deallocate && n.zoned then finishCmd s { k with status := stField }
    else if !deallocate then finishCmd s k
    else if ranges.any fun r => decide (n.lbas < r.1 + r.2) then finishCmd s { k with status := stRange }
    else if s.adm.preserve then finishCmd s { k with status := stPreserve }
    else if pairRole s ≠ 0 then convRanges s k (ranges.filter fun r => r.2 != 0)
    else finishCmd (ranges.foldl (fun s r => convClear s n.nsid r.1 r.2) s) k)

/-- Verify (R65): served as a read, with no data transferred. -/
def execVerify (c : IoCmd) (s : State) : Host.Outcome State Fault Refusal :=
  .next (withChecks s .verify c fun s k => withNs s k fun n => serveRead s n k)

/-! Reservations (R52, check 4 of R56), after the NVM Express command set (log entry 14). -/

/-- Finish with a new reservation state. -/
def resvDone (s : State) (k : Cmd) (n : Ns) (r : Resv) (status : Nat) (p : Payload := .none) : State :=
  finishCmd (setNs s { n with resv := r }) { k with status := status } p

/-- All registrants hold a reservation of types 5 and 6. -/
def allHold (rtype : Nat) : Bool := rtype == 5 || rtype == 6

/-- Remove a registrant; a reservation that loses its holder, or its last registrant, ends. -/
def resvRemove (r : Resv) (host : Nat) : Resv :=
  let keys := kvPut 0 host 0 r.keys
  if (allHold r.rtype && keys.isEmpty) || (!allHold r.rtype && r.holder == some host) then
    { r with keys := keys, rtype := 0, holder := none }
  else { r with keys := keys }

/-- Reservation Register: action 0 register, 1 unregister, 2 replace. -/
def execReservationRegister (c : IoCmd) (action crkey nrkey : Nat) (s : State) : Host.Outcome State Fault Refusal :=
  .next (withChecks s .resvRegister c fun s k => withNs s k fun n =>
    let r := n.resv
    let cur := kvGet 0 c.host r.keys
    match action with
    | 0 =>
      if cur ≠ 0 ∧ cur ≠ nrkey then resvDone s k n r stReservation
      else resvDone s k n { r with keys := kvPut 0 c.host nrkey r.keys, gen := r.gen + 1 } stOk
    | 1 =>
      if cur = 0 ∨ cur ≠ crkey then resvDone s k n r stReservation
      else resvDone s k n { resvRemove r c.host with gen := r.gen + 1 } stOk
    | 2 =>
      if cur = 0 ∨ cur ≠ crkey then resvDone s k n r stReservation
      else resvDone s k n { r with keys := kvPut 0 c.host nrkey r.keys, gen := r.gen + 1 } stOk
    | _ => resvDone s k n r stField)

/-- Reservation Report: generation, type, holder and registrants. -/
def execReservationReport (c : IoCmd) (s : State) : Host.Outcome State Fault Refusal :=
  .next (withChecks s .resvReport c fun s k => withNs s k fun n =>
    let r := n.resv
    finishCmd s k (.words ([r.gen, r.rtype, (r.holder.map (· + 1)).getD 0, r.keys.length] ++
      r.keys.flatMap fun e => [e.1, e.2])))

/-- Reservation Acquire: action 0 acquire, 1 preempt, 2 preempt and abort. -/
def execReservationAcquire (c : IoCmd) (action crkey prkey rtype : Nat) (s : State) :
    Host.Outcome State Fault Refusal :=
  .next (withChecks s .resvAcquire c fun s k => withNs s k fun n =>
    let r := n.resv
    let mine := kvGet 0 c.host r.keys
    if mine = 0 ∨ mine ≠ crkey then resvDone s k n r stReservation
    else if rtype = 0 ∨ 6 < rtype ∨ 2 < action then resvDone s k n r stField
    else if action = 0 then
      if r.rtype = 0 then resvDone s k n { r with rtype := rtype, holder := some c.host } stOk
      else if (r.holder = some c.host ∨ allHold r.rtype) ∧ r.rtype = rtype then resvDone s k n r stOk
      else resvDone s k n r stReservation
    else
      let victims := (r.keys.filter fun e => e.1 != c.host &&
        (e.2 == prkey || (prkey == 0 && allHold r.rtype))).map (·.1)
      let holdsIt := match r.holder with
        | some h => kvGet 0 h r.keys == prkey
        | none => false
      let takes := r.rtype != 0 && (if allHold r.rtype then prkey == 0 else holdsIt)
      if victims = [] ∧ !takes then resvDone s k n r stReservation
      else
        let r' : Resv := { r with keys := kvDrop (fun h => victims.contains h) r.keys, gen := r.gen + 1 }
        resvDone s k n (if takes then { r' with rtype := rtype, holder := some c.host } else r') stOk)

/-- Reservation Release: action 0 release, 1 clear. -/
def execReservationRelease (c : IoCmd) (action crkey rtype : Nat) (s : State) : Host.Outcome State Fault Refusal :=
  .next (withChecks s .resvRelease c fun s k => withNs s k fun n =>
    let r := n.resv
    let mine := kvGet 0 c.host r.keys
    if mine = 0 ∨ mine ≠ crkey then resvDone s k n r stReservation
    else match action with
      | 0 =>
        if r.holder = some c.host ∨ (allHold r.rtype ∧ r.rtype ≠ 0) then
          if r.rtype = rtype then resvDone s k n { r with rtype := 0, holder := none } stOk
          else resvDone s k n r stField
        else resvDone s k n r stOk
      | 1 => resvDone s k n { gen := r.gen + 1 } stOk
      | _ => resvDone s k n r stField)

/-! Zone Management (R65, R66, R70). -/

/-- Zone Append goes to the admission point of the zone that holds ZSLBA (R70). -/
def execZoneAppend (c : IoCmd) (s : State) : Host.Outcome State Fault Refusal :=
  .next (withChecks s .zoneAppend c fun s k => withNs s k fun n => toPoint s n k)

/-- A Zone Management Send goes to its zones' admission points (R65, R66). -/
def zoneSend (a : ZoneAct) (c : IoCmd) (s : State) : State :=
  withChecks s (.zoneSend a) c fun s k => withNs s k fun n => toPoint s n k

def execOpenZone (c : IoCmd) (s : State) : Host.Outcome State Fault Refusal := .next (zoneSend .openZ c s)
def execCloseZone (c : IoCmd) (s : State) : Host.Outcome State Fault Refusal := .next (zoneSend .closeZ c s)
def execFinishZone (c : IoCmd) (s : State) : Host.Outcome State Fault Refusal := .next (zoneSend .finishZ c s)
def execResetZone (c : IoCmd) (s : State) : Host.Outcome State Fault Refusal := .next (zoneSend .resetZ c s)

/-- Background steps that hold a zone and cannot be abandoned: an erase, rewrite or rotation of one of its facets
that runs now (R83, R84). A suspended erase is between its steps. -/
def zoneStep (s : State) (z : Nat) : Bool :=
  (groupDies (groupOf z)).any fun d =>
    let dd := die s d
    match dd.st with
    | .erasing | .suspending | .resuming => dd.erase == some (rowBlock s d (rowOf z))
    | .programming | .programInSuspend => (match dd.job with
        | some (.copy y _) => y == z
        | _ => false)
    | _ => false

/-- Wait that 0xC8 reports (R83, R84): the remaining time of the running step, which the model does not hold, in units of
100 µs from 1 to one slot (log entry 106). -/
def stepWait (s : State) : Nat := 1 + freeVal s % ceilDiv s.sched.slotUs 100

/-- Refuse a command with 0xC8 (R83). -/
def refuseStep (s : State) (k : Cmd) : State := finishCmd (useFree s) { k with status := stStep, dw0 := stepWait s }

/-- Zone Management Send Offline: refused with 0xC8 while a step holds the zone (R83), else as the other actions. DESIGN
CHOICE, log entry 105: the refusal stands after checks 1 to 6 of R56 and before check 7, so it takes no ASN and leaves no
record, whatever the zone's state. -/
def execOfflineZone (c : IoCmd) (s : State) : Host.Outcome State Fault Refusal :=
  let held := match ns? s c.nsid with
    | some n => if c.selectAll then n.zones.any fun z => inScope .offlineZ (zone s z).st && zoneStep s z
                else (match n.zoneOf c.slba with | some z => zoneStep s z | none => false)
    | none => false
  .next (if held then
      withChecks s (.zoneSend .offlineZ) c refuseStep
    else zoneSend .offlineZ c s)

/-- Set Zone Descriptor Extension fails in every state (R65). DESIGN CHOICE, log entry 104: it fails at check 1, so it takes
no ASN and leaves no record. -/
def execSetZoneDescriptorExtension (c : IoCmd) (s : State) : Host.Outcome State Fault Refusal :=
  .next (withChecks s .zoneSetExt c fun s k => finishCmd s { k with status := stField })

/-- Descriptors of this controller's zones from an LBA on: start, state, attributes, write pointer (R60, R63). -/
def zoneDescs (s : State) (n : Ns) (lba : Nat) : List (Nat × Nat × Nat × Nat) :=
  (n.zones.filter fun z => decide (n.zslba lba ≤ n.startOf z)).map fun z =>
    (n.startOf z, (zone s z).st.code, if (zone s z).rzr then 4 else 0, wpShown (n.startOf z) (zone s z))

/-- The matching option, by the state code of a descriptor (R60, R77). -/
def optionMatches (option code : Nat) : Bool :=
  option == 0 || code == [0, 0x1, 0x2, 0x3, 0x4, 0xE, 0xD, 0xF].getD option 0

/-- What a Report Zones returns of descriptors in LBA order (R77): the count, then those that fit. -/
def reportPayload (n : Ns) (option : Nat) (part : Bool) (limit : Nat) (l : List (Nat × Nat × Nat × Nat)) : Payload :=
  let l := l.filter fun d => optionMatches option d.2.1
  let ds := l.take limit
  .zones ((if part then ds.length else l.length, n.zcap, 0, 0) :: ds)

/-- Descriptors in the flat form of a member's answer. -/
def descsOf : List Nat → List (Nat × Nat × Nat × Nat)
  | a :: b :: c :: d :: rest => (a, b, c, d) :: descsOf rest
  | _ => []

/-- The report of a Report Zones whose members have answered (R333). -/
def reportDone (s : State) (k : Cmd) : State :=
  match ns? s k.io.nsid, k.ranges with
  | some n, (option, part) :: (limit, _) :: _ =>
    let l := (zoneDescs s n k.io.slba ++ descsOf k.data).mergeSort fun a b => a.1 ≤ b.1
    finishCmd s k (reportPayload n option (part == 1) limit l)
  | _, _ => finishCmd s k

/-- Report Zones (R60, R77, R333): the zones from the start LBA on, with those of the members that hold extents. -/
def execReportZones (c : IoCmd) (option : Nat) (part : Bool) (limit : Nat) (s : State) :
    Host.Outcome State Fault Refusal :=
  .next (withChecks s .zoneReport c fun s k => withNs s k fun n =>
    -- the descriptors that fit the host's buffer, which R55 bounds with the 64-byte header
    if 7 < option ∨ 2097152 < 64 + 64 * limit then finishCmd s { k with status := stField }
    else match remotePositions s n with
      | [] => finishCmd s k (reportPayload n option part limit (zoneDescs s n c.slba))
      | ps => ps.foldl (fun s p => forwardPart s k p 0)
          (holdCmd s { k with stage := .forwarded, ranges := [(option, if part then 1 else 0), (limit, 0)] }))

/-- Extended Report Zones is not supported (R77). -/
def execExtendedReportZones (c : IoCmd) (s : State) : Host.Outcome State Fault Refusal :=
  .next (withChecks s .zoneExtReport c fun s k => finishCmd s { k with status := stField })

/-- An opcode outside the table fails (R52). -/
def execUnsupportedIoCommand (c : IoCmd) (opcode : Nat) (s : State) : Host.Outcome State Fault Refusal :=
  .next (withChecks s (.other opcode) c fun s k => finishCmd s { k with status := stOpcode })

end Sys2Proof.Machine
end

