-- ==== Sys2Proof/Machine/Admission.lean ====
section
/-! DEFINITION. The admission unit and the persistence of its records: the ASN sequencer, data fetch, completion,
ledger, journal and checkpoints (R16, R22 to R28, R45, R70 to R73, R99, R100, R139, R272, R608). -/

namespace Sys2Proof.Machine

/-- Changing commands are held before check 7: a full protected set, a full journal ring, or a handover (R255, R272,
R325). -/
def holdFull (s : State) : Bool :=
  s.adm.holdAll || decide (131072 ≤ (s.adm.recs.filter fun r => !r.durable).length) ||
  decide (25165824 ≤ tailBytes s) || decide (26 * 2 ^ 30 < s.jrn.pages.length * 4096)

/-- The zone whose admission point a command waits at, none when it waits at no point. -/
def pointZone (s : State) (k : Cmd) : Option Nat :=
  if k.stage ≠ .point then none
  else if k.io.selectAll then (trimZones s k).head? else some k.zone

/-- Earliest crossing of a list of commands (R39). -/
def earliest (l : List Cmd) : List Cmd :=
  match (l.map (·.io.cross)).min? with
  | some t => l.filter fun k => k.io.cross == t
  | none => []

/-- The pick of one zone's admission point (R44, R93): the earliest crossing; of the same cycle, the rotating rule
over the global queue index; of one queue, in order. -/
def zonePick (s : State) (z : Nat) (l : List Cmd) : Option Cmd :=
  let e := earliest l
  match rotPick (kvGet 0 z s.adm.zonePtr) (e.map (·.index)) with
  | some i => e.find? fun k => k.index == i
  | none => none

/-- The picks of all zones, held ones among them. -/
def zonePicks (s : State) : List (Nat × Cmd) :=
  let waiting := s.host.cmds.filterMap fun k => (pointZone s k).map fun z => (z, k)
  let zs := waiting.foldl (fun l e => addTo e.1 l) []
  zs.filterMap fun z => (zonePick s z ((waiting.filter fun e => e.1 == z).map (·.2))).map fun k => (z, k)

/-- The sequencer's choice among the picks, and its pointer (R45): it moves only when the rotation decides. A held command
is no pick until its hold ends, and its zone offers no other (R93, R139). -/
def seqPick (s : State) : Option (Nat × Cmd × Nat) :=
  let ps := (zonePicks s).filter fun e => !e.2.held
  match (ps.map fun e => e.2.io.cross).min? with
  | none => none
  | some t =>
    let e := ps.filter fun e => e.2.io.cross == t
    match rotPick s.adm.seqPtr (e.map fun e => e.2.index) with
    | none => none
    | some i => match e.find? fun e => e.2.index == i with
      | some x => some (x.1, x.2, if e.length = 1 then s.adm.seqPtr else i + 1)
      | none => none

/-- Number of ring cells that a successful command would allocate (R134). -/
def cellsNeeded (s : State) (n : Ns) (k : Cmd) (z : Nat) : Nat :=
  let v := zone s z
  match k.op with
  | .write | .writeZeroes | .zoneAppend =>
    (unitsCompleted n.bpu v.wp (v.wp + k.io.nlb) (decide (n.zcap ≤ v.wp + k.io.nlb))).length
  | .zoneSend .finishZ => if v.st = .empty then 0 else (unitsCompleted n.bpu v.wp v.wp true).length
  | _ => 0

/-- The ring in which a command's record would allocate cells: the zone's, or the one it would take (R132). -/
def ringFor (s : State) (z : Nat) : Option Nat :=
  match (zone s z).ring with
  | some r => some r
  | none => ringChoice s z s.adm.nextAsn

/-- The record would allocate a cell in a ring row that is not yet erased (R139). -/
def rowHeld (s : State) (n : Ns) (k : Cmd) (z : Nat) : Bool :=
  match ringFor s z with
  | some inst => allocBlocked s inst (cellsNeeded s n k z)
  | none => false

/-- The admission points hold the picks whose record would allocate a cell in a ring row that is not yet erased, each
counted at its ring (R139, OD 0x2220:04). -/
def holdPicks (s : State) : State :=
  (zonePicks s).foldl (fun s e =>
    let (z, k) := e
    match ns? s k.io.nsid with
    | some n =>
      if !k.held ∧ (outcome s n k z s.adm.nextAsn).status = stOk ∧ rowHeld s n k z then
        odBump (setCmd s { k with held := true }) 0x2220 0x04 ((ringFor s z).getD 0)
      else s
    | none => s) s

/-- Mark the units of a run of blocks as held in the window for a function (R255); a unit that no record has completed
waits there (R134). -/
def holdUnits (s : State) (z : Nat) (fn : Nat) (us : List Nat) : State :=
  us.foldl (fun s u =>
    let v := zone s z
    let e := kvGet {} u v.units
    if e.held.isSome then s
    else
      let loc := if e.loc = .none then .window none else e.loc
      let s := setZone s z { v with units := kvPut {} u { e with held := some fn, loc := loc } v.units }
      let s := { s with win.used := s.win.used + 1 }
      setFn s fn { fnc s fn with winUnits := (fnc s fn).winUnits + 1 }) s

/-- A command that takes its ASN with a failing status (R57): the record carries it; a write refused in the preserve
state takes its zone Read Only (R85). DESIGN CHOICE, log entry 103: a Select All whose action fails at one zone goes on
with the others, and completes with the first failing status. -/
def admitFail (s : State) (n : Ns) (k : Cmd) (z asn : Nat) (o : ZOut) : State :=
  let s := if o.readOnly then enterReadOnly s z asn else s
  let lba := match k.op with | .zoneSend _ => n.startOf z | _ => k.io.slba
  let s := addRecord s (commandRecord s n k z asn o.status lba) true k.id
  let s := if o.readOnly then reliability (zoneChanged s n.nsid (n.startOf z)) n.nsid else s
  let k := { k with status := if k.status = 0 then o.status else k.status, asns := k.asns ++ [asn] }
  if k.io.selectAll then sendProgress (setCmd s k) { k with zonesLeft := k.zonesLeft.drop 1 } else conclude s k

/-- Room in the window for n more units of a function (R23, R256, R264, R342): none while the 4 KiB pool is in
back-pressure (R528). -/
def windowRoom (s : State) (fn n : Nat) : Bool :=
  let size := Nat.min s.win.effectiveMiB (od s 0x8400 0x01)
  let q := od s 0x6210 0x04 fn
  decide ((pool s 1).state < 2) && decide (s.win.used + n ≤ size * 256) && (q == 0 || decide ((fnc s fn).winUnits + n ≤ q * 256))

/-- A write or append that passes check 7 (R22, R69, R70). Write Zeroes has no data to fetch: its record is final. -/
def admitWrite (s : State) (n : Ns) (k : Cmd) (z asn : Nat) : State :=
  let v := zone s z
  let lba := if k.op = .zoneAppend then n.startOf z + v.wp else k.io.slba
  let s := advance (placeGrant s 1 1) n z asn k.io.nlb false
  let rec0 := commandRecord s n k z asn stOk lba
  let k := { k with asns := k.asns ++ [asn]
                    dw0 := if k.op = .zoneAppend then lba % 2 ^ 32 else 0
                    dw1 := if k.op = .zoneAppend then lba / 2 ^ 32 else 0 }
  if k.op = .writeZeroes then
    let s := addRecord s { rec0 with dataCheck := dataCheck n.lbaf (List.replicate k.io.nlb 0) } true k.id
    -- its zeroes take window room like any data (R23): at once, or once there is room
    if windowRoom s k.io.fn (unitsOf n.bpu v.wp k.io.nlb).length then
      conclude (setCmd (holdUnits s z k.io.fn (unitsOf n.bpu v.wp k.io.nlb)) k) k
    else setCmd s { k with stage := .waitData }
  else
    let s := addRecord s rec0 false k.id
    setCmd s { k with stage := .waitData }

/-- A Zone Send that passes check 7 (R28, R65): a reset awaits its unmap. -/
def admitSend (s : State) (n : Ns) (k : Cmd) (z asn : Nat) (a : ZoneAct) : State :=
  let was := (zone s z).st
  let s := applySend s n z asn a
  let s := addRecord s (commandRecord s n k z asn stOk (n.startOf z)) true k.id
  let s := if a = .offlineZ ∧ was ≠ .offline then reliability s n.nsid else s
  let k := { k with asns := k.asns ++ [asn], zonesLeft := k.zonesLeft.drop 1
                    unmapLeft := if a = .resetZ ∧ was ≠ .empty then k.unmapLeft ++ [z] else k.unmapLeft }
  sendProgress (setCmd s k) k

/-- Check 7 for a command at a zone (R56, R57): an implicit close in a slot of its own, or its record. A granted pick
moves its zone's pointer (R41). -/
def admitPick (s : State) (z : Nat) (k : Cmd) : State :=
  match ns? s k.io.nsid with
  | none => finishCmd s { k with status := stNamespace }
  | some n =>
    let asn := s.adm.nextAsn
    let o := outcome s n k z asn
    match o.close with
      | some y => { deviceClose s y 1 with adm.afterClose := some k.id }
      | none =>
        let s := { s with adm.afterClose := none, adm.zonePtr := kvPut 0 z (k.index + 1) s.adm.zonePtr }
        let s := setZone s z { zone s z with lastAdm := asn }
        if o.status ≠ stOk then admitFail s n { k with zonesLeft := trimZones s k } z asn o
        else match k.op with
          | .zoneSend a => admitSend s n { k with zonesLeft := trimZones s k } z asn a
          | _ => admitWrite s n k z asn

/-- Once no ASN remains, commands at their points complete with 0xC6 (R92). -/
def endSpent (s : State) : State :=
  (s.host.cmds.filter fun k => k.stage == .point).foldl (fun s k => finishCmd s { k with status := stPreserve }) s

/-- Select All commands with no zone left in scope go on (R66). -/
def settleSelectAll (s : State) : State :=
  (s.host.cmds.filter fun k => k.stage == .point && k.io.selectAll && (trimZones s k).isEmpty).foldl
    (fun s k => sendProgress s k) s

/-- Keep the before-images of the zones whose records an operation admits, until those records are durable (R283). -/
def withUndo (f : State → State) (s : State) : State :=
  let t := f s
  let new := t.adm.recs.filter fun l => decide (s.adm.nextAsn ≤ l.r.asn) && decide (l.r.rtype ≤ 2)
  let image (l : LRec) : Undo :=
    let r := match (zone t l.r.zone).ring with
      | some r => r
      | none => (zone s l.r.zone).ring.getD 0
    { asn := l.r.asn, zone := l.r.zone, image := zone s l.r.zone, ring := r, counter := (ring s r).c }
  { t with adm.undo := t.adm.undo ++ new.map image }

/-- One slot of the ASN sequencer (R45): the command after an implicit close, a due device record, else the pick. -/
def execAsnSequencerPick (s : State) : Host.Outcome State Fault Refusal :=
  .next (withUndo (fun s =>
    if !inService s || pairRole s == 2 || s.pair.fenced then s
    else if s.adm.spent then endSpent { s with adm.due := [] }
    else if s.adm.nextAsn = 2 ^ 64 - 1 then endSpent (takeDue s .lastPreserve)
    else match s.adm.afterClose.bind (cmd? s) with
      | some k => admitPick s ((pointZone s k).getD k.zone) k
      | none => match s.adm.due with
        | d :: rest => takeDue { s with adm.due := rest } d
        | [] =>
          if holdFull s then s
          else
            let s := holdPicks (settleSelectAll s)
            match seqPick s with
            | some (z, k, ptr) => admitPick { s with adm.seqPtr := ptr } z k
            | none => s) s)

/-- The zone that a command at its admission point acts on next. -/
def actsOn (s : State) (k : Cmd) : Nat := if k.io.selectAll then (trimZones s k).headD k.zone else k.zone

/-- A held command becomes a pick once the ring row has been erased (R139). -/
def execAdmissionHoldRelease (ringNo row : Nat) (s : State) : Host.Outcome State Fault Refusal :=
  .next (if rowUnerased s ringNo row then s
    else { s with host.cmds := s.host.cmds.map fun k =>
      if k.held ∧ groupOf (actsOn s k) = ringNo / 8 then { k with held := false } else k })

/-! Data (R14, R16, R23, R73). -/

/-- Give arrived blocks to the reads that waited for a command's data (R16). -/
def feedReads (s : State) (w : Cmd) (data : List Nat) : State :=
  let lba := cmdLba w
  (s.host.cmds.filter fun r => r.waits.contains w.id).foldl (fun s r =>
    let snap := r.snap.zipIdx.map fun (v, i) =>
      let l := r.io.slba + i
      if v.isNone ∧ lba ≤ l ∧ l < lba + w.io.nlb then some (data.getD (l - lba) 0) else v
    tryRead (setCmd s { r with snap := snap, waits := r.waits.filter fun i => i != w.id }) r.id) s

/-- Reads that waited for the data of a write that has ended without it take what is stored (R16). -/
def settleReads (s : State) : State :=
  let gone (i : Nat) : Bool := (cmd? s i).isNone
  (s.host.cmds.filter fun r => r.waits.any gone).foldl (fun s r =>
    let waits := r.waits.filter fun i => !gone i
    let snap := match ns? s r.io.nsid with
      | some n => r.snap.zipIdx.map fun (v, i) =>
          let l := r.io.slba + i
          if v.isNone && (pendingWriter s n.nsid l).isNone && !r.need.contains (l / n.bpu) then some (blockAt s n l) else v
      | none => r.snap.map fun v => some (v.getD 0)
    tryRead (setCmd s { r with snap := snap, waits := waits }) r.id) s

/-- Store a zoned write's blocks in the window. Those of a zone that has been reset since belong to no block (R74). -/
def storeZone (s : State) (n : Ns) (k : Cmd) (z : Nat) (data : List Nat) : State :=
  if overtaken s k then s
  else
    let v := zone s z
    let off := n.offset (cmdLba k)
    let s := setZone s z { v with blocks := kvPutRun 0 off data v.blocks }
    holdUnits s z k.io.fn (unitsOf n.bpu off k.io.nlb)

/-- The reclaim unit handle of a conventional write (R79, R80): reclaim group × 64 + handle. Without FDP, or without
directive type 2, it is placement handle 0 of reclaim group 0. -/
def handleOf (s : State) (n : Ns) (c : IoCmd) : Nat :=
  match (if s.host.fdp then c.dspec else none) with
  | some d => field 15 13 d * 64 + n.placement.getD (field 5 0 d) 0
  | none => n.placement.getD 0 0

/-- Put the blocks of one conventional write of a sequence into a namespace: a block that a later sequence has written
keeps it (R114, R313). -/
def putConv (n : Ns) (seq lba : Nat) (data : List Nat) : Ns :=
  data.zipIdx.foldl (fun n (v, i) =>
    if kvGet 0 (lba + i) n.seqs ≤ seq then
      { n with blocks := kvPut 0 (lba + i) v n.blocks, seqs := kvPut 0 (lba + i) seq n.seqs }
    else n) n

/-- The units that a write keeps the content of before it, for the durable map that still names it (R283). -/
def keepOld (n : Ns) (us : List Nat) : Kv (UnitSt × List Nat) :=
  us.foldl (fun m u => if m.any (fun e => e.1 == u) then m
    else kvPut ({}, []) u (kvGet {} u n.units, kvRun 0 (u * n.bpu) n.bpu n.blocks) m) n.old

/-- Store a conventional write's blocks in the window (R82, R114). -/
def storeConv (s : State) (n : Ns) (k : Cmd) (data : List Nat) : State :=
  let seq := k.convSeq.getD 0
  let us := unitsOf n.bpu k.io.slba k.io.nlb
  let fresh := us.filter fun u => (kvGet {} u n.units).held.isNone
  let put (m : Kv UnitSt) (u : Nat) : Kv UnitSt := kvPut {} u
    { kvGet {} u m with loc := .window none, lost := false, asn := Nat.max seq (kvGet {} u m).asn, keyGen := n.gen
                        held := some k.io.fn, handle := handleOf s n k.io } m
  let m := putConv n seq k.io.slba data
  let s := setNs s { m with units := us.foldl put n.units, old := keepOld n us }
  let s := markRegions s n k.io.slba k.io.nlb
  let s := { s with win.used := s.win.used + fresh.length, host.fdpHost := s.host.fdpHost + k.io.nlb * blockBytes n.lbaf
                    win.convOrder := s.win.convOrder.filter fun e => some e.1 != k.convSeq }
  setFn s k.io.fn { fnc s k.io.fn with winUnits := (fnc s k.io.fn).winUnits + fresh.length }

/-- An overlapping conventional write of a lower sequence is not yet applied (R313). -/
def convBefore (s : State) (k : Cmd) : Bool :=
  s.win.convOrder.any fun e => decide (e.1 < k.convSeq.getD 0) && e.2.1 == k.io.nsid &&
    decide (e.2.2.1 < k.io.slba + k.io.nlb) && decide (k.io.slba < e.2.2.1 + e.2.2.2)

/-- A unit as a frame carries it: a write's blocks over the stored ones. -/
def frameUnit (bpu lba nlb : Nat) (data : List Nat) (stored : Kv Nat) (u : Nat) : List Nat :=
  (List.range bpu).map fun i =>
    let l := u * bpu + i
    if lba ≤ l ∧ l < lba + nlb then data.getD (l - lba) 0 else kvGet 0 l stored

/-- The descriptor of a write data frame (R299): ASN, zone or NSID, unit offset, data check. -/
def dataDescriptor (asn key unit check : Nat) : Nat := atByte 0 8 asn + atByte 8 4 key + atByte 12 4 unit + atByte 16 8 check

/-- Tell the twin that a write's data does not come: a write data frame without a unit, whose check field carries the status
of the record (R359, R404, log entry 131). -/
def tellStopped (s : State) (asn key status : Nat) : State :=
  if pairRole s ≠ 0 ∧ 2 ≤ pairPhase s then sendFrame s 0 0x20 [dataDescriptor asn key 0 status] else s

/-- Send a write's units to a port as write data frames (R299, R301): the descriptor, then the stored unit. A zone's units
count from the zone's start on the Mirror link, and from the namespace's on a cascade. -/
def sendData (s : State) (port : Nat) (n : Ns) (k : Cmd) (key asn : Nat) (data : List Nat) : State :=
  let lba := if n.zoned ∧ port = 0 then n.offset (cmdLba k) else k.io.slba
  let stored := if port ≠ 0 then [] else if n.zoned then (zone s k.zone).blocks else n.blocks
  let us := unitsOf n.bpu lba k.io.nlb
  us.zipIdx.foldl (fun s (u, i) => sendFrame s port 0x20
    (dataDescriptor asn key u (if i + 1 = us.length then dataCheck n.lbaf data else 0) ::
      frameUnit n.bpu lba k.io.nlb data stored u)) s

/-- A write's data is power-protected here (R23, R24): it is stored, and goes to the twin that holds a copy, as sent. A
conventional write that fails stores nothing. -/
def dataArrived (s : State) (n : Ns) (k : Cmd) (kept sent : List Nat) (bad : Option Nat) : State :=
  let void := !n.zoned && bad.isSome
  let s := if n.zoned then storeZone s n k k.zone kept
           else if void then { s with win.convOrder := s.win.convOrder.filter fun e => some e.1 != k.convSeq }
           else storeConv s n k kept
  let k := { k with dataHere := true, stage := .dataIn, data := kept, status := bad.getD k.status
                    acked := k.acked || void }
  let s := setCmd s k
  let s := setFn s k.io.fn { fnc s k.io.fn with writeUnits := (fnc s k.io.fn).writeUnits + k.io.nlb }
  let s := if n.zoned ∧ sent = [] then tellStopped s (k.asns.getLastD 0) k.zone (bad.getD 0)
    else if pairRole s ≠ 0 ∧ 2 ≤ pairPhase s ∧ !void then
      sendData s 0 n k (if n.zoned then k.zone else n.nsid)
        (if n.zoned then k.asns.getLastD 0 else 2 ^ 63 + k.convSeq.getD 0) sent else s
  let s := if void then tellStopped s (2 ^ 63 + k.convSeq.getD 0) n.nsid (bad.getD 0) else s
  feedReads s k kept

/-- A write whose data cannot be encrypted ends with Internal Error over zeroes (R404). -/
def dataUnkeyed (s : State) (k : Cmd) : State :=
  match ns? s k.io.nsid with
  | some n => dataArrived s n k (List.replicate k.io.nlb 0) [] (some stInternal)
  | none => s

/-- The command has no data in host memory: its blocks are zeroes (R69, R114). -/
def zeroData : IoOp → Bool
  | .writeZeroes | .dsm => true
  | _ => false

/-- The DMA engine fetches an admitted write's data once the window has room, under the path code on the way in, and its
protection information is checked (R13, R14, R23). With the root erased nothing is fetched, and the write ends as R404
says. -/
def execWriteDataFetch (id : Nat) (data metadata : List Nat) (staging fifo : PathRes) (s : State) :
    Host.Outcome State Fault Refusal :=
  let path : SramPath := ⟨staging, fifo⟩
  .next (match cmd? s id with
    | none => s
    | some k => match ns? s k.io.nsid with
      | none => s
      | some n =>
        let sent := n.extendAll k.io.nlb data metadata
        let stored := if zeroData k.op then List.replicate k.io.nlb 0
          else n.toStored (remapped n k.io (k.op == .zoneAppend) (cmdLba k) sent)
        if s.ciph.erased ∧ k.stage = .waitData ∧ !k.dataHere ∧ k.origin = 0 then dataUnkeyed s k
        else if k.stage = .forwarded ∧ k.origin = 0 ∧ opWrites k.op then
          -- a master fetches for its member and sends ciphertext (R330, R332)
          match n.posOf k.io.slba with
          | some p => if p = casPos s then s else sendData (sramPath s path) p n k n.nsid (k.asns.getLastD 0) stored
          | none => s
        else if k.stage ≠ .waitData ∨ k.dataHere ∨ k.origin ≠ 0 then s
        else if !windowRoom s k.io.fn (unitsOf n.bpu (cmdLba k) k.io.nlb).length then s
        else if !n.zoned ∧ convBefore s k then s
        else
          let bad := if zeroData k.op then none else piFails n k.io sent
          let (s, k) := piStatus s k bad
          let kept := if bad.isSome then List.replicate k.io.nlb 0 else stored
          -- a follower's lead makes the check too, and gives the record its status (R111)
          sramPath (dataArrived s n k kept (if pairRole s = 2 then stored else kept) (bad.map stPi)) path)

/-- When all of a write's data is power-protected, and the twin has acknowledged where one is joined, its record is
sealed and its completion posted (R24, R32, R99, R100). -/
def execPostWriteCompletion (id : Nat) (s : State) : Host.Outcome State Fault Refusal :=
  .next (match cmd? s id with
    | none => s
    | some k =>
      if !k.dataHere ∨ k.stage ≠ .dataIn ∨ (joined s ∧ !k.acked) then s
      else
        let lbaf := match ns? s k.io.nsid with | some n => n.lbaf | none => 0
        let s := match k.asns.getLast? with
          | some asn => if opWrites k.op ∧ k.op ≠ .writeZeroes then
              sealRecord s asn k.status (dataCheck lbaf k.data) else s
          | none => s
        convRanges s k k.ranges)

/-! Persistence of records (R272, R608). -/

/-- Sealed records are programmed in ASN order (R608). -/
def execLedgerRowProgram (s : State) : Host.Outcome State Fault Refusal :=
  let head := sealedHead s
  .next (copyLedger { s with adm.recs := s.adm.recs.map fun l => if l.r.asn ≤ head then { l with durable := true } else l
                             adm.undo := s.adm.undo.filter fun e => decide (head < e.asn) })

/-- Every ASN record up to an ASN is durable. -/
def durableTo (s : State) (asn : Nat) : Bool := s.adm.recs.all fun l => l.durable || decide (asn < l.r.asn)

/-- Remap records are programmed once the ASN records they follow are durable (R608). -/
def execRemapRecordProgram (s : State) : Host.Outcome State Fault Refusal :=
  .next { s with adm.remaps := s.adm.remaps.map fun r => if durableTo s r.asn then { r with durable := true } else r }

/-- Records of the tail that fill one page: 4,060 bytes (R269). -/
def pageTake : Nat → List JRec → List JRec
  | _, [] => []
  | room, r :: t => if jrecBytes r ≤ room then r :: pageTake (room - jrecBytes r) t else []

/-- What a record does once durable: a fold commit frees its unit's ring cells (R147, R271), a row-table switch has
its remap record written (R233). -/
def onDurable (s : State) (r : JRec) : State :=
  match r.typ, r.body with
  | 2, z :: w :: asn :: _ =>
    match (zone s z).ring, (kvGet {} w (zone s z).folds).completeAsn == asn with
    | some inst, true =>
      let pn := zonePn s z
      let g := ring s inst
      setRing s inst { g with cells := g.cells.filter fun e => !(e.2.1 == z && foldOf (16 - pn) e.2.2 == w) }
    | _, _ => s
  | 4, d :: row :: old :: new :: cause :: _ => addRemap s d row old new cause
  | 6, nsid :: units :: first :: _ =>
    match ns? s nsid with
    | some n => setNs s { n with old := kvDrop (fun u => first ≤ u && decide (u < first + units)) n.old }
    | none => s
  | _, _ => s

/-- A sealed journal page is programmed, which makes its records durable (R272). -/
def execJournalPageProgram (s : State) : Host.Outcome State Fault Refusal :=
  let rs := pageTake 4060 s.jrn.tail
  .next (if rs = [] then s
    else
      let s := { s with jrn.tail := s.jrn.tail.drop rs.length, jrn.tail2 := s.jrn.tail.drop rs.length
                        jrn.durable := s.jrn.durable ++ rs
                        jrn.pageSeq := s.jrn.pageSeq + 1, jrn.sinceBegin := s.jrn.sinceBegin + 4096
                        jrn.pages := s.jrn.pages ++ [(s.jrn.pageSeq + 1, (rs.head?.map (·.lsn)).getD 0, rs.length, od s 0x2100 0x06)]
                        power.clean := rs.getLast?.any fun r => r.typ == 14 }
      rs.foldl onDurable s)

/-- A checkpoint begins after each 1 GiB of journal (R272). -/
def execCheckpointBegin (s : State) : Host.Outcome State Fault Refusal :=
  .next (if s.jrn.sinceBegin < 2 ^ 30 ∨ s.jrn.running.isSome then s
    else
      let lsn := s.jrn.nextLsn
      let s := journal s 9 [s.jrn.ckpt + 1, s.adm.nextAsn]
      { s with jrn.ckpt := s.jrn.ckpt + 1, jrn.running := some lsn, jrn.sinceBegin := 0 })

/-- The checkpoint's end record, whose page count and check follow from the slices' own layout (free values, log entry
128); once it is durable, the pages older than the begin record are freed (R272). -/
def execCheckpointEnd (s : State) : Host.Outcome State Fault Refusal :=
  let isEnd (r : JRec) : Bool := r.typ == 10 && r.body.head? == some s.jrn.ckpt
  .next (match s.jrn.running with
    | none => s
    | some b =>
      if s.jrn.durable.any isEnd then
        { s with jrn.durable := s.jrn.durable.filter fun r => decide (b ≤ r.lsn)
                 jrn.beginLsn := b, jrn.running := none
                 jrn.pages := s.jrn.pages.filter fun p => decide (b < p.2.1 + p.2.2.1) }
      else if s.jrn.tail.any isEnd then s
      else useFree (journal s 10 [s.jrn.ckpt, freeVal s, freeVal (useFree s)]))

/-- The unmap of a reset zone's row is journalled, which protects it, and the reset's completion is posted (R28). -/
def execResetStepUnmap (id z : Nat) (s : State) : Host.Outcome State Fault Refusal :=
  .next (if !(zone s z).unmapDue then s
    else
      let s := journal s 1 [z, (zone s z).unmapAsn]
      let s := setZone s z { zone s z with unmapDue := false }
      match cmd? s id with
      | none => s
      | some k =>
        let k := { k with unmapLeft := k.unmapLeft.filter fun y => y != z }
        if k.stage = .unmap then sendProgress (setCmd s k) k else setCmd s k)

end Sys2Proof.Machine
end

