-- ==== Sys2Proof/Machine/Media.lean ====
section
/-! DEFINITION. Shared operations of the dies: contract states, holes, the die queue, retirement and fold commits
(R147, R166 to R201, R221 to R245, R264). -/

namespace Sys2Proof.Machine

/-! Contract groups (R173, R174, R199, R200, R356). -/

/-- Causes of R200 present for a group. -/
def groupCauses (s : State) (g : Nat) : Nat :=
  (if (grp s g).d ≤ holes s g then 1 else 0) + (if groupTests s g then 0 else 2) +
  (if holding s then 4 else 0)

/-- Post the contract-state changes of lenses since their last event (R356). -/
def lensContractEvents (s : State) : State :=
  (s.host.fns.map (·.1)).foldl (fun s l =>
    let f := fnc s l
    let c := contractState s l
    if c = 2 ∧ !f.contractSuspended then aen (setFn s l { f with contractSuspended := true }) l 7 2
    else if c ≠ 2 ∧ f.contractSuspended then
      let s := setFn s l { f with contractSuspended := false }
      if c = 1 then aen s l 7 3 else s
    else s) s

/-- Look at the causes of a group again: a held group with a cause is suspended, and a change of a suspended group's
mask is recorded (R200). A joining group takes its state at a frame boundary, or at once in hold-up. -/
def updateGroup (s : State) (g : Nat) : State :=
  if !isContract s g then s
  else
    let gr := grp s g
    let c := groupCauses s g
    let s := if c ≠ 0 then setGrp s g { gr with causeInFrame := true } else s
    let gr := grp s g
    if c ≠ 0 ∧ (gr.state = 2 ∨ (gr.state = 1 ∧ c.testBit 2)) then
      loupe (setGrp s g { gr with state := 3, causes := c }) 200 0x31 5 [g, c]
    else if gr.state = 3 ∧ gr.causes ≠ c then loupe (setGrp s g { gr with causes := c }) 200 0x31 5 [g, c]
    else s

/-- Look at groups again, and tell the lenses. -/
def updateGroups (s : State) (gs : List Nat) : State := lensContractEvents (gs.foldl updateGroup s)

/-- The effective window follows the channels in service (R264). A committed reduction takes effect once the occupancy has
fallen to it (R256). -/
def updateWindow (s : State) : State :=
  let w := od s 0x8400 0x01
  let eff := if energyReq s w ≤ od s 0x8400 0x02 then w else largestWindow s
  if eff = s.win.effectiveMiB ∨ (eff = w ∧ w < s.win.effectiveMiB ∧ w * 256 < s.win.used) then s
  else
    let t := { s with win.effectiveMiB := eff }
    if eff < w ∧ eff < s.win.effectiveMiB then loupe t 264 0x84 4 [eff] else t

/-! Health warnings (R251). -/

/-- The spare-low and wear conditions, each posted once when it begins. -/
def healthWarnings (s : State) : State :=
  let low := decide (availableSpare s < od s 0x4010 0x06)
  let worn := decide (od s 0x4010 0x07 ≤ percentUsed s)
  let s := if low && !s.health.spareLow && !s.adm.preserve then warnAll s 1 2 else s
  let s := if worn && !s.health.worn then (enabledFns s).foldl (fun s n => aen s n 7 1) s else s
  { s with health.spareLow := low, health.worn := worn }

/-! Spares and retirement (R226 to R237). -/

/-- The unused spares of a die (R232). -/
def unusedSpares (s : State) (d : Nat) : List Nat :=
  let dd := die s d
  let base := rowsR s - rowsT s - rowsS s
  let surplus := (List.range (dd.good - rowsR s)).map fun i => goodBlock dd (rowsR s + i)
  let band := (List.range (rowsS s - bandGap s d)).map fun i => goodBlock dd (base + i)
  dd.returned ++ (band ++ surplus).filter fun b => !dd.taken.contains b

/-- The unused spare block of lowest physical number (R232): a returned block, else stock in ascending order. -/
def spareBlock (s : State) (d : Nat) : Option Nat := (unusedSpares s d).min?

/-- Take a block out of the unused spares. -/
def takeSpare (s : State) (d b : Nat) : State :=
  let dd := die s d
  setDie s d (if dd.returned.contains b then { dd with returned := dd.returned.erase b }
              else { dd with taken := dd.taken ++ [b] })

/-- The spares of a die's group are exhausted when the die holds no more than the reserve (R234, R235). -/
def exhausted (s : State) (d : Nat) : State :=
  let g := dieGroup d
  let due := s.adm.due.any fun e => match e with
    | .preserve _ => true
    | _ => false
  if s.adm.preserve || due || decide (od s 0x4010 0x05 < spares s d) then s
  else if pairRole s = 2 then
    if s.pair.linkUp ∧ joined s then sendFrame s 0 0x04 [5, g] else { s with adm.reportDue := some g }
  else { s with adm.due := s.adm.due ++ [.preserve g] }

/-- Queue a rewrite of a block in a zone or pool row, once; urgent work precedes normal (R226). Staging and system
rows take none (R228). -/
def queueRewrite (s : State) (d row : Nat) (urgent : Bool) : State :=
  let dd := die s d
  let b := rowBlock s d row
  if row < 8 ∨ 8 + zoneRows s ≤ row then s
  else match dd.rewrites.find? fun r => r.block == b with
    | some r => if urgent && !r.urgent then
        setDie s d { dd with rewrites := dd.rewrites.map fun x => if x.block = b then { x with urgent := true } else x }
      else s
    | none =>
      let r : Rewrite := { block := b, row := row, zone := zoneOfRow s (dieGroup d) row, facet := dieFacet d
                           urgent := urgent, cause := 2 }
      setDie s d { dd with rewrites := dd.rewrites ++ [r] }

/-- Retire a block: it awaits a spare and its copy (R233). -/
def retire (s : State) (d b : Nat) : State :=
  let dd := die s d
  let row := blockRow s d b
  let r : Rewrite := { block := b, row := row, zone := zoneOfRow s (dieGroup d) row, facet := dieFacet d
                       urgent := true, cause := 1 }
  let s := setDie s d { dd with rewrites := (dd.rewrites.filter fun x => x.block != b) ++ [r] }
  loupe s 225 0x40 5 [d, b]

/-- A transient media fault of a block: counted, and after E within 24 hours a normal rewrite (R223, R224). -/
def transientMedia (s : State) (d row : Nat) : State :=
  let s := odBump (odBump s 0x4000 0x01) 0x4020 0x05 d
  let s := loupe s 225 0x40 1 [d, row]
  let b := rowBlock s d row
  let now := s.health.seconds
  let dd := die s d
  let fs := (dd.faults.filter fun f => decide (now < f.2 + 86400)) ++ [(b, now)]
  let s := setDie s d { dd with faults := fs }
  if od s 0x4010 0x0A ≤ (fs.filter fun f => f.1 == b).length then queueRewrite s d row false else s

/-- A lasting media fault (R223, R225). -/
def lastingMedia (s : State) (d row : Nat) : State :=
  loupe (odBump (odBump s 0x4000 0x02) 0x4020 0x06 d) 225 0x40 4 [d, row]

/-! Units on the media (R128, R143 to R147, R239). -/

/-- Move a staged unit's fold to the head of its group's queue (R228). -/
def urgentFold (s : State) (z w : Nat) : State :=
  let v := zone s z
  setZone s z { v with folds := kvPut {} w { kvGet {} w v.folds with urgent := true } v.folds }

/-- A unit's buffer leaves the write window (R144, R255). -/
def unholdUnit (s : State) (z u : Nat) : State :=
  let v := zone s z
  let e := kvGet {} u v.units
  match e.held with
  | some f => freeWindow (setZone s z { v with units := kvPut {} u { e with held := none } v.units }) [f]
  | none => s

/-- Room in the fold cache: it holds less than its size, and the 4 KiB pool is in no warning state (R144). -/
def cacheRoom (s : State) : Bool :=
  decide (s.win.cache.length < od s 0x2230 0x01 * 256) && (pool s 1).state == 0

/-- Free the fold-cache buffer of the unit allocated at the lowest ASN (R144). -/
def cacheFree (s : State) : State :=
  match s.win.cache.foldl (fun (m : Option (Nat × Nat × Nat)) e => match m with
    | some x => if e.1 < x.1 then some e else some x
    | none => some e) none with
  | none => s
  | some (a, z, u) =>
    let v := zone s z
    let s := setZone s z { v with units := kvPut {} u { kvGet {} u v.units with cached := false } v.units }
    odBump { s with win.cache := s.win.cache.filter fun e => e != (a, z, u) } 0x2230 0x04

/-- The cache makes room down to its size (R144). -/
def cacheTrim (s : State) : State :=
  (List.range (s.win.cache.length - od s 0x2230 0x01 * 256)).foldl (fun s _ => cacheFree s) s

/-- A staged unit's program is complete: its data stands in the cell, its buffer goes to the fold cache or is freed,
and an older cell of the unit is freed (R137, R144, R270). -/
def stageUnit (s : State) (inst c z u : Nat) : State :=
  let v := zone s z
  let e := kvGet {} u v.units
  let keep := e.held.isSome && cacheRoom s
  let s := unholdUnit s z u
  let v := zone s z
  let e := kvGet {} u v.units
  let loc := match e.loc with
    | .window (some x) => if x = c then UnitLoc.staged c else e.loc
    | l => l
  let s := setZone s z { v with units := kvPut {} u { e with loc := loc, cached := e.cached || keep } v.units }
  let s := if keep then { s with win.cache := s.win.cache ++ [(e.asn, z, u)] } else s
  let r := ring s inst
  let old (x : Nat × (Nat × Nat)) : Bool := x.2 == (z, u) && decide (x.1 < c)
  (r.cells.filter old).foldl (fun s x => journal s 3 [inst, x.1, 1])
    (setRing s inst { r with cells := r.cells.filter fun x => !old x })

/-- Unit offsets of fold unit w. -/
def foldUnits (pn w : Nat) : List Nat := (List.range (64 * (16 - pn))).map (w * (64 * (16 - pn)) + ·)

/-- A fold unit is on all sixteen facets, or absent from those out of service: its commit is journalled and its units
stand in QLC (R147, R239). -/
def foldCommit (s : State) (z w : Nat) : State :=
  let v := zone s z
  let f := kvGet {} w v.folds
  if f.committed ∨ ((f.done ++ f.absent).eraseDups.length < 16) then s
  else
    let pn := zonePn s z
    let inFold (u : Nat) : Bool := foldOf (16 - pn) u == w
    let us := v.units.filter fun e => inFold e.1
    let cached := (us.filter fun e => e.2.cached).length
    let s := odBump (odBump s 0x2230 0x02 0 cached) 0x2230 0x03 0 (us.length - cached)
    let s := journal s 2 [z, w, f.completeAsn]
    let v := zone s z
    let units := us.foldl (fun m e => kvPut {} e.1 { e.2 with loc := .qlc, cached := false } m) v.units
    let s := setZone s z { v with units := units, folds := kvPut {} w { f with committed := true, urgent := false } v.folds }
    { s with win.cache := s.win.cache.filter fun e => !(e.2.1 == z && inFold e.2.2) }

/-- A fold reads the staged cell of each unit of a facet that the fold cache does not hold (R143). -/
def readStaged (s : State) (z w f : Nat) : State :=
  let pn := zonePn s z
  match (zone s z).ring with
  | none => s
  | some inst =>
    ((zone s z).units.filter fun e => foldOf (16 - pn) e.1 == w && !e.2.cached && (prism z pn e.1).facet == f).foldl
      (fun s e => match e.2.loc with
        | .staged c =>
          let l := ringLoc s inst c
          let d := facetDie l.group l.facet
          let b := rowBlock s d l.row
          setDie s d { die s d with readCount := kvPut 0 b (kvGet 0 b (die s d).readCount + 1) (die s d).readCount }
        | _ => s) s

/-- A facet's program of a fold unit has completed. -/
def foldFacetDone (s : State) (z w f : Nat) : State :=
  let s := readStaged s z w f
  let v := zone s z
  let fo := kvGet {} w v.folds
  let fo' := { fo with done := addTo f fo.done, absent := fo.absent.filter fun x => x != f }
  let s := setZone s z { v with folds := kvPut {} w fo' v.folds }
  let s := if fo.absent.contains f then journal s 8 [z, 2, f, w] else s
  foldCommit s z w

/-- Mark a facet of a fold unit absent (R239, R242). -/
def foldFacetAbsent (s : State) (z w f : Nat) : State :=
  let v := zone s z
  let fo := kvGet {} w v.folds
  let s := setZone s z { v with folds := kvPut {} w { fo with absent := addTo f fo.absent } v.folds }
  foldCommit (journal s 8 [z, 0, f, w]) z w

/-- Live cells of a ring on a facet, ring row and page. -/
def pageCells (s : State) (inst row page facet : Nat) : Kv (Nat × Nat) :=
  (ring s inst).cells.filter fun e =>
    let l := ringLoc s inst e.1
    cellRow s e.1 == row && l.page == page && l.facet == facet

/-! Die service (R189, R199, R225, R239). -/

/-- A program to the die is left out and its units marked absent (R239): it is out of service, on an early probation
phase, or its channel is out. -/
def dieOut (s : State) (d : Nat) : Bool :=
  ((die s d).service != 0 && decide ((die s d).phase < 3)) || (chan s (dieChan d)).state == 3

/-- Reads that had a request on a die are placed anew (R189). -/
def replaceReads (s : State) (qs : List DReq) : State :=
  let hit (r : RdUnit) : Bool := qs.any fun q => q.rid == r.rid && q.unit == r.unit
  let peri := (s.reads.filter fun r => hit r && r.peri).map (·.group)
  let s := peri.foldl (fun s g => setGrp s g { grp s g with periInFlight := (grp s g).periInFlight - 1 }) s
  let touched := (s.reads.filter hit).map fun r => (r.rid, r.unit)
  let again (r : RdUnit) : RdUnit :=
    if hit r then { r with mode := .queued, peri := false, step := 0, members := [], decoded := [], left := [], member := none }
    else r
  let s := { s with reads := s.reads.map again }
  let clear (x : Die) : Die := { x with queue := x.queue.filter fun q => !touched.contains (q.rid, q.unit) }
  { s with dies := kvMap {} clear s.dies }

/-- A context gives up the channel bus and the chip enables it holds (R203). -/
def releaseBus (s : State) (d : Nat) : State :=
  let c := chan s (dieChan d)
  if c.holder = some d then setChan s (dieChan d) { c with holder := none, ce := none } else s

/-- Add bus cycles to a channel's record. -/
def driveBus (s : State) (d : Nat) (cs : List BusCyc) : State :=
  let ch := dieChan d
  setChan s ch { chan s ch with bus := (chan s ch).bus ++ cs }

/-- A script-defined status is counted for its channel (R209). -/
def countStatus (s : State) (d status : Nat) : State :=
  let ch := dieChan d
  if 0x05 ≤ status ∧ status ≤ 0x7F then setChan s ch { chan s ch with oddStatuses := (chan s ch).oddStatuses + 1 } else s

/-- A context's operation is over: CE# is released. -/
def endEntry (s : State) (d status : Nat) : State :=
  let s := countStatus s d status
  releaseBus (setCtx s d { ctx s d with entry := none, waiting := false, stack := [], status := some status, redo := none }) d

/-- A block whose erase was cut short, or has to be repeated, is erased again under a new start cell (R29, R223, R274). -/
def eraseAgain (s : State) (d b : Nat) : State :=
  let dd := die s d
  let s := setDie s d { dd with half := addTo b dd.half, started := dd.started.filter fun x => x != b }
  let z := zoneOfRow s (dieGroup d) (blockRow s d b)
  if z = 0xFFFFFFFF then s
  else setZone s z { zone s z with eraseQueue := addTo (dieFacet d) (zone s z).eraseQueue }

/-- A die leaves service: its requests are re-placed, an erase on it stays half-erased, a program on it is cut off and is
then left out (R239), and its group gains a hole (R189, R199). -/
def dieLeaves (s : State) (d : Nat) : State :=
  let dd := die s d
  let reqs := dd.queue ++ dd.reading
  let s := match dd.erase with
    | some b => eraseAgain s d b
    | none => s
  let s := setDie s d { die s d with st := .out, service := 2, phase := 0, queue := [], reading := [], erase := none
                                     job := none, atBoundary := false, leftAt := some s.health.seconds }
  let s := releaseBus (setCtx s d { ctx s d with entry := none, waiting := false, stack := [], redo := none }) d
  updateGroups (replaceReads s reqs) [dieGroup d]

/-- Dies of a channel. -/
def chanDies (ch : Nat) : List Nat := (List.range 32).map (ch * 32 + ·)

/-- A channel leaves service with all its dies (R199, R208, R211, R264). -/
def channelLeaves (s : State) (ch : Nat) : State :=
  let s := setChan s ch { chan s ch with state := 3, ce := none, holder := none }
  let s := (chanDies ch).foldl (fun s d => if (die s d).service = 1 then s else dieLeaves s d) s
  updateWindow (loupe s 225 0x32 5 [ch])

/-- A script fault ends the operation with 0x82 and takes the channel out at its first one (R208). -/
def scriptFault (s : State) (d : Nat) : State :=
  let ch := dieChan d
  let s := endEntry s d 0x82
  if (chan s ch).faulted then s
  else channelLeaves (setChan s ch { chan s ch with faulted := true }) ch

/-- A die is taken out by a lasting fault; four dies of a channel taken out by timeouts within one second take the
channel out (R211). -/
def dieOutLasting (s : State) (d : Nat) (timeout : Bool) : State :=
  let s := loupe (dieLeaves s d) 225 0x31 5 [d]
  let now := s.health.seconds
  let gone := (chanDies (dieChan d)).filter fun x => (die s x).leftAt == some now
  if timeout && decide (4 ≤ gone.length) && (chan s (dieChan d)).state != 3 then channelLeaves s (dieChan d) else s

/-! Sequencer entries (R205). -/

/-- Start an entry on a die's context: the parameter registers are loaded, and v7 to v15, the flags and S are cleared.
The row address is page, plane, block from bit 0 up (log entry 23). -/
def startEntry (s : State) (d entry block plane page column bytes : Nat) (slc : Bool) (mask v4 : Nat) (high : Bool) :
    State :=
  let i := d % 32
  let v0 : Nat := i / 4 + (i % 4) * 8
  let v1 : Nat := page + plane * 1024 + block * 4096
  let v5 : Nat := (if slc then 1 else 0) + mask * 2
  let w (n : Nat) : Word32 := BitVec.ofNat 32 n
  let start := (chan s (dieChan d)).entry.getD entry 0xFFFF
  let v := #v[w v0, w v1, w column, w bytes, w v4, w v5, 0, 0, 0, 0, 0, 0, 0, 0, 0, 0]
  setCtx s d { v := v, params := v, pc := start, entry := some entry, class1 := high }

/-- Start RESET_DIE, ZQ_CAL, TRAIN or the parameter page read on a die (R205, R243). The training step and the byte
count are free values (log entry 93). -/
def startReinit (s : State) (d entry : Nat) : State :=
  if entry = 9 then startEntry (useFree s) d entry 0 0 0 0 (freeVal s) false 0 0 false
  else if entry = 13 then startEntry (useFree s) d entry 0 0 0 0 0 false 0 (freeVal s) false
  else startEntry s d entry 0 0 0 0 0 false 0 0 false

/-- The stop of a context by a hard timeout: CE# goes high, and after 1 µs RESET_DIE runs, with the stopped entry to be
repeated after it (R211). c is the context as it was stopped. -/
def timeoutReset (s : State) (d : Nat) (c : Ctx) : State :=
  let s := startEntry (driveBus s d [.ceHigh, .wait 1000]) d 8 0 0 0 0 0 false 0 0 c.class1
  setCtx s d { ctx s d with redo := c.entry.map fun e => (e, c.params) }

end Sys2Proof.Machine
end

