-- ==== Sys2Proof/Machine/DieQueue.lean ====
section
/-! DEFINITION. The die queue: programs and erases that wait, their grants and limits, what a free die serves next, and
the estimate of a start wait (R145, R158, R166 to R179, R181, R186, R189 to R197). -/

namespace Sys2Proof.Machine

/-! Slots (R171). -/

/-- The current slot is a fold slot. -/
def inFoldSlot (s : State) : Bool := s.sched.mask.testBit s.sched.slot

/-- Slots from the current one on that are of the kind asked for. -/
def runLeft (s : State) (fold : Bool) : Nat :=
  (((List.range 16).map fun i => s.sched.mask.testBit ((s.sched.slot + i) % 16)).takeWhile (· == fold)).length

/-- Bytes of the codewords of a program or read on a die (R127): 4,096 data bytes, the metadata of the unit and the LDPC
parity each. -/
def codewordBytes (s : State) (d extra : Nat) : Nat := 4096 + extra + (hdrOf s d).parityBytes

/-- Declared closed period of a program in µs: data input and tPROG (R171). -/
def closedPeriod (s : State) (d : Nat) (qlc : Bool) : Rat :=
  let h := hdrOf s d
  let n : Nat := if qlc then 64 else 16
  (n * (4096 + h.parityBytes) : Nat) / ((chan s (dieChan d)).rateNow : Rat) +
    (if qlc then h.tprogQlc else h.tprogSlc : Nat)

/-! Pool rows (R160 to R162). -/

/-- Reclaim group of a pool row (R161). -/
def reclaimOf (z : Nat) : Nat := z % 128 % 8

/-- Wear of a row: the cycles of its sixteen blocks. -/
def rowWear (s : State) (z : Nat) : Nat :=
  ((groupDies (groupOf z)).map fun d => kvGet 0 (rowBlock s d (rowOf z)) (die s d).cycles).sum

/-- The least-worn free pool row of a reclaim group (R162), the lowest number of equals. -/
def freePoolRow (s : State) (n : Ns) (rg : Nat) : Option Nat :=
  (n.poolRows.filter fun z => reclaimOf z == rg && kvGet 0 z n.fill == 0 && (zone s z).eraseLeft.isEmpty &&
    n.handles.all fun e => e.2 != z + 1).foldl (fun m z => match m with
      | some x => if rowWear s z < rowWear s x ∨ (rowWear s z = rowWear s x ∧ z < x) then some z else some x
      | none => some z) none

/-- Units that a handle's row takes: host writes are staged in SLC mode, a quarter of the row's QLC capacity; handles 512
and above belong to garbage collection, one for each reclaim group, and fill rows in QLC (R160, R162). -/
def handleUnits (n : Ns) (h : Nat) : Nat := if 512 ≤ h then n.rowUnits else n.rowUnits / 4

/-- A pool row holds SLC data: host writes fill it. -/
def poolSlc (n : Ns) (z : Nat) : Bool :=
  decide (kvGet 0 z n.fill ≤ n.rowUnits / 4) && n.handles.all fun e => e.2 != z + 1 || decide (e.1 < 512)

/-- A handle without a unit, or with a full one, refers to the next free row (R162). -/
def ensureHandle (s : State) (n : Ns) (h : Nat) : Ns :=
  let rg := if 512 ≤ h then h - 512 else h / 64
  match kvGet 0 h n.handles with
  | z + 1 => if kvGet 0 z n.fill < handleUnits n h then n
    else { n with handles := kvPut 0 h (((freePoolRow s n rg).map (· + 1)).getD 0) n.handles }
  | 0 => { n with handles := kvPut 0 h (((freePoolRow s n rg).map (· + 1)).getD 0) n.handles }

/-- Pool row and offset that a conventional unit's program takes next: the reclaim unit its handle refers to (R162). -/
def poolPlace (n : Ns) (u : Nat) : Option (Nat × Nat) :=
  let h := (kvGet {} u n.units).handle
  match kvGet 0 h n.handles with
  | 0 => none
  | z + 1 => if kvGet 0 z n.fill < handleUnits n h then some (z, kvGet 0 z n.fill) else none

/-! Jobs. -/

/-- The job is a QLC program: folds and their copies. Conventional writes are staged in their pool rows in SLC mode. -/
def jobQlc : ProgJob → Bool
  | .fold _ _ | .copy _ _ => true
  | _ => false

/-- A fold unit holds a cell of the ring row that the cursor must enter next (R139, R145, R197). -/
def foldNeeded (s : State) (z w ahead : Nat) : Bool :=
  match (zone s z).ring with
  | none => false
  | some inst =>
    let dn := 16 - zonePn s z
    let rows := ringRows s
    let next := (List.range ahead).map fun i => (cellRow s (ring s inst).c + 1 + i) % rows
    (ring s inst).cells.any fun e => e.2.1 == z && foldOf dn e.2.2 == w && next.contains (cellRow s e.1)

/-- An erase of a block of the ring row that the cursor needs next. -/
def eraseNeeded (s : State) (d b : Nat) : Bool :=
  let row := blockRow s d b
  if rowsR s - rowsT s ≤ row ∧ row < rowsR s then
    let x := row - (rowsR s - rowsT s)
    (cellRow s (ring s (ringInst (dieGroup d) (x / ringRows s))).c + 1) % ringRows s == x % ringRows s
  else false

/-- Grant class of R197. -/
def jobClass (s : State) : ProgJob → Nat
  | .startCell _ | .doneCell | .system => 1
  | .stage _ _ _ | .pool _ _ => 2
  | .fold z w => if foldNeeded s z w 1 then 3 else 5
  | .copy _ _ => 7

def workClass (s : State) (d : Nat) : Work → Nat
  | .program j => jobClass s j
  | .erase b => if eraseNeeded s d b then 4 else 6

/-- Die queue class of a program or erase (R177). -/
def workQueue : Work → Nat
  | .program (.startCell _) | .program .doneCell | .program .system => 2
  | .program _ => 6
  | .erase _ => 7

/-- Row that a job programs on a die: ledger cells in row 1, other system pages in row 3 (R265). -/
def jobRow (s : State) (d : Nat) : ProgJob → Nat
  | .fold z _ | .copy z _ => rowOf z
  | .stage inst row _ => rowsR s - rowsT s + (inst % 8) * ringRows s + row
  | .startCell _ | .doneCell => (die s d).ledgerRow
  | .system => 3
  | .pool nsid u => match (ns? s nsid).bind (poolPlace · u) with
    | some (z, _) => rowOf z
    | none => 8

/-- A block of a rewrite or retirement that has not switched: new programs wait for the switch (R230, R233). -/
def rewriteHolds (s : State) (d row : Nat) : Bool :=
  ((die s d).rewrites ++ (die s d).switching).any fun r => r.row == row && decide (r.step < 3) && !r.deferred &&
    (r.step != 0 || r.cause == 1)

/-- No durable map entry refers to the block (R274). -/
def erasable (s : State) (d b : Nat) : Bool :=
  let row := blockRow s d b
  let g := dieGroup d
  if 8 ≤ row ∧ row < 8 + zoneRows s then
    let z := (row - 8) * 128 + g
    (zone s z).eraseQueue.contains (dieFacet d) || (s.nss.all fun n => !n.zones.contains z && !n.poolRows.contains z) ||
    s.nss.any fun n => n.poolRows.contains z && n.units.all fun e => match e.2.loc with
      | .pool c => c / 262144 != z
      | _ => true
  else if rowsR s - rowsT s ≤ row ∧ row < rowsR s then
    let x := row - (rowsR s - rowsT s)
    let inst := ringInst g (x / ringRows s)
    (ring s inst).cells.all fun e => cellRow s e.1 != x % ringRows s
  else if row = 1 ∨ row = 2 then row != (die s d).ledgerRow && decide (960 ≤ (die s d).cellCount)
  else true

/-! The fold queue (R138, R141 to R145, R158, R228). -/

/-- A unit's data can be folded: it is in the fold cache, or its cell is programmed and no copy of it is still to come
(R138, R141, R143). -/
def foldSource (s : State) (z : Nat) (u : Nat × UnitSt) : Bool :=
  u.2.cached || match u.2.loc, (zone s z).ring with
    | .staged c, some inst => (ring s inst).cells.all fun e => e.2 != (z, u.1) || decide (c ≤ e.1)
    | .none, _ | .qlc, _ => true
    | _, _ => false

/-- A fold unit may be programmed on facet f: it is complete with all its data staged, unit w - 1 stands on the facet, and the
facet is erased (R29, R141, R142). -/
def foldReady (s : State) (z w f : Nat) : Bool :=
  let v := zone s z
  let fo := kvGet {} w v.folds
  let dn := 16 - zonePn s z
  fo.completeAsn != 0 && !fo.done.contains f && !fo.committed &&
  (w == 0 || (kvGet {} (w - 1) v.folds).done.contains f) && !v.eraseLeft.contains f &&
  (v.units.filter fun u => foldOf dn u.1 == w).all (foldSource s z)

/-- Fold priority of a zone's placement class (R154, R158): early 0, normal 1, late 2. -/
def foldPriority (s : State) (z : Nat) : Nat :=
  match (nsOfZone s z).map fun n => classFold (classEntry (ptable s) n.pclass) with
  | some 1 => 0
  | some 2 => 2
  | _ => 1

/-- A late unit is held until its ring row is within two rows of the cursor (R158). -/
def foldLate (s : State) (z w : Nat) : Bool := foldPriority s z == 2 && !foldNeeded s z w 2

/-- Place of a fold unit in its group's fold queue (R145, R158, R228): units moved to the head, units whose row the cursor
needs next, early units, then completion ASN, zone and w. -/
def foldKey (s : State) (z w : Nat) : List Nat :=
  let fo := kvGet {} w (zone s z).folds
  [if fo.urgent then 0 else 1, if foldNeeded s z w 1 then 0 else 1, if foldPriority s z = 0 then 0 else 1,
   fo.completeAsn, z, w]

/-- Lexicographic order of queue places. -/
def keyLt : List Nat → List Nat → Bool
  | a :: s, b :: t => decide (a < b) || (a == b && keyLt s t)
  | _, _ => false

/-- No other fold that may be programmed on the die precedes this one in the fold queue (R145). -/
def foldTurn (s : State) (d z w : Nat) : Bool :=
  let f := dieFacet d
  let mine := foldKey s z w
  (s.zones.filter fun e => groupOf e.1 == dieGroup d).all fun e => e.2.folds.all fun x =>
    !(foldReady s e.1 x.1 f && !foldLate s e.1 x.1 && keyLt (foldKey s e.1 x.1) mine)

/-! What a job needs. -/

/-- What a job needs beside the die, the limit and a grant. -/
def jobReady (s : State) (d : Nat) : ProgJob → Bool
  | .stage inst row page => dieGroup d == inst / 8 && !(pageCells s inst row page (dieFacet d)).isEmpty
  | .fold z w => groupOf z == dieGroup d && foldReady s z w (dieFacet d) && !foldLate s z w
  | .startCell blocks => !blocks.isEmpty && decide (blocks.length ≤ 32) && decide ((die s d).cellCount < 1024) &&
      blocks.all fun b => erasable s d b && !(die s d).retired.contains b
  | .doneCell => !(die s d).ended.isEmpty && decide ((die s d).cellCount < 1024)
  | .system => true
  | .pool nsid u => match ns? s nsid with
    | some n => (match poolPlace n u with
      | some (z, o) => facetDie (groupOf z) (prism z n.pn o).facet == d && (kvGet {} u n.units).held.isSome
      | none => false)
    | none => false
  | .copy z w => groupOf z == dieGroup d && (kvGet {} w (zone s z).folds).absent.contains (dieFacet d) &&
      (die s d).phase == 3 && !(zone s z).eraseLeft.contains (dieFacet d) &&
      (w == 0 || (kvGet {} (w - 1) (zone s z).folds).done.contains (dieFacet d))

/-- A block that a durable start cell names, and whose erase has not ended (R274). -/
def eraseReady (s : State) (d b : Nat) : Bool := (die s d).started.contains b && !(die s d).ended.contains b

/-! Grants and limits (R173 to R176, R195 to R197, R443). -/

/-- Grants of a budget that are released by the end of the current slot (R443). -/
def released (s : State) (budget : Nat) : Nat := ceilDiv (budget * (s.sched.slot + 1)) 16

/-- A QLC grant, or an SLC grant of a class, of the frame's budget is left (R195, R196). -/
def programGrant (s : State) (qlc : Bool) (cls : Nat) : Bool :=
  if qlc then decide (s.sched.qlcUsed < released s s.sched.qlcBudget)
  else decide (s.sched.slcUsed < released s s.sched.slcBudget) ||
    (cls == 1 && decide (s.sched.sysUsed < od s 0x3100 0x0D))

/-- A conventional unit is the first of its page on its facet: the page's program, with its parity codewords, takes one grant
(R126, R166; log entry 127). -/
def firstOfPage (s : State) : ProgJob → Bool
  | .pool nsid u => match ns? s nsid with
    | some n => match poolPlace n u with
      | some (z, o) =>
        let page := 16 * (16 - n.pn)
        let f := (prism z n.pn o).facet
        (List.range (o % page)).all fun i => (prism z n.pn (o - 1 - i)).facet != f
      | none => true
    | none => true
  | _ => true

/-- A grant of the frame's budget is left for a job (R195, R196). -/
def grantLeft (s : State) (job : ProgJob) : Bool := !firstOfPage s job || programGrant s (jobQlc job) (jobClass s job)

/-- An erase grant is left (R195). -/
def eraseGrant (s : State) : Bool := decide (s.sched.eraseUsed < released s s.sched.eraseBudget)

/-- Use a program grant, and move the rotation of its class (R195 to R197). -/
def useProgram (s : State) (qlc : Bool) (cls g : Nat) : State :=
  let sc := s.sched
  let sc := { sc with grantPtr := kvPut 0 cls ((g + 1) % 128) sc.grantPtr }
  { s with sched := if qlc then { sc with qlcUsed := sc.qlcUsed + 1 }
                    else { sc with slcUsed := sc.slcUsed + 1, sysUsed := sc.sysUsed + if cls = 1 then 1 else 0 } }

/-- Use an erase grant. -/
def useErase (s : State) (cls g : Nat) : State :=
  { s with sched.eraseUsed := s.sched.eraseUsed + 1
           sched.grantPtr := kvPut 0 cls ((g + 1) % 128) s.sched.grantPtr }

/-- R174: from the start of a program of single-parity data the dark limit is 1. -/
def darkOne (s : State) (g : Nat) : State :=
  if (grp s g).state != 0 && (grp s g).d != 1 then setGrp s g { grp s g with d := 1 } else s

/-- Starting one more closing operation keeps a group within its limit (R173 to R175), which is that of D = 1 for a program of
single-parity data (R174). -/
def mayClose (s : State) (g : Nat) (single : Bool) : Bool :=
  match closedLimit (if single then darkOne s g else s) g with
  | some l => decide (closedCount s g + 1 ≤ l)
  | none => true

/-- The slot kind allows a program in a contract group: it starts in a slot of its kind and ends before the next slot of the
other kind (R171). elapsed is the time of the current slot that has passed. -/
def kindOk (s : State) (elapsed d : Nat) (qlc : Bool) : Bool :=
  !isContract s (dieGroup d) ||
    (inFoldSlot s == qlc && decide (closedPeriod s d qlc + (elapsed : Rat) ≤ (s.sched.slotUs * runLeft s qlc : Nat)))

/-- The die takes a new operation: it is in service, on a channel in service, and free. -/
def dieFree (s : State) (d : Nat) : Bool :=
  ((die s d).st == .idle || (die s d).st == .suspended) && (chan s (dieChan d)).state == 0

/-- A program can start on a die now. -/
def canProgram (s : State) (elapsed d : Nat) (job : ProgJob) : Bool :=
  let cls := jobClass s job
  (die s d).service != 1 && !dieOut s d && !deadBlock s d (jobRow s d job) && !s.pins.wpLow &&
  (s.power.hold == .running || cls == 1) && jobReady s d job && !rewriteHolds s d (jobRow s d job) &&
  (match job with | .fold z w => foldTurn s d z w | _ => true) &&
  grantLeft s job && kindOk s elapsed d (jobQlc job) && mayClose s (dieGroup d) (jobSingle s job)

/-- An erase can start on a die now: at its reserve it closes the die (R190, R192). -/
def canErase (s : State) (d b : Nat) : Bool :=
  let dd := die s d
  dd.service != 1 && !dieOut s d && dd.st == .idle && dd.erase.isNone && s.power.hold == .running && !s.pins.wpLow &&
  eraseGrant s && eraseReady s d b &&
  (decide (eraseReserve s d < (hdrOf s d).suspends) || mayClose s (dieGroup d) false)

/-- Declared time of a read on a die in µs: sensing and one transfer (R179). -/
def senseTime (s : State) (d : Nat) (slc : Bool) : Rat := ((if slc then (hdrOf s d).trSlc else (hdrOf s d).trQlc : Nat) : Rat)
def transferTime (s : State) (d : Nat) : Rat := (codewordBytes s d 0 : Nat) / ((chan s (dieChan d)).rateNow : Rat)

/-- Declared time of a read in ns, rounded up. -/
def readNs (s : State) (d : Nat) (slc : Bool) : Nat := ((senseTime s d slc + transferTime s d) * 1000).ceil.toNat

/-- Background and non-contract reads of a contract group keep within ρ_o of each die's time in a frame (R186). -/
def shareLeft (s : State) (d cls : Nat) (slc : Bool) : Bool :=
  !isContract s (dieGroup d) || cls == 1 ||
    decide ((die s d).bgNs + readNs s d slc ≤ 16 * s.sched.slotUs * od s 0x3100 0x06)

/-- Count a read against the share of R186. -/
def useShare (s : State) (d cls : Nat) (slc : Bool) : State :=
  if isContract s (dieGroup d) ∧ cls ≠ 1 then setDie s d { die s d with bgNs := (die s d).bgNs + readNs s d slc } else s

/-- A request of the die queue can start now. -/
def canStart (s : State) (elapsed d : Nat) (q : DReq) : Bool :=
  dieFree s d && match q.work with
    | none => shareLeft s d q.cls q.slc
    | some (.program j) => canProgram s elapsed d j
    | some (.erase b) => canErase s d b

/-- What a free die serves next: the first request in class order, then queue order, that can start (R177). -/
def nextReq (s : State) (elapsed d : Nat) : Option DReq := (die s d).queue.find? (canStart s elapsed d)

/-! Starts. -/

/-- Take a program or erase out of a die's queue. -/
def dropWork (s : State) (d : Nat) (w : Work) : State :=
  setDie s d { die s d with queue := (die s d).queue.filter fun q => q.work != some w }

/-- Metadata bytes of a zone's units (R127). -/
def zoneExtra (s : State) (z : Nat) : Nat := match nsOfZone s z with
  | some n => metaBytes n.lbaf * n.bpu
  | none => 0

/-- Metadata bytes of each codeword of a program: the largest of its units, where they differ (log entry 108). -/
def jobExtra (s : State) (d : Nat) : ProgJob → Nat
  | .fold z _ | .copy z _ => zoneExtra s z
  | .stage inst row page => (pageCells s inst row page (dieFacet d)).foldl (fun m e => Nat.max m (zoneExtra s e.2.1)) 0
  | .pool nsid _ => match ns? s nsid with
    | some n => metaBytes n.lbaf * n.bpu
    | none => 0
  | _ => 0

/-- A granted program starts and closes its die (R167, R174, R176, R189, R193). A block under a suspended erase is refused
with BLOCK_ERASING. -/
def startProgram (s : State) (d : Nat) (job : ProgJob) : State :=
  let s := dropWork s d (.program job)
  let dd := die s d
  let g := dieGroup d
  let qlc := jobQlc job
  let nested := dd.st == .suspended
  let block := rowBlock s d (jobRow s d job)
  if nested ∧ dd.erase = some block then loupe (odBump s 0x3120 0x05 d) 194 0x31 6 [d, block]
  else
    let s := if jobSingle s job then darkOne s g else s
    let s := if firstOfPage s job then useProgram s qlc (jobClass s job) g else s
    let gr := grp s g
    let p := (dieFacet d + 1) % 16
    let s := setGrp s g (if qlc then { gr with qlcPtr := p } else { gr with slcPtr := p })
    let s := setDie s d { die s d with st := if nested then .programInSuspend else .programming, job := some job }
    let page := match job with
      | .fold _ w | .copy _ w => 4 * w
      | .stage _ _ pg => pg
      | _ => 0
    startEntry s d 1 block 0 page 0 ((if qlc then 64 else 16) * codewordBytes s d (jobExtra s d job)) (!qlc) 15 0 false

/-- A granted erase starts (R189, R195, R274). -/
def startErase (s : State) (d b : Nat) : State :=
  let s := dropWork s d (.erase b)
  let s := useErase s (workClass s d (.erase b)) (dieGroup d)
  let s := setDie s d { die s d with st := .erasing, erase := some b, suspends := 0, atBoundary := false, resumed := false }
  startEntry s d 2 b 0 0 0 0 false 0 0 false

def startWork (s : State) (d : Nat) : Work → State
  | .program j => startProgram s d j
  | .erase b => startErase s d b

/-- A request waits for nothing more: its work has been done elsewhere, or has gone. -/
def stale (s : State) (d : Nat) (q : DReq) : Bool :=
  match q.work with
  | some (.program j) => !jobReady s d j
  | some (.erase b) => !eraseReady s d b
  | none => false

/-- The program or erase that the scheduler starts next (R40, R176, R197): the highest grant class; within it the groups by
rotation; within a group the dies by rotation over the facets, with a pointer for each program mode. -/
def workPick (s : State) (elapsed : Nat) : Option (Nat × Work) :=
  let cs : List (Nat × Work) := s.dies.filterMap fun e =>
    if e.2.queue.isEmpty then none else (nextReq s elapsed e.1).bind fun q => q.work.map fun w => (e.1, w)
  match (cs.map fun c => workClass s c.1 c.2).min? with
  | none => none
  | some k =>
    let cs := cs.filter fun c => workClass s c.1 c.2 == k
    match rotPick (kvGet 0 k s.sched.grantPtr) (cs.map fun c => dieGroup c.1) with
    | none => none
    | some g =>
      let cs := cs.filter fun c => dieGroup c.1 == g
      let ptr := match cs.head? with
        | some (_, .program j) => if jobQlc j then (grp s g).qlcPtr else (grp s g).slcPtr
        | _ => 0
      match rotPick ptr (cs.map fun c => dieFacet c.1) with
      | none => none
      | some f => cs.find? fun c => dieFacet c.1 == f

/-- Start what can start, one after another. -/
def runWork (elapsed : Nat) : Nat → State → State
  | 0, s => s
  | n + 1, s => match workPick s elapsed with
    | some (d, w) => runWork elapsed n (startWork s d w)
    | none => s

/-- Programs and erases that wait in die queues. -/
def workWaiting (s : State) : Nat := s.dies.foldl (fun a e => a + (e.2.queue.filter fun q => q.work.isSome).length) 0

/-- The scheduler looks at the waiting programs and erases again. -/
def serve (s : State) (elapsed : Nat) : State := runWork elapsed (workWaiting s) s

/-! Reads in the queue (R168, R177, R189, R193). -/

/-- Die queue class of a latency class: contract, standard, bulk, background (R177, R352). -/
def queueClass : Nat → Nat
  | 0 => 1 | 1 => 3 | 2 => 4 | _ => 5

/-- Class under which a read is served: a contract read of a group that is no contract group is standard (R352). -/
def servedClass (s : State) (r : RdUnit) : Nat := if r.cls = 0 ∧ !isContract s r.group then 1 else r.cls

/-- Place of a request in a die queue (R177): its class, and within class 6 staging programs before folds and copies. -/
def queuePlace (s : State) (q : DReq) : Nat :=
  match q.work with
  | some (.program j) => if q.cls = 6 then 60 + jobClass s j else 10 * q.cls
  | _ => 10 * q.cls

/-- Insert a request behind those of its place and earlier ones. -/
def enqueue (s : State) (q : DReq) (l : List DReq) : List DReq :=
  (l.filter fun x => decide (queuePlace s x ≤ queuePlace s q)) ++ [q] ++
    (l.filter fun x => decide (queuePlace s q < queuePlace s x))

/-- The reads that start together: the first, and up to three more on other planes (R168). -/
def combine (multi : Bool) : List DReq → List DReq → List DReq
  | [], acc => acc
  | q :: t, acc =>
    let ok := acc.isEmpty || (decide (acc.length < 4) && acc.all fun x => x.plane != q.plane && (multi || x.page == q.page))
    combine multi t (if ok then acc ++ [q] else acc)

/-- The reads of a die's queue that start together now, from the first that the die serves. -/
def batch (s : State) (d : Nat) (q : DReq) : List DReq :=
  let rest := (die s d).queue.filter fun x => x.work.isNone && x != q && shareLeft s d x.cls x.slc
  combine ((hdrOf s d).flags % 2 == 1) rest [q]

/-- Fail the host command of a read on a mapping fault: Internal Error, and no retry (R194). -/
def mappingFault (s : State) (d block rid : Nat) : State :=
  let s := loupe (odBump s 0x3120 0x05 d) 194 0x31 6 [d, block, rid]
  let gone := s.reads.filter fun r => r.rid == rid && r.peri
  let s := gone.foldl (fun s r => setGrp s r.group { grp s r.group with periInFlight := (grp s r.group).periInFlight - 1 }) s
  let clear (x : Die) : Die := { x with queue := x.queue.filter fun q => q.work.isSome || q.rid != rid }
  let s := { s with reads := s.reads.filter fun r => r.rid != rid, dies := kvMap {} clear s.dies }
  match cmd? s rid with
  | some k => finishCmd s { k with status := stInternal }
  | none => s

/-- Metadata bytes of the codeword that a command's read takes (R127). -/
def readExtra (s : State) (rid : Nat) : Nat :=
  match (cmd? s rid).bind fun k => ns? s k.io.nsid with
  | some n => metaBytes n.lbaf * n.bpu
  | none => 0

/-- Start the reads that a free die serves next (R168, R189), each after the check against the block of a suspended erase
(R193); a refused one leaves the queue, and the next ones are looked at. -/
def pumpN (d : Nat) : Nat → State → State
  | 0, s => s
  | n + 1, s =>
  let dd := die s d
  match nextReq s s.sched.slotUs d with
  | none => s
  | some q =>
    if q.work.isSome then s
    else
      let blockOf (q : DReq) : Nat := rowBlock s d (q.page / 1024)
      let go := batch s d q
      match go.find? fun q => dd.st == .suspended && dd.erase == some (blockOf q) with
      | some q => pumpN d n (mappingFault s d (blockOf q) q.rid)
      | none =>
        let s := go.foldl (fun s q => useShare s d q.cls q.slc) s
        let s := setDie s d { die s d with st := if dd.st = .suspended then .readInSuspend else .reading
                                           reading := go, queue := dd.queue.filter fun q => !go.contains q }
        startEntry s d 0 (blockOf q) q.plane (q.page % 1024) 0 (codewordBytes s d (readExtra s q.rid)) q.slc 0 0 (q.cls == 1)

/-- Start what a die's queue allows: reads, then whatever programs and erases can start. Of the current slot nothing is
counted as left (log entry 107). -/
def pump (s : State) (d : Nat) : State :=
  serve (pumpN d (die s d).queue.length s) s.sched.slotUs

/-- Put a read request into a die's queue and start it if the die is free. -/
def enqueueRead (s : State) (d : Nat) (q : DReq) : State :=
  pump (setDie s d { die s d with queue := enqueue s q (die s d).queue }) d

/-- A program or erase enters a die's queue, once; work that has gone leaves it. -/
def enqueueWork (s : State) (d : Nat) (w : Work) : State :=
  let q : DReq := { cls := workQueue w, rid := 0, unit := 0, plane := 0, page := 0, member := false, slc := false
                    work := some w }
  let l := (die s d).queue.filter fun x => !stale s d x
  setDie s d { die s d with queue := if l.any fun x => x.work == some w then l else enqueue s q l }

/-! The estimated start wait (R168, R179). -/

/-- Declared time of a program or erase. -/
def workTime (s : State) (d : Nat) : Work → Rat
  | .program j => closedPeriod s d (jobQlc j)
  | .erase _ => ((hdrOf s d).ters : Rat)

/-- Declared time of what stands ahead of q in a queue: each program, each multi-plane read with its transfers, and the
transfers that leave the die ahead of q in its own. -/
def waitAhead (s : State) (d : Nat) (q : DReq) : Nat → List DReq → Rat
  | 0, _ => 0
  | n + 1, l => match l with
    | [] => 0
    | h :: t => match h.work with
      | some w => workTime s d w + waitAhead s d q n t
      | none =>
        let go := combine ((hdrOf s d).flags % 2 == 1) (t.filter fun x => x.work.isNone) [h]
        if go.contains q then ((go.takeWhile (· != q)).length : Rat) * transferTime s d
        else
          let sense := go.foldl (fun (m : Rat) x => if m < senseTime s d x.slc then senseTime s d x.slc else m) 0
          sense + (go.length : Rat) * transferTime s d + waitAhead s d q n (l.filter fun x => !go.contains x)

/-- Estimated start wait of a request on a die (R179): the running operation's declared remainder, or 0 for an erase that
will be suspended, and every queued request ahead. -/
def startWait (s : State) (remain : List (Nat × Nat)) (d : Nat) (q : DReq) : Rat :=
  let dd := die s d
  let run : Nat := match dd.st with
    | .erasing | .suspending | .resuming => if atReserve s d then (remain.lookup d).getD 0 else 0
    | .idle | .suspended => 0
    | _ => (remain.lookup d).getD 0
  let l := (dd.queue.filter fun x => decide (x.cls ≤ q.cls)) ++ [q]
  (run : Rat) + waitAhead s d q l.length l

/-! Members of a rebuild (R181, R219, R221). -/

/-- The request of a read unit on one die: the target's, or a member's. -/
def unitReq (s : State) (r : RdUnit) (member : Bool) : DReq :=
  { cls := queueClass (servedClass s r), rid := r.rid, unit := r.unit, plane := r.plane
    page := r.row * 1024 + r.page, member := member, slc := r.slc }

/-- A cell of the read unit's ring stripe was left out on facet f (R239). -/
def absentCell (s : State) (r : RdUnit) (f : Nat) : Bool :=
  let inst := (zone s r.zone).ring.getD 0
  (ring s inst).absent.any fun c =>
    let l := ringLoc s inst c
    l.facet == f && l.row == r.row && l.page == r.page && l.plane == r.plane && l.cw == r.cw

/-- A unit of the read unit's pool stripe is absent on facet f (R239). -/
def absentPool (s : State) (r : RdUnit) (f : Nat) : Bool :=
  let z := (r.row - 8) * 128 + r.group
  decide (8 ≤ r.row) && (zone s z).absent.any fun o =>
    let l := prism z r.parity o
    l.facet == f && l.page == r.page && l.plane == r.plane && l.cw == r.cw

/-- The read unit's facet f cannot give its codeword: a hole, a block without a spare, an absent unit of its fold, or an
absent cell of its ring stripe (R181, R237, R242). -/
def missing (s : State) (r : RdUnit) (f : Nat) : Bool :=
  isHole s (facetDie r.group f) || deadBlock s (facetDie r.group f) r.row || (r.slc && absentCell s r f) || absentPool s r f ||
  (!r.slc && (kvGet {} (r.page / 4) (zone s r.zone).folds).absent.contains f)

/-- The member set of R181: every other facet, less one in a stripe of two parities. Left out is the first missing or
closed facet counting up from the target, else the one of longest wait. -/
def memberSet (s : State) (r : RdUnit) (remain : List (Nat × Nat)) : List Nat × List Nat :=
  let others := (List.range 15).map fun i => (r.facet + 1 + i) % 16
  let bad (f : Nat) : Bool := missing s r f || isClosed s (facetDie r.group f)
  let wait (f : Nat) : Rat := startWait s remain (facetDie r.group f) (unitReq s r true)
  if r.parity ≤ 1 then (others, [])
  else
    let out := match others.find? (fun f => missing s r f) with
      | some f => some f
      | none => match others.find? bad with
        | some f => some f
        | none => others.foldl (fun (m : Option Nat) f => match m with
            | some x => if wait x < wait f then some f else some x
            | none => some f) none
    match out with
    | some f => (others.filter (· != f), [f])
    | none => (others, [])

/-- A request of the unit still stands on some die. -/
def onDie (s : State) (r : RdUnit) : Bool :=
  s.dies.any fun e => (e.2.queue ++ e.2.reading).any fun q => q.work.isNone && q.rid == r.rid && q.unit == r.unit

/-- The twin step of R218 is open: a joined twin, and the zone in step on both (R219). -/
def twinStep (s : State) (z : Nat) : Bool :=
  pairRole s != 0 && s.pair.linkUp && joined s && (zone s z).marked.isNone

/-! Ends of a media read. -/

def leavePeriscope (s : State) (r : RdUnit) : State :=
  if r.peri then setGrp s r.group { grp s r.group with periInFlight := (grp s r.group).periInFlight - 1 } else s

/-- Cancel the requests of a unit that have not started. -/
def cancelReqs (s : State) (r : RdUnit) : State :=
  let clear (x : Die) : Die :=
    { x with queue := x.queue.filter fun q => !(q.work.isNone && q.rid == r.rid && q.unit == r.unit) }
  { s with dies := kvMap {} clear s.dies }

/-- A unit's data has arrived, and the command goes on (R15). -/
def unitArrived (s : State) (r : RdUnit) : State :=
  let s := dropRdUnit (leavePeriscope s r) r.rid r.unit
  match cmd? s r.rid with
  | none => s
  | some k => tryRead (setCmd s { k with need := k.need.filter fun u => u != r.unit }) r.rid

/-- A read that reaches the failure step (R220). -/
def unitFailed (s : State) (r : RdUnit) : State :=
  let s := dropRdUnit (cancelReqs (leavePeriscope s r) r) r.rid r.unit
  match cmd? s r.rid with
  | none => s
  | some k =>
    let s := unrecovered s k.io.nsid k.io.fn r.unit
    let k := if k.status = 0 then { k with status := stUnrecovered } else k
    tryRead (setCmd s { k with need := k.need.filter fun u => u != r.unit }) r.rid

/-- The twin step, or failure where no twin can serve (R218, R222, R241). -/
def twinOrFail (s : State) (r : RdUnit) : State :=
  if twinStep s r.zone then
    sendFrame (setRdUnit (leavePeriscope s r) { r with mode := .twin, peri := false, step := 6 + od s 0x4010 0x01 }) 0 0x12
      [r.rid, r.zone, r.unit]
  else unitFailed s r

/-- Judge one codeword read of a die for rewrite (R226): its read count, and the bits corrected at step 0. A staged
unit has its fold moved up instead (R228). -/
def judge (s : State) (d : Nat) (r : RdUnit) (corrected step : Nat) : State :=
  let dd := die s d
  let b := rowBlock s d r.row
  let n := kvGet 0 b dd.readCount + 1
  let s := setDie s d { dd with readCount := kvPut 0 b n dd.readCount }
  let hit := (step == 0 && decide (od s 0x4010 0x02 ≤ corrected)) || decide (2 ≤ step) || decide (od s 0x4010 0x03 ≤ n)
  if !hit then s
  else if r.slc then
    match ns? s ((cmd? s r.rid).map (·.io.nsid) |>.getD 0) with
    | some m => urgentFold s r.zone (foldOf (16 - m.pn) (m.offset (r.unit * m.bpu) / m.bpu))
    | none => s
  else queueRewrite s d r.row (decide (2 ≤ step))

/-- Place a unit's read on its target die. -/
def goDirect (s : State) (r : RdUnit) : State :=
  let d := facetDie r.group r.facet
  enqueueRead (setRdUnit s { r with mode := .direct, step := 0, members := [], decoded := [], left := [] }) d
    (unitReq s r false)

/-- Send member reads to a unit's members. -/
def goMembers (s : State) (r : RdUnit) (mode : RdMode) (ms left : List Nat) : State :=
  let s := setRdUnit s { r with mode := mode, members := ms, decoded := [], left := left, member := none }
  ms.foldl (fun s f => enqueueRead s (facetDie r.group f) (unitReq s r true)) s

end Sys2Proof.Machine
end

