-- ==== Sys2Proof/Machine/DieReads.lean ====
section
/-! DEFINITION. Reads at the dies: placement, completion, the retry ladder and soft decoding (R19 to R21, R168, R177 to
R184, R217 to R226). -/

namespace Sys2Proof.Machine

/-- The target die can serve the read directly (R199, R221, R237, R243): its facet is programmed, and the die is in service,
or in phase 3 of probation with the facet done and the reader no contract lens; and no rewrite after a failed verify read stands
before its switch (R245). -/
def directOk (s : State) (r : RdUnit) : Bool :=
  let d := die s (facetDie r.group r.facet)
  !r.noDirect && (d.rewrites.all fun x => !(x.verify && x.row == r.row && decide (x.step < 3))) && !deadBlock s (facetDie r.group r.facet) r.row && (chan s (facetChan r.group r.facet)).state != 3 &&
  ((d.service == 0 && d.phase == 4) || (d.phase == 3 && d.verified.contains r.zone && servedClass s r != 0))

/-- The target takes no read now: it is closed, or its channel is loading or training (R180). -/
def targetShut (s : State) (r : RdUnit) : Bool :=
  isClosed s (facetDie r.group r.facet) || (chan s (facetChan r.group r.facet)).state != 0

/-- Count a contract read by its chosen start wait (R184, R357). -/
def countWait (s : State) (r : RdUnit) (w : Rat) : State :=
  if servedClass s r ≠ 0 ∨ w ≤ (od s 0x3100 0x03 : Rat) then s
  else
    let fn := (cmd? s r.rid).map (·.io.fn) |>.getD 0
    let f := fnc s fn
    let n := Nat.min (2 ^ 32 - 1) (kvGet 0 r.group f.overBudget + 1)
    let s := setFn s fn { f with overBudget := kvPut 0 r.group n f.overBudget }
    let s := odBump (odBump s 0x3110 0x08 r.group) 0x6220 0x03 fn
    if (od s 0x3100 0x04 : Rat) < w then odBump (odBump s 0x3110 0x09 r.group) 0x6220 0x04 fn else s

/-- Longest estimated wait of a member set. -/
def setWait (s : State) (r : RdUnit) (remain : List (Nat × Nat)) (ms : List Nat) : Rat :=
  ms.foldl (fun (m : Rat) f =>
    let w := startWait s remain (facetDie r.group f) (unitReq s r true)
    if m < w then w else m) 0

/-- Count a periscope read, and let it take a place under its group's cap (R182, R183). -/
def takePeriscope (s : State) (r : RdUnit) : State :=
  let s := odBump (odBump s 0x3110 0x07 r.group) 0x6220 0x05 ((cmd? s r.rid).map (·.io.fn) |>.getD 0)
  setGrp s r.group { grp s r.group with periInFlight := (grp s r.group).periInFlight + 1 }

/-- Issue a periscope read to its members (R181 to R183). -/
def goPeriscope (s : State) (r : RdUnit) (ms left : List Nat) : State :=
  goMembers (takePeriscope s r) { r with peri := true } .periscope ms left

/-- The group is below its periscope cap (R182). -/
def periRoom (s : State) (r : RdUnit) : Bool := decide ((grp s r.group).periInFlight < od s 0x3100 0x08)

/-- Count a read that the cap turns away, once (R182). -/
def turnAway (s : State) (r : RdUnit) : State :=
  if r.turned then s else odBump (setRdUnit s { r with turned := true }) 0x3110 0x0A r.group

/-- Missing codewords among the other facets of the stripe. -/
def othersMissing (s : State) (r : RdUnit) : Nat :=
  ((List.range 16).filter fun f => f != r.facet && missing s r f).length

/-- The rebuild of a unit that cannot be served direct, which is a periscope read under the cap (R182, R199, R221), or the
rebuild step of the ladder (R217, R218, R241). It waits while a member it needs is closed. -/
def goRebuild (s : State) (r : RdUnit) (remain : List (Nat × Nat)) : State :=
  if r.parity ≤ othersMissing s r then twinOrFail s r
  else
    let (ms, left) := memberSet s r remain
    let r' := { r with step := 5 + od s 0x4010 0x01 }
    if ms.any fun f => isClosed s (facetDie r.group f) then s
    else if !r.noDirect then goMembers s r' .rebuild ms left
    else if !periRoom s r then turnAway s r
    else goMembers (takePeriscope (countWait s r (setWait s r remain ms)) r) { r' with peri := true } .rebuild ms left

/-- Placement of a queued read (R180 to R184, R221): direct within the budget, else a periscope read within it, else the
earlier of the two. Where both would start at the same estimated time the read goes direct (log entry 109). -/
def placeRead (s : State) (r : RdUnit) (remain : List (Nat × Nat)) : State :=
  let cls := servedClass s r
  if !directOk s r then goRebuild s { r with noDirect := true } remain
  else
    let shut := targetShut s r
    let w := startWait s remain (facetDie r.group r.facet) (unitReq s r false)
    if 2 ≤ cls ∨ r.only then (if shut then s else goDirect (countWait s r w) r)
    else
      let budget : Rat := (od s 0x3100 (if cls = 0 then 0x03 else 0x05) : Nat)
      if !shut && decide (w ≤ budget) then goDirect s r
      else
        let (ms, left) := memberSet s r remain
        let free := ms.all fun f => !missing s r f && !isClosed s (facetDie r.group f)
        let mw := setWait s r remain ms
        let want := free && (decide (mw ≤ budget) || shut || decide (mw < w))
        if want && periRoom s r then goPeriscope (countWait s r mw) r ms left
        else
          let s := if want then turnAway s r else s
          if shut then s else goDirect (countWait s r w) { r with turned := r.turned || want }

/-- The die scheduler places a queued read (R180); remain gives the declared remaining time of running operations. -/
def execDieReadIssue (rid unit : Nat) (remain : List (Nat × Nat)) (s : State) : Host.Outcome State Fault Refusal :=
  .next (match rdUnit? s rid unit with
    | some r => if r.mode = .queued ∧ s.power.hold = .running then placeRead s r remain else s
    | none => s)

/-- The success of a repeat after a hard timeout is a transient fault; E of them within 24 hours take the die out
(R211, R223, R224). -/
def repeatDone (s : State) (d : Nat) : State :=
  let dd := die s d
  if !dd.repeated then s
  else
    let now := s.health.seconds
    let ts := (dd.timeouts.filter fun t => decide (now < t + 86400)) ++ [now]
    let s := setDie s d { dd with repeated := false, timeouts := ts }
    let s := loupe (odBump s 0x4000 0x07) 225 0x31 1 [d]
    if od s 0x4010 0x0A ≤ ts.length then dieOutLasting s d false else s

/-- Members of a rebuild that are neither decoded nor on a die. -/
def nextFailing (s : State) (r : RdUnit) : Option Nat :=
  r.members.find? fun f => !r.decoded.contains f &&
    !((die s (facetDie r.group f)).queue ++ (die s (facetDie r.group f)).reading).any
      fun q => q.work.isNone && q.rid == r.rid && q.unit == r.unit && q.member

/-- A member's codeword is there. With all of them the rebuild unit gives the target's codeword (R19, R217). -/
def memberDecoded (s : State) (r : RdUnit) (f : Nat) : State :=
  let mine := r.member == some f
  let r := { r with decoded := addTo f r.decoded, member := if mine then none else r.member
                    left := if mine then [] else r.left }
  if r.members.all fun m => r.decoded.contains m then
    let s := if r.mode = .rebuild then
        let s := odBump s 0x4000 0x04
        if r.noDirect then s else judge s (facetDie r.group r.facet) r 0 2
      else s
    unitArrived s r
  else
    let r := if r.mode = .rebuild ∧ r.member = none then
        { r with member := nextFailing s r, step := if (nextFailing s r).isSome then 0 else r.step } else r
    setRdUnit s r

/-- A member read of a rebuild fails hard decoding (R222): the member left out takes its place where a parity is to
spare; else the member's own codeword is recovered, for a unit that has no direct read, or the ladder goes on. -/
def rebuildMemberBad (s : State) (r : RdUnit) (f : Nat) : State :=
  match r.left.find? fun x => !missing s r x && decide (x < 16) with
  | some x =>
    let r := { r with members := (r.members.filter fun m => m != f) ++ [x], left := [] }
    enqueueRead (setRdUnit s r) (facetDie r.group x) (unitReq s r true)
  | none =>
    if r.noDirect then
      setRdUnit s (if r.member.isNone then { r with member := some f, step := 0, left := [] } else r)
    else twinOrFail (cancelReqs s r) r

/-- A member read of a periscope read fails hard decoding (R21): the rebuild is abandoned and the target read, counted under
R184 (R199); a closed target is read once it reopens. -/
def periscopeFallback (s : State) (r : RdUnit) (f : Nat) (remain : List (Nat × Nat)) : State :=
  if directOk s r then
    let s := odBump s 0x6220 0x06 ((cmd? s r.rid).map (·.io.fn) |>.getD 0)
    let s := cancelReqs (leavePeriscope s r) r
    let r := { r with mode := .queued, peri := false, only := true, members := [], decoded := [], left := [] }
    if targetShut s r then setRdUnit s r
    else goDirect (countWait s r (startWait s remain (facetDie r.group r.facet) (unitReq s r false))) r
  else rebuildMemberBad s { r with mode := .rebuild, noDirect := true } f

/-- What a read's decoded or failed codeword means to the unit it belongs to (R189). -/
def readOutcome (s : State) (r : RdUnit) (d : Nat) (member : Bool) (dec : Dec) (remain : List (Nat × Nat)) : State :=
  let f := dieFacet d
  match member, dec with
  | false, .good c => if r.mode = .direct then unitArrived (judge s d r c 0) r else s
  | false, .bad => s
  | true, .good c =>
    if (r.mode = .periscope ∨ r.mode = .rebuild) ∧ r.members.contains f then memberDecoded (judge s d r c 0) r f else s
  | true, .bad =>
    if !r.members.contains f then s
    else if r.mode = .periscope then periscopeFallback s r f remain
    else if r.mode = .rebuild then rebuildMemberBad s r f else s

/-- A die read transfers its data and is hard-decoded (R189): combined reads leave the die in their order (R168). The outcome
belongs to a direct read, or to a member read of a periscope read or rebuild. Where the path code of its buffer fails the media
read is repeated into a new buffer (R504). -/
def execDieReadDone (rid unit d : Nat) (read : Decoded) (remain : List (Nat × Nat)) (s : State) :
    Host.Outcome State Fault Refusal :=
  .next (
    let dd := die s d
    match dd.reading with
    | [] => s
    | q :: rest =>
      if q.rid ≠ rid ∨ q.unit ≠ unit then s
      else
        let st := if rest ≠ [] then dd.st else if dd.st = .readInSuspend then .suspended else .idle
        let s := setDie s d { dd with reading := rest, st := st }
        let s := if rest = [] then repeatDone (endEntry s d 0) d else s
        let s := sramPath s read.path
        let s := if SramPath.bad read.path then setDie s d { die s d with queue := enqueue s q (die s d).queue }
          else match rdUnit? s rid unit with
            | none => s
            | some r => readOutcome s r d q.member read.dec remain
        pump s d)

/-- The die that a ladder step reads: the target's, or the failing member's (R222). -/
def ladderDie (r : RdUnit) : Nat := facetDie r.group (r.member.getD r.facet)

/-- The die can take a ladder step now: no request stands ahead of it in its class or a higher one (R177, R218). -/
def ladderTurn (s : State) (r : RdUnit) : Bool :=
  let d := ladderDie r
  let q := unitReq s r r.member.isSome
  dieFree s d && shareLeft s d q.cls q.slc && (die s d).queue.all fun x => decide (q.cls < x.cls)

/-- A ladder step at or above the hard ones succeeded. -/
def ladderGood (s : State) (r : RdUnit) (k : Nat) : State :=
  let d := ladderDie r
  let s := if k = 1 then transientMedia s d r.row else judge s d r 0 k
  match r.member with
  | some f => memberDecoded s r f
  | none => unitArrived s r

/-- A read that failed decoding climbs one step of the ladder (R218, R222, R223). A hard step ends here with the
decoder's outcome; a soft step waits for its decoder; the rebuild and twin steps send their requests. A step whose buffer fails
its path code is repeated (R504). -/
def execReadRetryStep (rid unit : Nat) (t : Tried) (s : State) :
    Host.Outcome State Fault Refusal :=
  .next (match rdUnit? s rid unit with
    | none => s
    | some r =>
      let ready := (r.mode = .direct ∧ !onDie s r) ∨ (r.mode = .rebuild ∧ r.member.isSome)
      let soft := r.left.any fun x => decide (16 ≤ x)
      let k := r.step + 1
      let lr := od s 0x4010 0x01
      if !ready ∨ soft then s
      else if 4 + lr < k then
        if r.member.isSome then twinOrFail s r
        else if k = 5 + lr then goRebuild s r t.remain
        else twinOrFail s r
      else if !ladderTurn s r then s
      else
        let s := useShare s (ladderDie r) (queueClass (servedClass s r)) r.slc
        let s := sramPath s t.read.path
        if SramPath.bad t.read.path then s
        else if k ≤ 1 + lr then
          match t.read.dec with
          | .good _ => ladderGood s { r with step := k } k
          | .bad => setRdUnit (if k = 1 then lastingMedia s (ladderDie r) r.row else s) { r with step := k }
        else setRdUnit s { r with step := k, left := [16 + k] })

/-- Channels that wait for a soft decoder. -/
def softWaiting (s : State) : List Nat :=
  (s.reads.filter fun r => r.left.any fun x => decide (16 ≤ x)).map fun r => dieChan (ladderDie r)

/-- A shared soft decoder decodes a codeword sensed at extra levels (R218): channels take turns by rotation (R44). -/
def execSoftDecode (rid unit : Nat) (read : Decoded) (s : State) : Host.Outcome State Fault Refusal :=
  .next (match rdUnit? s rid unit with
    | none => s
    | some r =>
      let ch := dieChan (ladderDie r)
      if !(r.left.any fun x => decide (16 ≤ x)) ∨ 16 ≤ s.bist.decodersOut.length ∨
          rotPick s.sched.softPtr (softWaiting s) ≠ some ch then s
      else
        let s := sramPath { s with sched.softPtr := (ch + 1) % 64 } read.path
        if SramPath.bad read.path then s
        else
          let s := odBump s 0x4000 0x03
          let r := { r with left := [] }
          match read.dec with
          | .good _ => ladderGood s r r.step
          | .bad => setRdUnit s r)

end Sys2Proof.Machine
end

