-- ==== Sys2Proof/Machine/DieOps.lean ====
section
/-! DEFINITION. Programs and erases at the dies: starts under the dark-die limit, completions, suspends, resumes and
timeouts (R29, R142 to R147, R166 to R176, R189 to R197, R209 to R211, R223, R233, R239, R240, R273 to R275). -/

namespace Sys2Proof.Machine

/-- A conventional unit stands in its pool row (R82, R162). -/
def poolDone (s : State) (nsid u : Nat) : State :=
  match ns? s nsid with
  | none => s
  | some n => match poolPlace n u with
    | none => s
    | some (z, o) =>
      let e := kvGet {} u n.units
      let s := setNs s { n with units := kvPut {} u { e with loc := .pool (z * 262144 + o), held := none } n.units
                                fill := kvPut 0 z (o + 1) n.fill }
      let s := match e.held with | some f => freeWindow s [f] | none => s
      let s := { s with host.fdpMedia := s.host.fdpMedia + 4096 }
      journal s 6 [nsid, 1, u, poolUnit n (z * 262144 + o)]

/-- Mark a unit of a pool row absent (R239). -/
def absentUnit (s : State) (pn : Nat) (place : Option (Nat × Nat)) : State :=
  match place with
  | none => s
  | some (z, o) =>
    let s := setZone s z { zone s z with absent := addTo o (zone s z).absent }
    journal s 8 [z, 0, (prism z pn o).facet, o]

/-- Unit of a conventional unit's program. -/
def jobUnit : ProgJob → Nat
  | .pool _ u => u
  | _ => 0

/-- A facet of a group takes no program of a row: its die is out, or its block has no spare (R237, R239). -/
def facetGone (s : State) (g row f : Nat) : Bool := dieOut s (facetDie g f) || deadBlock s (facetDie g f) row

/-- A program of an out-of-service die, or of a block without a spare, is left out: its units are marked absent, unless
the stripe would keep more missing codewords than its parity count (R237, R239, R240). -/
def leaveOut (s : State) (d : Nat) (job : ProgJob) : State :=
  match job with
  | .fold z w =>
    let fo := kvGet {} w (zone s z).folds
    let f := dieFacet d
    let gone := (f :: fo.absent ++ (List.range 16).filter (facetGone s (dieGroup d) (rowOf z))).eraseDups
    if fo.completeAsn != 0 && !fo.done.contains f && !fo.absent.contains f && decide (gone.length ≤ zonePn s z) then
      foldFacetAbsent s z w f else s
  | .stage inst row page =>
    let cs := pageCells s inst row page (dieFacet d)
    let outs := (List.range 16).filter (facetGone s (dieGroup d) (jobRow s d job))
    if 2 < outs.length then s
    else
      let s := setRing s inst { ring s inst with absent := (ring s inst).absent ++ cs.map (·.1) }
      let s := cs.foldl (fun s e => journal s 8 [inst, 1, dieFacet d, e.1]) s
      cs.foldl (fun s e => stageUnit s inst e.1 e.2.1 e.2.2) s
  | .pool nsid _ => match ns? s nsid with
    | some n =>
      let outs := (List.range 16).filter (facetGone s (dieGroup d) (jobRow s d job))
      if decide (outs.length ≤ n.pn) && jobReady s d job then absentUnit (poolDone s nsid (jobUnit job)) n.pn (poolPlace n (jobUnit job)) else s
    | none => s
  | _ => s

/-- A handle of a conventional unit's program refers to a reclaim unit with room (R162). -/
def jobHandle (s : State) (job : ProgJob) : State :=
  match job with
  | .pool nsid u => (match ns? s nsid with
    | some n => setNs s (ensureHandle s n (kvGet {} u n.units).handle)
    | none => s)
  | _ => s

/-- A program is to start on a die (R167, R171 to R177, R189, R190, R193, R195, R230, R233, R239): it joins the die's queue, and
the scheduler starts what its order, grants and limits allow. elapsed is the time of the current slot that has passed. -/
def execDieProgramIssue (d : Nat) (p : ProgIssue) (s : State) : Host.Outcome State Fault Refusal :=
  let s := jobHandle s p.job
  .next (
    if dieOut s d ∨ deadBlock s d (jobRow s d p.job) then leaveOut s d p.job
    else if !jobReady s d p.job then s
    else serve (enqueueWork s d (.program p.job)) p.elapsed)

/-! Completion of programs. -/

/-- What a block is to the erase ledger (R273). -/
def blockPurpose (s : State) (d b : Nat) : Nat :=
  let row := blockRow s d b
  if row = 1 ∨ row = 2 then 6 else if row = 7 then 5 else if row < 8 then 4
  else if row < 8 + zoneRows s then (if s.nss.any fun n => n.poolRows.contains (zoneOfRow s (dieGroup d) row) then 1 else 0)
  else if rowsR s - rowsT s ≤ row ∧ row < rowsR s then 2 else 3

/-- The lowest sequence of a start cell with an uncompleted entry, or the new cell's own where none is open (R273, log entry
128). -/
def openFloor (dd : Die) (seq : Nat) : Nat :=
  (dd.cells.filter fun c => c.start && c.blocks.any fun e => dd.started.contains e.1).foldl (fun m c => Nat.min m c.seq) seq

/-- Program a cell into the die's current ledger block (R273). -/
def addCell (s : State) (d : Nat) (start : Bool) (blocks : List Nat) : State :=
  let dd := die s d
  let entry (b : Nat) : Nat × Nat × Nat := (b, blockPurpose s d b, kvGet 0 b dd.cycles + if start then 1 else 0)
  let c : EraseCell := { start := start, seq := dd.cellSeq + 1, blocks := blocks.map entry, row := dd.ledgerRow
                         floor := openFloor dd (dd.cellSeq + 1), lsn := s.jrn.nextLsn - 1 }
  setDie s d { dd with cells := dd.cells ++ [c], cellSeq := dd.cellSeq + 1, cellCount := dd.cellCount + 1 }

/-- An erase that is a step of its own, between its start cell and its completion cell (R274). -/
def ledgerErase (s : State) (d b : Nat) : State := addCell (addCell s d true [b]) d false [b]

/-- Once the completion cell names the die's other ledger block, the die changes to it (R275). -/
def changeLedger (s : State) (d : Nat) (blocks : List Nat) : State :=
  let dd := die s d
  let other := 3 - dd.ledgerRow
  if blocks.contains (rowBlock s d other) then
    setDie s d { dd with ledgerRow := other, cellCount := 0, cells := dd.cells.filter fun c => c.row != other }
  else s

/-- A start cell is durable: its blocks may be erased (R273 to R275). -/
def startCellDone (s : State) (d : Nat) (blocks : List Nat) : State :=
  let s := addCell s d true blocks
  let s := setDie s d { die s d with started := (die s d).started ++ blocks }
  blocks.foldl (fun s b =>
    let z := zoneOfRow s (dieGroup d) (blockRow s d b)
    if z = 0xFFFFFFFF then s
    else setZone s z { zone s z with eraseQueue := (zone s z).eraseQueue.filter fun f => f != dieFacet d }) s

/-- A completion cell is durable: its blocks are free, and their erased records are journalled (R29, R139, R274). -/
def doneCellDone (s : State) (d : Nat) : State :=
  let dd := die s d
  let blocks := dd.ended
  let s := setDie s d { dd with ended := [], started := dd.started.filter fun b => !blocks.contains b
                                half := dd.half.filter fun b => !blocks.contains b }
  let s := changeLedger (addCell s d false blocks) d blocks
  blocks.foldl (fun s b =>
    let s := journal s 5 [d, b, (die s d).cellSeq]
    let row := blockRow s d b
    let g := dieGroup d
    let z := zoneOfRow s g row
    if z ≠ 0xFFFFFFFF then
      setZone s z { zone s z with eraseLeft := (zone s z).eraseLeft.filter fun f => f != dieFacet d }
    else if rowsR s - rowsT s ≤ row ∧ row < rowsR s then
      let x := row - (rowsR s - rowsT s)
      let inst := ringInst g (x / ringRows s)
      let key := x % ringRows s * 16 + dieFacet d
      setRing s inst { ring s inst with unerased := (ring s inst).unerased.filter fun e => e != key }
    else s) s

/-- What a completed program leaves (R144, R147, R233, R245, R273). A fold of a zone that has been reset since is abandoned
(R148). -/
def jobDone (s : State) (d : Nat) (job : ProgJob) : State :=
  match job with
  | .stage inst row page =>
    (pageCells s inst row page (dieFacet d)).foldl (fun s e => stageUnit s inst e.1 e.2.1 e.2.2) s
  | .fold z w | .copy z w => if (zone s z).eraseLeft.contains (dieFacet d) then s else foldFacetDone s z w (dieFacet d)
  | .startCell blocks => startCellDone s d blocks
  | .doneCell => doneCellDone s d
  | .system => s
  | .pool nsid u => poolDone s nsid u

/-- A program or erase failure that its second attempt cured (R223). -/
def transientWrite (s : State) (d : Nat) : State := loupe (odBump s 0x4000 0x05) 225 0x40 1 [d]

/-- The stop of an operation that ran too long (R209, R211): the first is repeated, the second takes the die out. -/
def hardTimeout (s : State) (d : Nat) : State :=
  let dd := die s d
  let c := ctx s d
  let s := odBump (endEntry s d 0x81) 0x3120 0x04 d
  if dd.repeated then dieOutLasting (odBump s 0x4000 0x08) d true
  else timeoutReset (setDie s d { die s d with repeated := true }) d c

/-- A program reports ready: the die reopens, and its status decides (R189, R209, R223, R233). -/
def execDieProgramReady (d status : Nat) (verifyOk : Bool) (s : State) : Host.Outcome State Fault Refusal :=
  .next (
    let dd := die s d
    match dd.job with
    | none => s
    | some job =>
      if dd.st ≠ .programming ∧ dd.st ≠ .programInSuspend then s
      else if status = 2 ∨ status = 0x81 then hardTimeout s d
      else if status = 0x82 then scriptFault s d
      else
        let s := setDie s d { dd with st := if dd.st = .programInSuspend then .suspended else .idle, job := none }
        let s := endEntry s d status
        let row := jobRow s d job
        let s :=
          if status = 0 then jobDone (repeatDone s d) d job
          else if status = 0x83 then enqueueWork s d (.program job)
          else if status = 0x80 then loupe (odBump s 0x3120 0x05 d) 194 0x31 6 [d, rowBlock s d row]
          else if verifyOk then jobDone (transientWrite s d) d job
          else retire (odBump s 0x4000 0x06) d (rowBlock s d row)
        pump s d)

/-! Erases (R189 to R192, R223, R246, R274). -/

/-- An erase is to start on a block that a durable start cell names (R190, R195, R274): it joins the die's queue. -/
def execDieEraseIssue (d block : Nat) (s : State) : Host.Outcome State Fault Refusal :=
  .next (if dieOut s d ∨ !eraseReady s d block then s
    else serve (enqueueWork s d (.erase block)) s.sched.slotUs)

/-- An erase has ended well: its completion cell is due, and its block is counted (R189, R246). -/
def eraseDone (s : State) (d : Nat) : State :=
  let dd := die s d
  match dd.erase with
  | none => s
  | some b =>
    let s := if dd.eraseRepeated then transientWrite s d else s
    let dd := die s d
    setDie s d { dd with st := .idle, erase := none, suspends := 0, ended := addTo b dd.ended, eraseRepeated := false
                         cycles := kvPut 0 b (kvGet 0 b dd.cycles + 1) dd.cycles, readCount := kvPut 0 b 0 dd.readCount }

/-- An erase has failed: once, it is repeated under a new start cell; again, its block is retired (R223). -/
def eraseFailed (s : State) (d : Nat) : State :=
  let dd := die s d
  match dd.erase with
  | none => s
  | some b =>
    let dd' := { dd with st := .idle, erase := none, suspends := 0 }
    if dd.eraseRepeated then
      retire (odBump (setDie s d { dd' with eraseRepeated := false, started := dd.started.filter (· != b) }) 0x4000 0x06) d b
    else eraseAgain (setDie s d { dd' with eraseRepeated := true }) d b

/-- The end of an erase by its status (R209). -/
def eraseEnds (s : State) (d status : Nat) : State :=
  if status = 2 ∨ status = 0x81 then hardTimeout s d
  else if status = 0x82 then scriptFault s d
  else
    let s := endEntry s d status
    if status = 0 ∨ status = 3 then pump (eraseDone (repeatDone s d) d) d
    else if status = 0x83 then
      let again (s : State) : State := match (die s d).erase with
        | some b => enqueueWork (setDie s d { die s d with st := .idle, erase := none }) d (.erase b)
        | none => s
      again s
    else pump (eraseFailed s d) d

/-- An erase reports ready (R189). -/
def execDieEraseReady (d status : Nat) (s : State) : Host.Outcome State Fault Refusal :=
  .next (if (die s d).st = .erasing ∨ (die s d).st = .resuming then eraseEnds s d status else s)

/-- Start the suspend of a running erase (R189). -/
def suspendErase (s : State) (d : Nat) (boundary : Bool) : State :=
  let dd := die s d
  startEntry (setDie s d { dd with st := .suspending, atBoundary := boundary }) d 3 0 0 0 0 0 false 0 0 false

/-- A running erase is suspended for a request of class 1 to 6 above its reserve, or at a slot boundary (R178, R189,
R192). -/
def execEraseSuspend (d : Nat) (boundary : Bool) (s : State) : Host.Outcome State Fault Refusal :=
  let dd := die s d
  let due := boundary || ((dd.queue.head?.any fun q => decide (q.cls ≤ 6)) && !atReserve s d)
  .next (if dd.st = .erasing ∧ due ∧ dd.suspends < (hdrOf s d).suspends then suspendErase s d boundary else s)

/-- The suspend entry ends: suspended, or the erase had completed (R189, R209). -/
def execEraseSuspendDone (d status : Nat) (s : State) : Host.Outcome State Fault Refusal :=
  let dd := die s d
  .next (if dd.st ≠ .suspending then s
    else if status = 4 then
      pump (setDie (endEntry s d 4) d { dd with st := .suspended, suspends := dd.suspends + 1 }) d
    else eraseEnds s d status)

/-- A resume chance (R191, R192): no request of class 1 to 6 waits or its channel loads a script, which holds new operations
(R213), or the slot boundary after one; at its reserve in
a contract group only in a stage slot and within the limit. -/
def mayResume (s : State) (d : Nat) (boundary : Bool) : Bool :=
  let dd := die s d
  dd.st == .suspended && !dd.resumed && (boundary || (chan s (dieChan d)).state == 1 || dd.queue.all fun q => decide (6 < q.cls)) &&
  s.power.hold == .running &&
  (!(atReserve s d && isContract s (dieGroup d)) || (!inFoldSlot s && mayClose s (dieGroup d) false))

/-- Resume a suspended erase. -/
def resumeErase (s : State) (d : Nat) : State :=
  let dd := die s d
  startEntry (setDie s d { dd with st := .resuming, resumed := true, atBoundary := false }) d 4 0 0 0 0 0 false 0 0 false

/-- A suspended erase is resumed, at most once per slot (R191). -/
def execEraseResume (d : Nat) (s : State) : Host.Outcome State Fault Refusal :=
  .next (if mayResume s d false then resumeErase s d else s)

/-! Timeouts and limits (R208, R210, R211). -/

/-- A wrdy reaches its count: the context jumps to entry 15 with v15 the wrdy's index, or the operation ends with
0x81 (R210). -/
def execWrdyTimeout (d : Nat) (s : State) : Host.Outcome State Fault Refusal :=
  let c := ctx s d
  let h := (chan s (dieChan d)).entry.getD 15 0xFFFF
  .next (if !c.waiting then s
    else if h = 0xFFFF then hardTimeout s d
    else setCtx s d { c with waiting := false, pc := h, v := c.v.set 15 (BitVec.ofNat 32 (c.pc - 1)) })

/-- The die runs an operation. -/
def dieBusy (s : State) (d : Nat) : Bool :=
  match (die s d).st with
  | .idle | .suspended | .out => (ctx s d).entry.isSome
  | _ => true

/-- An operation past its limit is stopped, the die reset and the operation repeated once (R211). -/
def execOperationTimeout (d : Nat) (s : State) : Host.Outcome State Fault Refusal :=
  .next (if dieBusy s d then hardTimeout s d else s)

/-- More than 65,536 instructions in one operation are a script fault (R208). -/
def execScriptInstructionLimit (d : Nat) (s : State) : Host.Outcome State Fault Refusal :=
  .next (if (ctx s d).entry.isSome then scriptFault s d else s)

end Sys2Proof.Machine
end

