-- ==== Sys2Proof/Machine/Flags.lean ====
section
/-! DEFINITION. The flag computations: the ALU of the die sequencers (R207) and the flags, rounding and saturation of
the loop engines (R444, R445, R447). -/

namespace Sys2Proof.Machine

/-! Die sequencer (R207). -/

/-- The ALU functions 0 to 6 (R207): add, subtract, and, or, xor, shift left, logical shift right by the low five bits;
7 to 15 have none. -/
def alu (fn : Nat) (a b : Word32) : Option Word32 :=
  match fn with
  | 0 => some (a + b)
  | 1 => some (a - b)
  | 2 => some (a &&& b)
  | 3 => some (a ||| b)
  | 4 => some (a ^^^ b)
  | 5 => some (a <<< (b.toNat % 32))
  | 6 => some (a >>> (b.toNat % 32))
  | _ => none

/-- A context with the flags of an ALU result: zero, and the sign from bit 31 (R207). -/
def Ctx.flags (c : Ctx) (r : Word32) : Ctx := { c with z := r == 0, n := r.msb }

/-- A branch condition of br (R207), none for an undefined one. -/
def brTaken (c : Ctx) (cond : Nat) : Option Bool :=
  match cond with
  | 0 => some true
  | 1 => some c.z
  | 2 => some (!c.z)
  | 3 => some c.n
  | 4 => some (!c.n)
  | _ => none

/-- The condition of bst (R207): with sense 1 every masked bit of S is set, with sense 0 every one is clear. -/
def bstTaken (c : Ctx) (mask : Byte) (sense : Bool) : Bool :=
  if sense then c.s &&& mask == mask else c.s &&& mask == 0

/-! Loop engines (R444, R445, R447). -/

/-- Greatest and smallest accumulator values. -/
def accMax : Int := 2 ^ 39 - 1
def accMin : Int := -2 ^ 39

/-- An accumulator stays at its limit (R445). -/
def accSat (i : Int) : Int := clampInt accMin accMax i
/-- The value passes a limit. -/
def accOver (i : Int) : Bool := decide (i < accMin) || decide (accMax < i)

/-- The Q15 limits of a 16-bit word. -/
def q15Sat (i : Int) : Int := clampInt (-32768) 32767 i

/-- An accumulator rounded to Q15, ties upward, before its saturation (R445). -/
def accRound (a : Int) : Int := (a + 2 ^ 14).fdiv (2 ^ 15)

/-- A left shift by a signed amount; a negative one shifts right arithmetically (R447). -/
def accShift (a : Int) (x : Int) : Int := if 0 ≤ x then a * 2 ^ x.toNat else a.fdiv (2 ^ (-x).toNat)

/-- A branch condition of a loop engine (R447), none for one the spec does not define. -/
def loopCond (e : Engine) (a : Int) (cond : Nat) : Option Bool :=
  match cond with
  | 0 => some true
  | 1 => some e.z
  | 2 => some (!e.z)
  | 3 => some e.n
  | 4 => some (!e.n)
  | 5 => some e.s
  | 6 => some e.c
  | 7 => some (decide (a < 0))
  | _ => none

/-- A physical value as a Q15 word where 1.0 stands for full units, to nearest with ties upward (R444, log entry
41). -/
def toQ15 (value full : Int) : Int := q15Sat ((value * 65536 + full).fdiv (2 * full))

end Sys2Proof.Machine
end

