-- ==== Sys2Proof/Machine/DieScript.lean ====
section
/-! DEFINITION. The die script instructions (R203, R205 to R210), each given its instruction word. -/

namespace Sys2Proof.Machine

/-! Fields of an instruction word (R206). -/

def wOp (w : Word32) : Nat := (w.extractLsb' 26 6).toNat
def wReserved (w : Word32) : Nat := (w.extractLsb' 24 2).toNat
def wFn (w : Word32) : Nat := (w.extractLsb' 20 4).toNat
def wD (w : Word32) : Fin 16 := (w.extractLsb' 16 4).toFin
def wA (w : Word32) : Fin 16 := (w.extractLsb' 12 4).toFin
def wB (w : Word32) : Fin 16 := (w.extractLsb' 8 4).toFin
def wByte (w : Word32) : Byte := w.extractLsb' 0 8
def wTarget (w : Word32) : Nat := (w.extractLsb' 0 11).toNat

/-- Code length N of a channel's script; without words of its own the script counts as the longest (log entry 24). -/
def codeLen (s : State) (ch : Nat) : Nat := if (chan s ch).code = [] then 2048 else (chan s ch).code.length

/-- Contexts of a channel that want the bus: an entry runs and does not wait (R203). -/
def wantsBus (s : State) (ch : Nat) (high : Bool) : List Nat :=
  (List.range 32).filter fun i =>
    let c := ctx s (ch * 32 + i)
    c.entry.isSome && !c.waiting && c.class1 == high

/-- The context that takes a free bus: class 1 operations first, then the rotating rule over die index (R40, R203). -/
def busPick (s : State) (ch : Nat) : Option (Nat × Bool) :=
  match rotPick (chan s ch).ptrHigh (wantsBus s ch true) with
  | some i => some (i, true)
  | none => (rotPick (chan s ch).ptrLow (wantsBus s ch false)).map fun i => (i, false)

/-- The state with the bus given to the context of a die, none while another context has it (R203). -/
def takeBus (s : State) (d : Nat) : Option State :=
  let ch := dieChan d
  let c := chan s ch
  match c.holder with
  | some h => if h = d then some s else none
  | none => match busPick s ch with
    | some (i, high) =>
      if ch * 32 + i = d then
        let p := (i + 1) % 32
        some (setChan s ch (if high then { c with holder := some d, ptrHigh := p } else { c with holder := some d, ptrLow := p }))
      else none
    | none => none

/-- The opcodes of R207. -/
def scriptOps : List Nat :=
  [0, 1, 2, 3, 4, 5, 6, 7, 8, 9, 0xA, 0xB, 0xC, 0x10, 0x11, 0x12, 0x13, 0x14, 0x15, 0x16, 0x17, 0x18, 0x19, 0x1F]

/-- The command of opcode op may run the word: the word stands at the context's index where the script's words are held,
and its opcode is not that of another command (log entry 18). -/
def scriptMeets (s : State) (d op : Nat) (w : Word32) : Bool :=
  (chan s (dieChan d)).code.getD (ctx s d).pc w == w && (wOp w == op || !scriptOps.contains (wOp w))

/-- The context stands at or beyond the end of the script's words: it ran past N in sequence, or its entry names no word. The
spec states only a branch target there as a script fault; the model takes both as one (log entry 24). -/
def pastEnd (s : State) (d : Nat) : Bool :=
  (chan s (dieChan d)).code != [] && decide ((chan s (dieChan d)).code.length ≤ (ctx s d).pc)

/-- Run one instruction of a die's context: it needs a running entry, and the bus. An undefined opcode, a reserved field,
an index past the code or the 65,537th instruction is a script fault (R208); else the counter moves on and the body runs. -/
def scriptStep (s : State) (d op : Nat) (w : Word32) (body : State → Ctx → State) : State :=
  let c := ctx s d
  if c.entry.isNone ∨ c.waiting ∨ !scriptMeets s d op w then s
  else match takeBus s d with
    | none => s
    | some s =>
      if wOp w ≠ op ∨ wReserved w ≠ 0 ∨ 65536 ≤ c.count ∨ pastEnd s d then scriptFault s d
      else
        let c := { c with count := c.count + 1, pc := c.pc + 1 }
        body (setCtx s d c) c

/-- Go to a branch target; one at or beyond N is a script fault (R208). Only a branch that is taken tests its target (log
entry 112). -/
def goTo (s : State) (d : Nat) (c : Ctx) (target : Nat) : State :=
  if codeLen s (dieChan d) ≤ target then scriptFault s d else setCtx s d { c with pc := target }

/-- An ALU instruction: its function must be the one named; the result sets the flags (R207). -/
def aluStep (s : State) (d op fn : Nat) (w : Word32) (b : Ctx → Word32) : State :=
  if wFn w ≠ fn ∧ wFn w ≤ 6 then s
  else scriptStep s d op w fun s c =>
    if wFn w ≠ fn then scriptFault s d
    else match alu fn (c.v[wA w]) (b c) with
      | some r => setCtx s d (({ c with v := c.v.set (wD w) r }).flags r)
      | none => scriptFault s d

/-- Register operand b, and the immediate of alui, which is zero-extended (log entry 110). -/
def regB (w : Word32) (c : Ctx) : Word32 := c.v[wB w]
def imm12 (w : Word32) (_ : Ctx) : Word32 := (w.extractLsb' 0 12).setWidth 32

/-- nop does nothing (R207). -/
def execNop (d : Nat) (w : Word32) (s : State) : Host.Outcome State Fault Refusal :=
  .next (scriptStep s d 0x00 w fun s _ => s)

/-- cmd drives one command cycle (R207). -/
def execCmd (d : Nat) (w : Word32) (s : State) : Host.Outcome State Fault Refusal :=
  .next (scriptStep s d 0x01 w fun s _ => driveBus s d [.cmd (wByte w)])

/-- Byte i of a register; a byte beyond the fourth is a free value (log entry 25). -/
def regByte (s : State) (v : Word32) (i : Nat) : Byte :=
  if i < 4 then v.extractLsb' (8 * i) 8 else BitVec.ofNat 8 (freeVal s)

/-- addr drives the address bytes of a register from the first byte on, lowest first (R207). A count outside 1 to 4 drives as
many cycles as it says (log entry 111). -/
def execAddr (d : Nat) (w : Word32) (s : State) : Host.Outcome State Fault Refusal :=
  .next (scriptStep s d 0x02 w fun s c =>
    let n := (w.extractLsb' 8 3).toNat
    let first := (w.extractLsb' 0 2).toNat
    let s' := driveBus s d ((List.range n).map fun i => .addr (regByte s (c.v[wD w]) (first + i)))
    if 4 < first + n then useFree s' else s')

/-- dout sends v[d] bytes of the write stream (R207). -/
def execDout (d : Nat) (w : Word32) (s : State) : Host.Outcome State Fault Refusal :=
  .next (scriptStep s d 0x03 w fun s c => driveBus s d [.streamOut (c.v[wD w]).toNat])

/-- din receives v[d] bytes into the read stream toward the decoders (R207). -/
def execDin (d : Nat) (w : Word32) (s : State) : Host.Outcome State Fault Refusal :=
  .next (scriptStep s d 0x04 w fun s c => driveBus s d [.streamIn (c.v[wD w]).toNat])

/-- doutb sends the immediate byte, or the low byte of v[d] when bit 8 is set (R207). -/
def execDoutb (d : Nat) (w : Word32) (s : State) : Host.Outcome State Fault Refusal :=
  .next (scriptStep s d 0x05 w fun s c =>
    driveBus s d [.dataOut (if w.getLsbD 8 then (c.v[wD w]).extractLsb' 0 8 else wByte w)])

/-- dinb receives one byte into v[d] (R207). -/
def execDinb (d : Nat) (w : Word32) (received : Byte) (s : State) : Host.Outcome State Fault Refusal :=
  .next (scriptStep s d 0x06 w fun s c =>
    driveBus (setCtx s d { c with v := c.v.set (wD w) (received.setWidth 32) }) d [.dataIn received])

/-- sel asserts the CE# named by bits 2:0 of v[d] (R207). -/
def execSel (d : Nat) (w : Word32) (s : State) : Host.Outcome State Fault Refusal :=
  .next (scriptStep s d 0x07 w fun s c =>
    let ce := ((c.v[wD w]).extractLsb' 0 3).toNat
    let s := driveBus s d [.ceLow ce]
    setChan s (dieChan d) { chan s (dieChan d) with ce := some ce })

/-- dsel deasserts every CE# (R207). -/
def execDsel (d : Nat) (w : Word32) (s : State) : Host.Outcome State Fault Refusal :=
  .next (scriptStep s d 0x08 w fun s _ =>
    let s := driveBus s d [.ceHigh]
    setChan s (dieChan d) { chan s (dieChan d) with ce := none })

/-- wrdy waits for ready and releases the bus (R203, R207). -/
def execWrdy (d : Nat) (w : Word32) (s : State) : Host.Outcome State Fault Refusal :=
  .next (scriptStep s d 0x09 w fun s c =>
    let s := setCtx s d { c with waiting := true }
    setChan s (dieChan d) { chan s (dieChan d) with holder := none })

/-- A die's ready ends a waiting context's wrdy; the context wants the bus again (R203). -/
def execDieReady (d : Nat) (s : State) : Host.Outcome State Fault Refusal :=
  .next (if (ctx s d).waiting then setCtx s d { ctx s d with waiting := false } else s)

/-- stat issues a status read, with the row bytes of v1 when bit 8 is set, and latches the byte into S (R207). -/
def execStat (d : Nat) (w : Word32) (received : Byte) (s : State) : Host.Outcome State Fault Refusal :=
  .next (scriptStep s d 0x0A w fun s c =>
    let v1 := c.v[(1 : Fin 16)]
    let rows := if w.getLsbD 8 then some (v1.extractLsb' 0 8, v1.extractLsb' 8 8, v1.extractLsb' 16 8) else none
    driveBus (setCtx s d { c with s := received }) d [.status (wByte w) rows])

/-- dly waits a number of nanoseconds and holds the bus (R207). -/
def execDly (d : Nat) (w : Word32) (s : State) : Host.Outcome State Fault Refusal :=
  .next (scriptStep s d 0x0B w fun s _ => driveBus s d [.wait (w.extractLsb' 0 20).toNat])

/-- phy writes a channel PHY register, in entries 12 and 13 only (R207, R208). -/
def execPhy (d : Nat) (w : Word32) (s : State) : Host.Outcome State Fault Refusal :=
  .next (scriptStep s d 0x0C w fun s c =>
    if c.entry = some 12 ∨ c.entry = some 13 then
      let ch := dieChan d
      setChan s ch { chan s ch with phyRegs := kvPut 0 (wByte w).toNat (c.v[wD w]).toNat (chan s ch).phyRegs }
    else scriptFault s d)

/-- movi loads a 16-bit immediate (R207). -/
def execMovi (d : Nat) (w : Word32) (s : State) : Host.Outcome State Fault Refusal :=
  .next (scriptStep s d 0x10 w fun s c => setCtx s d { c with v := c.v.set (wD w) ((w.extractLsb' 0 16).setWidth 32) })

/-- movh loads bits 31:16 (R207). -/
def execMovh (d : Nat) (w : Word32) (s : State) : Host.Outcome State Fault Refusal :=
  .next (scriptStep s d 0x11 w fun s c =>
    setCtx s d { c with v := c.v.set (wD w) ((w.extractLsb' 0 16) ++ ((c.v[wD w]).extractLsb' 0 16)) })

/-- alu with function 0 (R207). -/
def execAluAdd (d : Nat) (w : Word32) (s : State) : Host.Outcome State Fault Refusal :=
  .next (aluStep s d 0x12 0 w (regB w))

/-- alu with function 1 (R207). -/
def execAluSubtract (d : Nat) (w : Word32) (s : State) : Host.Outcome State Fault Refusal :=
  .next (aluStep s d 0x12 1 w (regB w))

/-- alu with function 2 (R207). -/
def execAluAnd (d : Nat) (w : Word32) (s : State) : Host.Outcome State Fault Refusal :=
  .next (aluStep s d 0x12 2 w (regB w))

/-- alu with function 3 (R207). -/
def execAluOr (d : Nat) (w : Word32) (s : State) : Host.Outcome State Fault Refusal :=
  .next (aluStep s d 0x12 3 w (regB w))

/-- alu with function 4 (R207). -/
def execAluXor (d : Nat) (w : Word32) (s : State) : Host.Outcome State Fault Refusal :=
  .next (aluStep s d 0x12 4 w (regB w))

/-- alu with function 5 (R207). -/
def execAluShiftLeft (d : Nat) (w : Word32) (s : State) : Host.Outcome State Fault Refusal :=
  .next (aluStep s d 0x12 5 w (regB w))

/-- alu with function 6 (R207). -/
def execAluShiftRight (d : Nat) (w : Word32) (s : State) : Host.Outcome State Fault Refusal :=
  .next (aluStep s d 0x12 6 w (regB w))

/-- alui with function 0 (R207). -/
def execAluiAdd (d : Nat) (w : Word32) (s : State) : Host.Outcome State Fault Refusal :=
  .next (aluStep s d 0x13 0 w (imm12 w))

/-- alui with function 1 (R207). -/
def execAluiSubtract (d : Nat) (w : Word32) (s : State) : Host.Outcome State Fault Refusal :=
  .next (aluStep s d 0x13 1 w (imm12 w))

/-- alui with function 2 (R207). -/
def execAluiAnd (d : Nat) (w : Word32) (s : State) : Host.Outcome State Fault Refusal :=
  .next (aluStep s d 0x13 2 w (imm12 w))

/-- alui with function 3 (R207). -/
def execAluiOr (d : Nat) (w : Word32) (s : State) : Host.Outcome State Fault Refusal :=
  .next (aluStep s d 0x13 3 w (imm12 w))

/-- alui with function 4 (R207). -/
def execAluiXor (d : Nat) (w : Word32) (s : State) : Host.Outcome State Fault Refusal :=
  .next (aluStep s d 0x13 4 w (imm12 w))

/-- alui with function 5 (R207). -/
def execAluiShiftLeft (d : Nat) (w : Word32) (s : State) : Host.Outcome State Fault Refusal :=
  .next (aluStep s d 0x13 5 w (imm12 w))

/-- alui with function 6 (R207). -/
def execAluiShiftRight (d : Nat) (w : Word32) (s : State) : Host.Outcome State Fault Refusal :=
  .next (aluStep s d 0x13 6 w (imm12 w))

/-- br branches when its flag condition holds; conditions 5 to 15 are undefined functions (R207, R208). -/
def execBr (d : Nat) (w : Word32) (s : State) : Host.Outcome State Fault Refusal :=
  .next (scriptStep s d 0x14 w fun s c =>
    match brTaken c (wFn w) with
    | none => scriptFault s d
    | some true => goTo s d c (wTarget w)
    | some false => s)

/-- bst branches on the masked bits of S (R207). -/
def execBst (d : Nat) (w : Word32) (s : State) : Host.Outcome State Fault Refusal :=
  .next (scriptStep s d 0x15 w fun s c =>
    if bstTaken c (w.extractLsb' 12 8) (w.getLsbD 20) then goTo s d c (wTarget w) else s)

/-- call pushes the return index and branches; a fifth entry overflows the stack (R203, R207, R208). -/
def execCall (d : Nat) (w : Word32) (s : State) : Host.Outcome State Fault Refusal :=
  .next (scriptStep s d 0x16 w fun s c =>
    if 4 ≤ c.stack.length then scriptFault s d else goTo s d { c with stack := c.pc :: c.stack } (wTarget w))

/-- ret pops the return index; an empty stack is a fault (R207, R208). -/
def execRet (d : Nat) (w : Word32) (s : State) : Host.Outcome State Fault Refusal :=
  .next (scriptStep s d 0x17 w fun s c =>
    match c.stack with
    | [] => scriptFault s d
    | i :: rest => setCtx s d { c with pc := i, stack := rest })

/-- gets copies S into a register (R207). -/
def execGets (d : Nat) (w : Word32) (s : State) : Host.Outcome State Fault Refusal :=
  .next (scriptStep s d 0x18 w fun s c => setCtx s d { c with v := c.v.set (wD w) (c.s.setWidth 32) })

/-- cnt increments one of the channel's sixteen script counters (R207, R214). -/
def execCnt (d : Nat) (w : Word32) (s : State) : Host.Outcome State Fault Refusal :=
  .next (scriptStep s d 0x19 w fun s _ => odBump s 0x3220 0x01 (dieChan d * 16 + (w.extractLsb' 0 4).toNat))

/-- What follows an entry's end: a resume that ends 0x00 leaves the die erasing (R189), the RESET_DIE of a timeout is
followed by the operation it stopped (R211), and a die in phase 1 goes from RESET_DIE to ZQ_CAL, to TRAIN for a channel,
and to the parameter page (R243). -/
def afterEnd (s : State) (d : Nat) (c : Ctx) (st : Nat) : State :=
  match c.entry with
  | some 4 => if st = 0 ∧ (die s d).st = .resuming then setDie s d { die s d with st := .erasing } else s
  | some 8 => match c.redo with
    | some (e, v) => setCtx s d { v := v, params := v, pc := (chan s (dieChan d)).entry.getD e 0xFFFF, entry := some e
                                  class1 := c.class1 }
    | none => if st = 0 ∧ (die s d).phase = 1 then startReinit s d 12 else s
  | some 12 => if st = 0 ∧ (die s d).phase = 1 then startReinit s d (if (chan s (dieChan d)).state = 2 then 13 else 9) else s
  | some 13 => if st = 0 ∧ (die s d).phase = 1 then startReinit s d 9 else s
  | _ => s

/-- end ends the operation with a status below 0x80 and releases CE# (R207 to R209). -/
def execEndOp (d : Nat) (w : Word32) (s : State) : Host.Outcome State Fault Refusal :=
  .next (scriptStep s d 0x1F w fun s c =>
    let st := (wByte w).toNat
    if 0x80 ≤ st then scriptFault s d
    else
      afterEnd (endEntry (driveBus s d [.ceHigh]) d st) d c st)

end Sys2Proof.Machine
end

