-- ==== Sys2Proof/Machine/Apertures.lean ====
section
/-! DEFINITION. Slots and frames, script swaps, rewrites and retirements, patrol, probation, garbage collection and key
rotation steps (R169 to R176, R195, R213, R226 to R245, R276, R398, R426, R443). -/

namespace Sys2Proof.Machine

/-! Slots and frames. -/

/-- Grant budgets of the next frame (R426, R443): QLC, SLC, erase. -/
def budgets (s : State) : Nat × Nat × Nat :=
  let part (u : Int) (g : Nat) : Nat := if u < 0 then 0 else (u * g / 32767).toNat
  let all (u : Int) : Nat × Nat × Nat := (part u (od s 0x8200 0x06), part u (od s 0x8200 0x07), part u (od s 0x8200 0x08))
  let back : Int := toSigned 16 (od s 0x8200 0x04)
  if s.pwr.critical then (0, 0, 0)
  else if s.pwr.wakeLevel then all back
  else if s.loop.mode = 0 then (od s 0x3100 0x0A, od s 0x3100 0x0B, od s 0x3100 0x0C)
  else if (eng s 0).phase ≠ 3 then all back
  else all s.loop.u

/-- Zones of a die's group whose facet on the die is programmed or absent and not yet done in probation (R245). -/
def facetsLeft (s : State) (d : Nat) : List Nat :=
  let f := dieFacet d
  ((s.zones.filter fun e => e.2.folds.any fun x => x.2.done.contains f || x.2.absent.contains f).map (·.1) ++
    s.nss.flatMap fun n => n.poolRows.filter fun z => decide (0 < poolSets s z) || !(absentOn s z f).isEmpty).filter fun z =>
      groupOf z == dieGroup d && !(die s d).verified.contains z

/-- The state a contract group takes at a frame boundary (R173, R200). -/
def groupFrame (s : State) (g : Nat) : State :=
  if !isContract s g then s
  else
    let s := setGrp s g { grp s g with d := darkLimit s g }
    let s := updateGroup s g
    let gr := grp s g
    let c := groupCauses s g
    let next := { gr with causeInFrame := c != 0 }
    if gr.state = 1 ∧ closedCount s g ≤ gr.d then
      if c = 0 then setGrp s g { next with state := 2, causes := 0 }
      else loupe (setGrp s g { next with state := 3, causes := c }) 200 0x31 5 [g, c]
    else if gr.state = 3 ∧ c = 0 ∧ !gr.causeInFrame then
      loupe (setGrp s g { next with state := 2, causes := 0 }) 200 0x31 5 [g, 0]
    else setGrp s g next

/-- A frame boundary: slot length, loop mode and budgets take effect, and groups are looked at again (R169, R173, R174, R186,
R195, R200, R441, R443). -/
def frameTurn (s : State) : State :=
  let s := odBump s 0x3100 0x09
  let s := { s with sched.slot := 0, sched.slotUs := od s 0x3100 0x01, sched.mask := od s 0x3100 0x02
                    loop.mode := od s 0x8200 0x01, loop.e0.late := false, loop.e1.late := false }
  let (q, l, e) := budgets s
  let s := if s.loop.mode = 0 then s else odSet (odSet (odSet s 0x3100 0x0A 0 q) 0x3100 0x0B 0 l) 0x3100 0x0C 0 e
  let s := { s with sched.qlcBudget := q, sched.slcBudget := l, sched.eraseBudget := e, sched.qlcUsed := 0
                    sched.slcUsed := 0, sched.eraseUsed := 0, sched.sysUsed := 0
                    loop.uInForce := if s.pwr.wakeLevel ∨ (eng s 0).phase ≠ 3 then toSigned 16 (od s 0x8200 0x04)
                                     else s.loop.u }
  let fresh (x : Die) : Die := { x with bgNs := 0 }
  let s := (List.range 128).foldl groupFrame { s with dies := kvMap {} fresh s.dies }
  let s := (s.dies.filter fun e => e.2.phase == 3).foldl (fun s e =>
    let d := e.1
    setDie s d { die s d with cleanFrames := if facetsLeft s d = [] then (die s d).cleanFrames + 1 else 0 }) s
  lensContractEvents s

/-- What a slot boundary does on the dies: running erases are suspended, those suspended at the boundary before are resumed
(R189, R191), and the queues are looked at again with the whole slot ahead. -/
def slotTurn (s : State) : State :=
  let was := s.dies.map (·.1)
  let s := was.foldl (fun s d =>
    let dd := die s d
    let s := setDie s d { dd with resumed := false }
    match dd.st with
    | .erasing => if dd.suspends < (hdrOf s d).suspends then suspendErase s d true else s
    | .suspended => if dd.atBoundary && mayResume s d true then resumeErase s d else s
    | _ => s) s
  serve (was.foldl (fun s d => pumpN d (die s d).queue.length s) s) 0

/-- A slot boundary (R169): the slot index advances, and past slot 15 the frame. -/
def execSlotBoundary (s : State) : Host.Outcome State Fault Refusal :=
  .next (slotTurn (if 15 ≤ s.sched.slot then frameTurn s else { s with sched.slot := s.sched.slot + 1 }))

/-- A frame boundary ends slot 15, on the counter that counts the slots (R10, R169); in any other slot there is none. -/
def execFrameBoundary (s : State) : Host.Outcome State Fault Refusal :=
  .next (if 15 ≤ s.sched.slot then slotTurn (frameTurn s) else s)

/-! Background programs and erases (R166, R175, R190, R197). A command of a background step takes its die operation from
start to end. -/

/-- The die is free for a background operation, and holds no erase. -/
def stepFree (s : State) (d : Nat) : Bool :=
  (die s d).st == .idle && (die s d).erase.isNone && (chan s (dieChan d)).state == 0 && !s.pins.wpLow &&
  s.power.hold == .running

/-- n programs of class 7 on a die, with their grants and under the limits of its group; none while they may not start. -/
def stepProgram (s : State) (d n : Nat) (qlc single : Bool) : Option State :=
  if n = 0 then some s
  else if stepFree s d && kindOk s s.sched.slotUs d qlc && mayClose s (dieGroup d) single &&
      (if qlc then decide (s.sched.qlcUsed + n ≤ released s s.sched.qlcBudget)
       else decide (s.sched.slcUsed + n ≤ released s s.sched.slcBudget)) then
    let s := if single then darkOne s (dieGroup d) else s
    some ((List.range n).foldl (fun s _ => useProgram s qlc 7 (dieGroup d)) s)
  else none

/-- An erase of class 6 on a die, with its grant. -/
def stepErase (s : State) (d : Nat) : Option State :=
  if stepFree s d && eraseGrant s &&
      (decide (eraseReserve s d < (hdrOf s d).suspends) || mayClose s (dieGroup d) false) then
    some (useErase s 6 (dieGroup d))
  else none

/-! Script swaps (R204, R213). -/

/-- Fields of a die script image. -/
def scriptHdr (v : Nat) (prev : ScriptHdr) : ScriptHdr :=
  let len := 96 + 4 * bytesAt 6 2 v + 192
  { prev with
    rows := bytesAt 32 2 v, parityBytes := bytesAt 34 2 v, trQlc := bytesAt 36 1 v, trSlc := bytesAt 37 1 v
    tprogSlc := bytesAt 38 2 v, tprogQlc := bytesAt 40 2 v, ters := bytesAt 42 2 v, suspUs := bytesAt 44 2 v
    suspends := bytesAt 46 2 v, mode := bytesAt 48 1 v, flags := bytesAt 49 1 v, rate := bytesAt 50 2 v
    secVersion := bytesAt 8 4 v, keySlot := bytesAt 12 1 v, digest := Config.sha384 len v }

def scriptCode (v : Nat) : List Word32 :=
  (List.range (bytesAt 6 2 v)).map fun i => BitVec.ofNat 32 (bytesAt (96 + 4 * i) 4 v)
def scriptEntries (v : Nat) : List Nat := (List.range 16).map fun i => bytesAt (64 + 2 * i) 2 v

/-- Groups that use a channel (R122). -/
def chanGroups (ch : Nat) : List Nat := (List.range 32).map fun d => d * 4 + ch / 16

/-- A channel changes between the states of OD 0x3210:04: its groups and the window are looked at again. -/
def setChanState (s : State) (ch st : Nat) : State :=
  updateWindow (updateGroups (setChan s ch { chan s ch with state := st }) (chanGroups ch))

/-- The next channel with a script waiting is taken out for its load, in ascending order (R213). -/
def nextLoad (s : State) : State :=
  if (List.range 64).any fun c => (chan s c).state == 1 then s
  else match (List.range 64).find? fun c => (chan s c).pending.isSome with
    | some c => if (chan s c).state = 0 then setChanState s c 1 else s
    | none => s

/-- Extend a measurement register (R407). -/
def extend (s : State) (i d : Nat) : State :=
  let old := s.ciph.ms.getD i 0
  { s with ciph.ms := s.ciph.ms.set i (Config.sha384 96 (old + d * 2 ^ 384)) }

def maskChans (mask : Nat) : List Nat := (List.range 64).filter fun c => mask.testBit c

/-- Take over the geometry that a load declares (R107). -/
def setGeometry (s : State) (image mask : Nat) : State :=
  let s := odSave s 0x3000 0x01 0 (bytesAt 32 2 image)
  (maskChans mask).foldl (fun s c =>
    let h := { (chan s c).hdr with rows := bytesAt 32 2 image, parityBytes := bytesAt 34 2 image }
    setChan s c { chan s c with hdr := h }) s

/-- Load an accepted image onto its channels, one after the other (R213, R408). -/
def startLoad (s : State) (v mask : Nat) : State :=
  let s := (maskChans mask).foldl (fun s c => setChan s c { chan s c with pending := some v }) s
  nextLoad (extend s 12 (Config.sha384 (96 + 4 * bytesAt 6 2 v + 192) v))

/-- Every die of a channel is idle or out. -/
def chanQuiet (s : State) (ch : Nat) : Bool :=
  (chanDies ch).all fun d => match (die s d).st with
    | .idle | .out => true
    | _ => false

/-- A channel whose eye fails at the declared rate runs at a lower one, which is recorded (R598). -/
def rateFound (s : State) (ch rate : Nat) : State :=
  let c := chan s ch
  let s := setChan s ch { c with rateNow := Nat.min rate c.hdr.rate }
  if rate < c.hdr.rate then loupe s 598 0x32 4 [ch, rate] else s

/-- Once a channel's operations and suspended erases have ended, its script is swapped, calibrated, trained when the
interface or rate changed, and saved (R213). rate is the data rate that training found (R598). -/
def execChannelScriptSwap (ch rate : Nat) (s : State) : Host.Outcome State Fault Refusal :=
  .next (match (chan s ch).pending with
    | none => s
    | some v =>
      if !chanQuiet s ch then s
      else
        let c := chan s ch
        let h := scriptHdr v c.hdr
        let trained := h.mode != c.hdr.mode || h.rate != c.hdr.rate
        let c := { c with hdr := h, code := scriptCode v, entry := scriptEntries v, pending := none, faulted := false
                          scripted := true }
        let back := if c.state = 1 then 0 else c.state
        let s := setChan s ch c
        let s := if trained then rateFound s ch rate else s
        nextLoad (setChanState s ch back))

/-! Rewrites and retirements (R226 to R237). -/

/-- Set a rewrite of a die, found by its block. -/
def setRewrite (s : State) (d : Nat) (r : Rewrite) : State :=
  setDie s d { die s d with rewrites := (die s d).rewrites.map fun x => if x.block = r.block then r else x }

def dropRewrite (s : State) (d : Nat) (r : Rewrite) : State :=
  setDie s d { die s d with rewrites := (die s d).rewrites.filter fun x => x.block != r.block }

/-- The rewrite that takes the next step on a die: one under way, else a retirement or urgent one, else the first. -/
def currentRewrite (dd : Die) : Option Rewrite :=
  match dd.rewrites.find? fun r => r.step != 0 with
  | some r => some r
  | none => match dd.rewrites.find? fun r => r.cause == 1 with
    | some r => some r
    | none => match dd.rewrites.find? fun r => r.urgent with
      | some r => some r
      | none => dd.rewrites.head?

/-- Count a block as retired. -/
def retiredBlock (s : State) (d b : Nat) : State :=
  setDie s d { die s d with retired := addTo b (die s d).retired }

/-- Switch a row table entry and journal it (R229, R233). -/
def switchRow (s : State) (d : Nat) (r : Rewrite) (spare : Nat) : State :=
  let dd := die s d
  let s := setDie s d { dd with rowMap := kvPut (stockBlock s d r.row) r.row spare dd.rowMap
                                readCount := kvPut 0 spare 0 dd.readCount
                                relocs := kvPut 0 r.block (kvGet 0 r.block dd.relocs + 1) dd.relocs }
  journal s 4 [d, r.row, r.block, spare, r.cause, if r.zone = 0xFFFFFFFF then 0 else (zone s r.zone).keyGen]

/-- The staged cells of a ring row on a facet are absent (R237, R242). -/
def cellsAbsent (s : State) (d row : Nat) : State :=
  if rowsR s - rowsT s ≤ row ∧ row < rowsR s then
    let x := row - (rowsR s - rowsT s)
    let inst := ringInst (dieGroup d) (x / ringRows s)
    let r := ring s inst
    let cs := (r.cells.filter fun e => cellRow s e.1 == x % ringRows s && (ringLoc s inst e.1).facet == dieFacet d).map (·.1)
    setRing s inst { r with absent := cs.foldl (fun l c => addTo c l) r.absent }
  else s

/-- With no spare left, the failed facet's units are absent, its block is retired, and each such facet is a severity-7
event (R237). -/
def noSpare (s : State) (d : Nat) (r : Rewrite) : State :=
  let s := cellsAbsent (retiredBlock (loupe (dropRewrite s d r) 237 0x40 7 [d, r.block]) d r.block) d r.row
  let ws := (zone s r.zone).folds.filter fun e => e.2.done.contains r.facet
  if r.zone = 0xFFFFFFFF then s
  else ws.foldl (fun s e =>
    let v := zone s r.zone
    let f := kvGet {} e.1 v.folds
    let s := setZone s r.zone { v with folds := kvPut {} e.1 { f with done := f.done.filter (· != r.facet)
                                                                      absent := addTo r.facet f.absent } v.folds }
    journal s 8 [r.zone, 0, r.facet, e.1]) s

/-- A rewrite whose die is down to its reserve is deferred; a Full zone then has Reset Zone Recommended (R63, R231). -/
def deferRewrite (s : State) (d : Nat) (r : Rewrite) : State :=
  let s := setRewrite s d { r with deferred := true }
  if r.zone = 0xFFFFFFFF then s
  else match nsOfZone s r.zone with
    | some n => rzrOnFull s n r.zone
    | none => s

/-- Take a spare for a rewrite or retirement, and erase it under the ledger. A spare whose erase fails is retired. -/
def takeStep (s : State) (d : Nat) (r : Rewrite) (ok : Bool) : State :=
  match spareBlock s d with
  | none => if r.cause = 1 then noSpare s d r else s
  | some b =>
    let s := takeSpare s d b
    let s := if ok then rzrEnds (setRewrite (ledgerErase s d b) d { r with step := 1, spare := some b, deferred := false }) r.zone
             else loupe (retiredBlock (addCell s d true [b]) d b) 225 0x40 5 [d, b]
    healthWarnings (exhausted s d)

/-- The source's erase, or its retirement after W relocations or a failed erase (R229). -/
def eraseSource (s : State) (d : Nat) (r : Rewrite) (ok : Bool) : State :=
  let s := dropRewrite s d r
  let s := if ok then ledgerErase s d r.block else addCell s d true [r.block]
  let dd := die s d
  if ok ∧ kvGet 0 r.block dd.relocs < od s 0x4010 0x0B then
    setDie s d { dd with returned := dd.returned ++ [r.block], cycles := kvPut 0 r.block (kvGet 0 r.block dd.cycles + 1) dd.cycles }
  else
    let s := retiredBlock s d r.block
    if ok then s else loupe s 225 0x40 5 [d, r.block]

/-- What a rewrite copies, in ascending order: the programmed fold units of a facet, the page sets of a pool row, the programmed
pages of a staging block, or the live contents of a system row (R229, R233). -/
def rewriteParts (s : State) (d : Nat) (r : Rewrite) : List Nat :=
  let row := r.row
  if r.zone != 0xFFFFFFFF ∧ (nsOfZone s r.zone).isSome then
    ((zone s r.zone).folds.filter fun e => e.2.done.contains (dieFacet d)).map (·.1)
  else if r.zone != 0xFFFFFFFF then
    match s.nss.find? fun n => n.poolRows.contains r.zone with
    | some n => List.range (ceilDiv (kvGet 0 r.zone n.fill) (64 * (16 - n.pn)))
    | none => []
  else if rowsR s - rowsT s ≤ row ∧ row < rowsR s then
    let x := row - (rowsR s - rowsT s)
    let inst := ringInst (dieGroup d) (x / ringRows s)
    (List.range 256).filter fun p => !(pageCells s inst (x % ringRows s) p (dieFacet d)).isEmpty
  else if row < 8 then [0] else []

/-- A rewrite writes single-parity data of a zone or pool row. -/
def rewriteSingle (s : State) (r : Rewrite) : Bool :=
  s.nss.any fun n => n.pn == 1 && (n.zones ++ n.poolRows).contains r.zone

/-- The rewrite's programs are in QLC mode: it is in a zone row, or in a pool row that holds QLC data. -/
def rewriteQlc (s : State) (r : Rewrite) : Bool :=
  r.zone != 0xFFFFFFFF && s.nss.all fun n => !(n.poolRows.contains r.zone && poolSlc n r.zone)

/-- The copy step: the next part is read and programmed into the spare under a grant; with the last one the copy is over. A
failed program retires the spare, and the copy starts again with another. -/
def copyStep (s : State) (d : Nat) (r : Rewrite) (b : Nat) (ok : Bool) : State :=
  match (rewriteParts s d r).find? fun w => decide (r.copied ≤ w) with
  | some w => match stepProgram s d 1 (rewriteQlc s r) (rewriteSingle s r) with
    | none => s
    | some s =>
      if ok then setRewrite s d { r with copied := w + 1 }
      else loupe (retiredBlock (setRewrite s d { r with step := 0, spare := none, copied := 0 }) d b) 225 0x40 5 [d, b]
  | none =>
    if r.cause = 1 then
      let s := dropRewrite s d r
      setDie s d { die s d with switching := (die s d).switching ++ [{ r with step := 2 }] }
    else setRewrite s d { r with step := 2 }

/-- One step of a die's rewrite or retirement (R229 to R233), under the grants and limits of its programs and erases. ok is the
outcome of the step's die operations. -/
def execRewriteStep (d : Nat) (ok : Bool) (s : State) : Host.Outcome State Fault Refusal :=
  .next (match currentRewrite (die s d) with
    | none => s
    | some r =>
      if s.power.hold ≠ .running ∨ dieOut s d then s
      else match r.step, r.spare with
        | 0, _ =>
          if r.cause = 2 ∧ spares s d ≤ od s 0x4010 0x05 then deferRewrite s d r
          else if (spareBlock s d).isNone then takeStep s d r ok
          else match stepErase s d with
            | some s => takeStep s d r ok
            | none => s
        | 1, some b => copyStep s d r b ok
        | 2, some b =>
          if (die s d).reading.any fun q => rowBlock s d (q.page / 1024) == r.block then s
          else setRewrite (switchRow s d r b) d { r with step := 3 }
        | 3, some b => if s.adm.remaps.any fun m => m.oldBlock == r.block && m.newBlock == b then setRewrite s d { r with step := 4 } else s
        | _, _ => match stepErase s d with
          | some s => eraseSource s d r ok
          | none => s)

/-- After a retirement's copy, the row table entry switches to the spare; the remap record follows once the switch is
durable (R233). -/
def execRowTableSwitch (d : Nat) (s : State) : Host.Outcome State Fault Refusal :=
  .next (match (die s d).switching with
    | [] => s
    | r :: rest =>
      let s := setDie s d { die s d with switching := rest }
      match r.spare with
      | none => s
      | some b => healthWarnings (exhausted (retiredBlock (switchRow s d r b) d r.block) d))

/-- A patrol read of one codeword, judged for rewrite (R226, R227). A failed decode stands for a read that the ladder
cures at a later step (log entry 26). -/
def execPatrolRead (z w f : Nat) (dec : Dec) (s : State) : Host.Outcome State Fault Refusal :=
  let d := facetDie (groupOf z) f
  let fo := kvGet {} w (zone s z).folds
  .next (if (!fo.done.contains f ∧ poolSets s z ≤ w) ∨ dieOut s d ∨ !shareLeft s d 5 false then s
    else
      let s := useShare s d 5 false
      let key := (z * 256 + w) * 16 + f
      let s := { s with health.patrol := kvPut 0 key ((kvGet 0 key s.health.patrol + 1) % 64) s.health.patrol }
      let b := rowBlock s d (rowOf z)
      let n := kvGet 0 b (die s d).readCount + 1
      let s := setDie s d { die s d with readCount := kvPut 0 b n (die s d).readCount }
      match dec with
      | .good c => if od s 0x4010 0x02 ≤ c ∨ od s 0x4010 0x03 ≤ n then queueRewrite s d (rowOf z) false else s
      | .bad => queueRewrite (lastingMedia s d (rowOf z)) d (rowOf z) true)

/-! Probation (R243 to R245). -/

/-- A lasting fault in probation returns the die to phase 0 (R244). -/
def probationFails (s : State) (d : Nat) : State :=
  let s := dieLeaves s d
  let now := s.health.seconds
  let rs := ((die s d).returns.filter fun t => decide (now < t + 86400)) ++ [now]
  loupe (setDie s d { die s d with returns := rs, cleanFrames := 0 }) 244 0x41 5 [d]

/-- The two erases of the test phase, of the die's highest unused spare: before its programs, and after every read decoded (R243). -/
def testErases (s : State) (d : Nat) : State :=
  match (unusedSpares s d).max? with
  | some b =>
    let s := ledgerErase (ledgerErase s d b) d b
    setDie s d { die s d with cycles := kvPut 0 b (kvGet 0 b (die s d).cycles + 2) (die s d).cycles }
  | none => s

/-- A probation phase ends (R243): the next one begins, or the die is back out of service. -/
def execProbationPhaseEnd (d : Nat) (ok : Bool) (s : State) : Host.Outcome State Fault Refusal :=
  let dd := die s d
  .next (
    if dd.phase = 0 ∨ 4 ≤ dd.phase then s
    else if !ok then probationFails s d
    else match dd.phase with
      | 1 =>
        let s := endEntry (setDie s d { dd with phase := 2 }) d 0
        if (chan s (dieChan d)).state = 2 then setChanState s (dieChan d) 0 else s
      | 2 => setDie (testErases s d) d { die (testErases s d) d with phase := 3, verified := [], cleanFrames := 0 }
      | _ =>
        if facetsLeft s d ≠ [] ∨ dd.cleanFrames < 2 then s
        else updateWindow (updateGroups (setDie s d { dd with phase := 4, service := 0, leftAt := none }) [dieGroup d]))

/-- The facet that phase 3 takes next (R245): one that holds a fold unit waiting on it, else the lowest zone number. -/
def facetNext (s : State) (d : Nat) : Option Nat :=
  let f := dieFacet d
  let waits (z : Nat) : Bool := (zone s z).folds.any fun e =>
    e.2.completeAsn != 0 && !e.2.done.contains f && !e.2.absent.contains f
  match (facetsLeft s d).find? waits with
  | some z => some z
  | none => (facetsLeft s d).min?

/-- A facet that failed its verify read is read by rebuild until the rewrite switches (R245). -/
def byRebuild (s : State) (d row : Nat) : State :=
  setDie s d { die s d with rewrites := (die s d).rewrites.map fun r => if r.row = row then { r with verify := true } else r }

/-- Program an absent unit of a facet from the rebuild, under a grant. -/
def repairUnit (d z : Nat) (s : State) (w : Nat) : State :=
  match stepProgram s d 1 true (zonePn s z == 1) with
  | some s => foldFacetDone s z w (dieFacet d)
  | none => s

/-- Program an absent unit of a pool row from the rebuild, under a grant (R239, R245). -/
def repairPool (d z : Nat) (s : State) (o : Nat) : State :=
  match s.nss.find? fun n => n.poolRows.contains z with
  | none => s
  | some n => match stepProgram s d 1 (!poolSlc n z) (n.pn == 1) with
    | some s => journal (setZone s z { zone s z with absent := (zone s z).absent.filter (· != o) }) 8 [z, 2, dieFacet d, o]
    | none => s

/-- Phase 3 verifies a facet's fold units and programs its absent units from the rebuild (R242, R245): the facet is done once none
is left absent. -/
def execPhase3FacetRepair (d z : Nat) (dec : Dec) (s : State) : Host.Outcome State Fault Refusal :=
  let f := dieFacet d
  .next (
    if (die s d).phase ≠ 3 ∨ groupOf z ≠ dieGroup d ∨ (zone s z).eraseLeft.contains f ∨ facetNext s d ≠ some z ∨
        !shareLeft s d 5 false then s
    else
      let s := useShare s d 5 false
      let bad := match dec with
        | .bad => true
        | .good c => decide (od s 0x4010 0x02 ≤ c)
      let s := if bad then byRebuild (queueRewrite s d (rowOf z) true) d (rowOf z) else s
      let ws := ((zone s z).folds.filter fun e => e.2.absent.contains f).map (·.1)
      let s := (absentOn s z f).foldl (repairPool d z) (ws.foldl (repairUnit d z) s)
      if ((zone s z).folds.any fun e => e.2.absent.contains f) ∨ absentOn s z f ≠ [] then s
      else setDie s d { die s d with verified := addTo z (die s d).verified })

/-! Conventional garbage collection (R162, R276). -/

/-- Move a unit of a pool to the next place of a handle, under a key generation. -/
def moveUnit (s : State) (nsid u h gen : Nat) : State :=
  match ns? s nsid with
  | none => s
  | some n =>
    let n := ensureHandle s n h
    let e := kvGet {} u n.units
    match e.loc, kvGet 0 h n.handles with
    | .pool src, z + 1 =>
      let o := kvGet 0 z n.fill
      let n := { n with units := kvPut {} u { e with loc := .pool (z * 262144 + o), keyGen := gen } n.units
                        fill := kvPut 0 z (o + 1) n.fill }
      let s := { s with host.fdpMedia := s.host.fdpMedia + 4096 }
      let s := if (kvGet 0 e.handle s.host.fdpEnabled).testBit 3 then
          { s with host.fdpEvents := s.host.fdpEvents ++ [(0x80, e.handle, nsid)] } else s
      journal (setNs s n) 7 [nsid, 1, u, poolUnit n src, poolUnit n (z * 262144 + o)]
    | _, _ => s

/-- Units mapped to a pool row. -/
def rowUnitsMapped (n : Ns) (z : Nat) : List Nat :=
  n.units.filterMap fun e => match e.2.loc with
    | .pool c => if c / 262144 = z then some e.1 else none
    | _ => none

/-- A pool row takes no more data: it is full in QLC, or in the SLC mode of host writes. -/
def rowFull (n : Ns) (z : Nat) : Bool :=
  kvGet 0 z n.fill == n.rowUnits || (kvGet 0 z n.fill == n.rowUnits / 4 && poolSlc n z)

/-- The full row of a reclaim group with the fewest mapped units (log entry 27). -/
def gcVictim (n : Ns) (rg : Nat) : Option Nat :=
  (n.poolRows.filter fun z => reclaimOf z == rg && rowFull n z &&
    decide ((rowUnitsMapped n z).length < n.rowUnits)).foldl (fun m z => match m with
      | some x => if (rowUnitsMapped n z).length < (rowUnitsMapped n x).length then some z else some x
      | none => some z) none

/-- The QLC program that takes a unit to the next place of a handle: one for each page set of a facet, begun by its first
unit. -/
def moveProgram (s : State) (n : Ns) (h : Nat) : Option State :=
  match kvGet 0 h (ensureHandle s n h).handles with
  | 0 => some s
  | z + 1 =>
    let o := kvGet 0 z n.fill
    let w := foldOf (16 - n.pn) o
    let f := (prism z n.pn o).facet
    let first := (List.range (o - w * 64 * (16 - n.pn))).all fun i => (prism z n.pn (w * 64 * (16 - n.pn) + i)).facet != f
    stepProgram s (facetDie (groupOf z) f) (if first then 1 else 0) true (n.pn == 1)

/-- One step of garbage collection in a reclaim group: a unit is copied and its move journalled, or an empty row is
given to erase (R276). -/
def execGcStep (nsid rg : Nat) (s : State) : Host.Outcome State Fault Refusal :=
  .next (match ns? s nsid with
    | none => s
    | some n => if n.zoned ∨ s.power.hold ≠ .running then s
      else match gcVictim n rg with
        | none => s
        | some z => match rowUnitsMapped n z with
          | u :: _ => match moveProgram s n (512 + rg) with
            | some s => moveUnit s nsid u (512 + rg) (kvGet {} u n.units).keyGen
            | none => s
          | [] =>
            let s := setNs s { n with fill := kvPut 0 z 0 n.fill, handles := n.handles.filter fun e => e.2 != z + 1 }
            eraseRow { s with host.fdpErased := s.host.fdpErased + 4096 * n.rowUnits } z)

/-! Key rotation (R398). -/

/-- Zones of a namespace that still hold an old generation: neither Empty nor Offline. -/
def oldZones (s : State) (n : Ns) (g : Nat) : List Nat :=
  n.zones.filter fun z => (zone s z).keyGen == g && (zone s z).st != .empty && (zone s z).st != .offline

/-- A zone's rotation can run: Full or Read Only, and every fold unit folded. -/
def rotatable (s : State) (z : Nat) : Bool :=
  ((zone s z).st == .full || (zone s z).st == .readOnly) &&
  (List.range 256).all fun w => (kvGet {} w (zone s z).folds).committed

/-- Relocate a zone's facet on a die for its new key (R229, R398). -/
def relocateFacet (z : Nat) (s : State) (d : Nat) : State :=
  if (die s d).service ≠ 0 then s
  else match spareBlock s d with
    | none => s
    | some b =>
      let old := rowBlock s d (rowOf z)
      let r : Rewrite := { block := old, row := rowOf z, zone := z, facet := dieFacet d, urgent := false, cause := 2 }
      let s := switchRow (takeSpare s d b) d r b
      setDie s d { die s d with returned := (die s d).returned ++ [old] }

/-- The programs and erases that relocating a zone's facets takes are granted (R197, R398): every fold unit copied on each
facet, its spare and its old block erased. -/
def relocateGrants (s : State) (z : Nat) : Option State :=
  let n := ((zone s z).folds.filter fun e => e.2.committed).length
  ((groupDies (groupOf z)).filter fun d => (die s d).service == 0).foldl (fun (m : Option State) d =>
    ((m.bind fun s => stepErase s d).bind fun s => stepProgram s d n true (zonePn s z == 1)).bind fun s => stepErase s d) (some s)

/-- Relocate every facet of a zone for its new key (R229, R398). -/
def relocateZone (s : State) (z : Nat) : State := (groupDies (groupOf z)).foldl (relocateFacet z) s

/-- The end of a rotation: the end record, and the old key is derived no longer. -/
def rotationEnd (s : State) (n : Ns) (r : Rotation) : State :=
  journal (setNs s { n with rot := none }) 13 [0, r.oldGen, n.nsid]

/-- R398: the first unit of a conventional namespace that its pool holds under the old generation. -/
def oldUnit (n : Ns) (g : Nat) : Option (Nat × UnitSt) :=
  n.units.find? fun e => e.2.keyGen == g && (match e.2.loc with | .pool _ => true | _ => false)

/-- One step of a key rotation: a zone, or a conventional unit, is re-encrypted under the new key and its switch
journalled; after the last one comes the end record (R398). -/
def execKeyRotationStep (nsid : Nat) (s : State) : Host.Outcome State Fault Refusal :=
  .next (match ns? s nsid with
    | none => s
    | some n => match n.rot with
      | none => s
      | some r =>
        if s.power.hold ≠ .running then s
        else match (oldZones s n r.oldGen).filter (rotatable s) |>.min? with
          | some z =>
            if (groupDies (groupOf z)).any fun d => (die s d).service == 0 && decide (spares s d ≤ od s 0x4010 0x05) then s
            else match relocateGrants s z with
            | none => s
            | some s =>
              let s := relocateZone s z
              let v := zone s z
              let s := setZone s z { v with keyGen := r.newGen, units := v.units.map fun e => (e.1, { e.2 with keyGen := r.newGen }) }
              let s := journal s 12 [0, r.newGen, nsid, z, 256]
              match ns? s nsid with
              | some n => if oldZones s n r.oldGen = [] ∧ n.zoned then rotationEnd s n r
                else setNs s { n with rot := some { r with left := oldZones s n r.oldGen } }
              | none => s
          | none =>
            match oldUnit n r.oldGen with
            | some (u, e) => match moveProgram s n (512 + e.handle / 64) with
              | some s => journal (moveUnit s nsid u (512 + e.handle / 64) r.newGen) 12 [0, r.newGen, nsid, u, 1]
              | none => s
            | none =>
              if oldZones s n r.oldGen = [] ∧ n.units.all fun e => e.2.keyGen != r.oldGen then rotationEnd s n r else s)

end Sys2Proof.Machine
end

