-- ==== Sys2Proof/Machine/Resets.lean ====
section
/-! DEFINITION. Shared operations of hold-up and reset: the kept counters, the Loupe flush, the start of the hold-up
sequence, the device reset and the raising of a reset source (R250, R255 to R263, R532 to R542, R547, R565). -/

namespace Sys2Proof.Machine

/-! Kept counters (R250, R293). -/

def keyObj (k : Nat) : Nat := k / 2 ^ 24
def keyElem (k : Nat) : Nat := k / 2 ^ 16 % 256
def keyInst (k : Nat) : Nat := k % 2 ^ 16

/-- Put a value at a dictionary key, keeping the store's form. -/
def odPutKey (k v : Nat) (m : Kv Nat) : Kv Nat := kvPut (odDflt (keyObj k) (keyElem k) (keyInst k)) k v m

/-- Counters that are saved with the health statistics: those of OD 0x4020, 0x8400 and 0xA100 (R250, R293), and the
alarms since manufacture of OD 0x7000:04 (R422). -/
def healthKey (k : Nat) : Bool :=
  keyObj k == 0x4020 || (keyObj k == 0x8400 && decide (7 ≤ keyElem k)) || keyObj k == 0xA100 ||
  (keyObj k == 0x7000 && keyElem k == 4)

/-- Set a counter of R293, which survives every reset. -/
def odKeep (s : State) (obj elem v : Nat) (inst : Nat := 0) : State :=
  let s := odSet s obj elem inst v
  { s with health.savedOd := kvPut 0 (odKey obj elem inst) v s.health.savedOd }

/-- Save the health statistics and counters to the system rows (R250). -/
def saveHealth (s : State) : State :=
  let put (m : Kv Nat) (e : Nat × Nat) : Kv Nat := if healthKey e.1 then kvPut 0 e.1 e.2 m else m
  { s with health.savedOd := s.dict.od.foldl put [] }

/-! The Loupe flush (R565). -/

/-- Slots of the flush area: 256 MiB of 1,024 bytes. -/
def flushSlots : Nat := 262144

/-- Write every entry that is not yet flushed to the flush area, which keeps the newest ones. -/
def loupeFlush (s : State) : State :=
  let mark (e : LEntry) : LEntry := { e with flushed := true }
  let new := ((s.loupe.live ++ s.loupe.kept).filter fun e => !e.flushed).map mark
  let flash := s.loupe.flash ++ new
  let s := { s with loupe.live := s.loupe.live.map mark, loupe.kept := s.loupe.kept.map mark
                    loupe.flash := flash.drop (flash.length - flushSlots), loupe.flushing := false }
  odBump s 0xA310 0x05

/-! Step 3 of the hold-up sequence (R258, R260, R261). -/

/-- A running program holds up the end of step 4. -/
def programming (s : State) : Bool :=
  s.dies.any fun e => e.2.st == .programming || e.2.st == .programInSuspend

/-- Running erases are suspended, queued reads are dropped, and reads that run go on to their end. -/
def holdDie (x : Die) : Die :=
  { x with queue := [], st := match x.st with
      | .erasing | .suspending | .resuming => .suspended
      | st => st }

/-- The window entries of commands whose data is all there stay; commands end without completion, and a record whose
data is there is sealed (R99, R260). -/
def holdCmdEnd (s : State) (k : Cmd) : State :=
  match k.asns.getLast? with
  | some asn =>
    let lbaf := match ns? s k.io.nsid with | some n => n.lbaf | none => 0
    if k.dataHere ∧ opWrites k.op then sealRecord s asn k.status (dataCheck lbaf k.data) else s
  | none => s

/-- Every command, slot and read ends, erases are suspended and the level is PL3 (R258, R260, R261, R426). -/
def holdStops (s : State) (h : Hold) : State :=
  let s := { s with power.hold := h, power.shutdown := 0 }
  let clearFn (f : Fn) : Fn := { f with rd := none, wr := none, ready := [] }
  let s := { s with host.cmds := [], host.granted := [], host.fns := kvMap {} clearFn s.host.fns, reads := []
                    dies := kvMap {} holdDie s.dies, win.convOrder := [], adm.afterClose := none
                    pair.asked := [] }
  let s := { s with pwr.level := 3, pwr.target := 3, pwr.vsel := 3, pwr.step := .idle, pwr.clk := 3, pwr.bias := 3
                    pwr.sleep := 0, pwr.entering := none, pwr.stopped := [] }
  odKeep s 0x8400 0x08 (4 * s.win.used)

/-- The power-loss notice, to the twin and to every member (R261). -/
def holdNotice (s : State) : State :=
  let s := if s.pair.linkUp then sendFrame s 0 0x04 [4] else s
  [1, 2, 3].foldl (fun s p => if (member s p).linkUp then sendFrame s p 0x04 [4] else s) s

/-- Intake stops (step 3): no command goes on, the power-loss notice goes out and contracts are suspended (R258, R260,
R261, R426). -/
def holdStart (s : State) (h : Hold) : State :=
  let s := holdNotice (holdStops (s.host.cmds.foldl holdCmdEnd s) h)
  updateGroups s ((List.range 128).filter (isContract s))

/-- Power is lost: WP# low, the flash, PCIe, Mirror and cascade lanes powered down, DRAM in self-refresh (R257). -/
def powerLost (s : State) : State :=
  let down (m : Member) : Member := { m with linkUp := false, session := false }
  let s := { s with power.hold := .lost, power.armed := false, pins.wpLow := true, pins.pcieIdle := true
                    pins.mirrorIdle := true, pair.linkUp := false, casc.members := kvMap {} down s.casc.members }
  (List.range 16).foldl (fun s c => setDchan s c { dchan s c with state := 1 }) s

/-- PLN# is qualified (R257, R258, R261, R534). -/
def plnQualify (s : State) : State :=
  match s.power.hold with
  | .running =>
    if s.power.armed then loupe (holdStart s .holdup) 258 0x84 5 [s.win.used] else powerLost s
  | .flush =>
    let drained := s.power.images.any fun i => i.seq == s.power.imageSeq && !i.sealed
    loupe { s with power.hold := if drained then .written else .holdup } 258 0x84 5 [s.win.used]
  | _ => s

/-! The hold-up image (R266 to R268). -/

/-- Units of a zone that are still in the window, in ascending offset. -/
def windowUnits (s : State) : List (Nat × Nat) :=
  (s.zones.map fun e => e.2.units.filterMap fun u => match u.2.loc with
    | .window _ => some (e.1, u.1)
    | _ => none).flatten

/-- Conventional units that are still in the window. -/
def windowConv (s : State) : List (Nat × Nat) :=
  (s.nss.map fun n => n.units.filterMap fun u => match u.2.loc with
    | .window _ => some (n.nsid, u.1)
    | _ => none).flatten

/-- The order in a zoned unit's tag: the ASN of the last record that wrote it (R267). -/
def zonedOrder (s : State) (e : Nat × Nat) : Nat :=
  let covers (l : LRec) : Bool := l.r.zone == e.1 && match nsOfZone s e.1 with
    | some n => (unitsOf n.bpu (n.offset l.r.lba) l.r.blocks).contains e.2
    | none => false
  (s.adm.recs.filter covers).foldl (fun m l => Nat.max m l.r.asn) (kvGet {} e.2 (zone s e.1).units).asn

/-- The order in a conventional unit's tag: bit 63 and its conventional sequence. -/
def convOrder (s : State) (e : Nat × Nat) : Nat :=
  2 ^ 63 + match ns? s e.1 with
    | some n => (kvGet {} e.2 n.units).asn
    | none => 0

/-- Steps 5 to 7: the image is programmed into the active area, and Loupe, health statistics and counters are
written. -/
def writeImage (s : State) : State :=
  let img : Image := { seq := s.power.imageSeq + 1, area := s.power.area, nextAsn := s.adm.nextAsn
                       sealedHead := sealedHead s, lsn := s.jrn.nextLsn - 1, epoch := od s 0x2100 0x06
                       units := windowUnits s, conv := windowConv s, convSeq := s.win.convSeq, sealed := false
                       orders := (windowUnits s).map (zonedOrder s) ++ (windowConv s).map (convOrder s)
                       ledger := (s.adm.recs.filter fun l => !l.durable).map (·.r), tail := s.jrn.tail }
  let s := { s with power.images := (s.power.images.filter fun i => i.area != s.power.area) ++ [img]
                    power.imageSeq := s.power.imageSeq + 1 }
  saveHealth (loupeFlush s)

/-- Step 8: the seal. Everything in the image is durable from here (R268, R272); a hold-up is no clean shutdown (R287). -/
def sealImage (s : State) : State :=
  let close (i : Image) : Image := if i.seq = s.power.imageSeq then { i with sealed := true } else i
  let tail := s.jrn.tail
  let s := { s with power.images := s.power.images.map close, power.armed := false
                    adm.recs := s.adm.recs.map fun l => { l with durable := true }, adm.recs2 := [], adm.undo := []
                    jrn.durable := s.jrn.durable ++ tail, jrn.tail := [], jrn.tail2 := []
                    power.clean := s.power.clean && tail.isEmpty && s.power.hold == .flush }
  let settle (n : Ns) : Ns := { n with old := [] }
  let s := tail.foldl onDurable s
  { s with nss := s.nss.map settle }

/-! The device reset (R532, R533, R540 to R542, R547). -/

/-- A die after a reset: its logic starts afresh, and an interrupted erase is half-erased (R274, R280). -/
def resetDie (x : Die) : Die :=
  let undone := x.rewrites.filter fun r => r.spare.isSome && decide (r.step < 3)
  let back := undone.filterMap (·.spare)
  { x with st := if x.service = 2 then .out else .idle, service := if x.service = 1 then 0 else x.service
           phase := if x.service = 2 then 0 else 4, suspends := 0, atBoundary := false, resumed := false
           erase := none, job := none, queue := [], reading := [], repeated := false
           eraseRepeated := false, cleanFrames := 0, timeouts := [], bgNs := 0
           half := back.foldl (fun l b => addTo b l) (match x.erase with | some b => addTo b x.half | none => x.half)
           returned := x.returned ++ back
           rewrites := (x.rewrites.filter fun r => decide (3 ≤ r.step)) ++
             (x.rewrites.filter fun r => decide (r.step < 3) && r.cause == 1).map fun r =>
               { r with step := 0, spare := none, deferred := false } }

/-- A unit after a reset: no cache or window buffer holds it. -/
def resetUnit (u : UnitSt) : UnitSt := { u with cached := false, held := none }
def resetZone (z : Zone) : Zone := { z with units := kvMap {} resetUnit z.units }
def resetNs (n : Ns) : Ns := { n with units := kvMap {} resetUnit n.units, ending := none }

/-- A channel after a reset: the image it last saved, and no operation. -/
def resetChan (c : Chan) : Chan :=
  { c with bus := [], ce := none, holder := none, ptrHigh := 0, ptrLow := 0, pending := none, faulted := false
           state := if c.state = 3 then 3 else 0 }

/-- A function after a reset: its namespaces stay attached. -/
def resetFn (f : Fn) : Fn := { attached := f.attached }

/-- Buffer size of a pool (R519). -/
def bufSize (p : Nat) : Nat := [512, 4096, 16384, 65536, 262144, 1048576].getD p 512

/-- Addresses of the staging buffers that are out of their pools, which memory BIST has to pass first (R508). -/
def stagingOut (s : State) : List Nat :=
  s.bist.taken ++ (List.range 6).flatMap fun p => (pool s p).sram.removed.map fun b => (pool s p).sram.base + b * bufSize p

/-- The dictionary after a reset: durable values, and the counters of R250 and R293 (R463). -/
def resetOd (s : State) : Kv Nat := s.health.savedOd.foldl (fun m e => odPutKey e.1 e.2 m) s.dict.durable

/-- Reset every block of the device (R533). cold clears the retained registers as well. A contract group joins again as its
saved designation says (R173). -/
def resetBlocks (s : State) (cold : Bool) : State :=
  let od := resetOd s
  { s with
    host := { fns := kvMap {} resetFn s.host.fns, sanitizeStatus := s.host.sanitizeStatus, fdp := s.host.fdp, fdpEnabled := s.host.fdpEnabled, fdpEvents := s.host.fdpEvents
              fdpHost := s.host.fdpHost, fdpMedia := s.host.fdpMedia, fdpErased := s.host.fdpErased
              nextId := s.host.nextId, linkNo := s.host.linkNo, bifurcated := s.host.bifurcated }
    adm := { nextAsn := s.adm.nextAsn, recs := s.adm.recs, floor := s.adm.floor, preserve := s.adm.preserve
             preserveGroup := s.adm.preserveGroup, spent := s.adm.spent, remaps := s.adm.remaps
             nextRemap := s.adm.nextRemap, remapFloor := s.adm.remapFloor, localSeq := s.adm.localSeq
             passed := s.adm.passed, undo := s.adm.undo, appliedHead := s.adm.appliedHead }
    zones := kvMap {} resetZone s.zones
    nss := s.nss.map resetNs
    win := { convSeq := s.win.convSeq, effectiveMiB := s.win.effectiveMiB }
    dies := kvMap {} resetDie s.dies
    reads := []
    toggles := []
    sched := { slotUs := kvGet 2500 (odKey 0x3100 1 0) od, mask := kvGet 0x0FFF (odKey 0x3100 2 0) od }
    groups := (List.range 128).filterMap fun g =>
      if kvGet 0 (odKey 0x3110 1 g) od = 1 then some (g, { d := (grp s g).d, state := 1 }) else none
    chans := kvMap {} resetChan s.chans
    ctxs := []
    power := { s.power with hold := .running, armed := false, shutdown := 0 }
    pair := { detached := s.pair.detached, wasLead := s.pair.wasLead, promoted := s.pair.promoted
              newTwin := s.pair.newTwin, twinRoot := s.pair.twinRoot
              regions := s.pair.regions, hbIn := s.pair.hbIn, switches := s.pair.switches }
    casc := {}
    ciph := { stored := s.ciph.stored, pendingRoot := s.ciph.pendingRoot, pendingErase := s.ciph.pendingErase, slot1 := s.ciph.slot1
              records := s.ciph.records, retained := if cold then none else s.ciph.retained, slots := s.ciph.slots
              chosen := s.ciph.chosen, activeSlot := s.ciph.activeSlot, otpMin := s.ciph.otpMin
              alarmResets := if cold then 0 else s.ciph.alarmResets }
    pwr := { vddPg := s.pwr.vddPg, composite := s.pwr.composite, dieMax := s.pwr.dieMax
             packageMax := s.pwr.packageMax }
    loop := {}
    dram := { ranks := s.dram.ranks, density := s.dram.density, rate := s.dram.rate, withdrawn := s.dram.withdrawn.take 4096
              sparesUsed := s.dram.sparesUsed }
    pools := []
    bist := { taken := (stagingOut s).eraseDups }
    loupe := { nextSeq := if cold then 1 else s.loupe.nextSeq, kept := if cold then [] else s.loupe.kept
               liveDrops := if cold then [] else s.loupe.liveDrops
               keptDrops := if cold then [] else s.loupe.keptDrops, flash := s.loupe.flash
               telemetry := s.loupe.telemetry }
    dict := { od := od, durable := s.dict.durable }
    mgmt := {}
    pins := { trip := s.pins.trip }
    rst := if cold then { life := .inReset, asserted := s.rst.asserted, cause := 0, pending := 0
                          testHold := s.rst.testHold, ringOsc := s.rst.ringOsc
                          unclean := s.rst.unclean }
           else { s.rst with life := .inReset, pending := 0, captured := 0
                             scanStep := 0, recordDurable := false, logicRunning := s.rst.logicRunning } }

/-- The device reset: what the protected set loses is judged at the restart (R283). -/
def deviceReset (s : State) (cold : Bool) : State :=
  let unclean := s.rst.unclean || (s.power.armed && s.power.shutdown != 2)
  resetBlocks { s with rst.unclean := unclean } cold

/-- Sources that run no pre-reset flush: power-on and the brown-outs (R532). -/
def hardSource (b : Nat) : Bool := b ≤ 2

/-- Sources held asserted by a level: the supplies, PERST# and the thermal trip (R532). The others end 16 reference
cycles after the flush. -/
def heldSource (b : Nat) : Bool := b == 0 || b == 1 || b == 2 || b == 3 || b == 7

/-- Set a source's cause bit, and the sub-cause of the first internal fatal (R540). -/
def setCause (s : State) (b sub : Nat) : State :=
  let first := b == 8 && !s.rst.cause.testBit 8
  { s with rst.cause := setBit b s.rst.cause + (if first then sub * 2 ^ 16 else 0) }

/-- The boot failure count rises at a reset that an internal fatal or the watchdog raises before the running boot's
record is programmed (R547). -/
def countFailure (s : State) (b : Nat) : State :=
  if (b = 8 ∨ b = 4) ∧ !s.rst.recordDurable ∧ s.rst.life ≠ .inReset then
    { s with rst.bootFailures := s.rst.bootFailures + 1 } else s

/-- Raise a reset source (R532, R534, R539, R540). -/
def raise (s : State) (b : Nat) (sub : Nat := 0) : State :=
  let cold := b == 0 || b == 2
  let clean := Nat.land s.rst.asserted 7 == 0
  let s := if heldSource b then { s with rst.asserted := setBit b s.rst.asserted } else s
  let s := countFailure s b
  if cold then setCause (deviceReset s true) b 0
  else
    let s := setCause s b sub
    if s.rst.life = .inReset then s
    else if hardSource b ∨ (b = 8 ∧ sub = 1) then deviceReset s false
    else match s.power.hold with
      | .flush | .holdup | .written | .lost => { s with rst.pending := setBit b s.rst.pending }
      | .running =>
        if s.power.armed ∧ clean then holdStart { s with rst.pending := setBit b s.rst.pending } .flush
        else deviceReset s false

end Sys2Proof.Machine
end

