-- ==== Sys2Proof/Machine/PowerLoss.lean ====
section
/-! DEFINITION. Power loss, orderly shutdown and the restart scan (R116, R255 to R292, R412, R603, R605, R609, R610). -/

namespace Sys2Proof.Machine

/-! PLN# and the hold-up sequence (R257, R258, R591). -/

/-- A falling edge of PLN#: a second one within 1 ms qualifies at once, and in the power-lost state the 1 ms count
restarts. -/
def execPlnFallingEdge (sinceUs : Nat) (s : State) : Host.Outcome State Fault Refusal :=
  let s := { s with power.plnLow := true }
  .next (if sinceUs ≤ 1000 then plnQualify s else s)

/-- PLN# has been low for 5 µs. -/
def execPlnQualified (s : State) : Host.Outcome State Fault Refusal :=
  .next (if s.power.plnLow then plnQualify s else s)

/-- PLN# returns high within 5 µs: a glitch while the device runs. -/
def execPlnGlitch (s : State) : Host.Outcome State Fault Refusal :=
  .next (if !s.power.plnLow then s
    else
      let s := { s with power.plnLow := false }
      if s.power.hold = .running then odKeep s 0x8400 0x09 (od s 0x8400 0x09 + 1) else s)

/-- Every running program has ended, and steps 5 to 7 are written (R258, R266, R267). -/
def execHoldupDrainDone (durationUs : Nat) (s : State) : Host.Outcome State Fault Refusal :=
  .next (if programming s then s
    else match s.power.hold with
      | .holdup => writeImage (odKeep { s with power.hold := .written } 0x8400 0x07 durationUs)
      | .flush =>
        if s.power.images.any fun i => i.seq == s.power.imageSeq && !i.sealed then s
        else writeImage (odKeep s 0x8400 0x07 durationUs)
      | _ => s)

/-- The seal is programmed, and the device enters the power-lost state (R257, R258, R268). -/
def execHoldupSealDone (s : State) : Host.Outcome State Fault Refusal :=
  .next (if s.power.hold = .written then
      powerLost (odKeep (sealImage s) 0x8400 0x0A (od s 0x8400 0x0A + 1))
    else s)

/-- PLN# high for 1 ms in the power-lost state: a device reset with sub-cause hold-up release; sources that waited for
it have set their bits already (R257, R534, R541). -/
def execPowerLostRelease (s : State) : Host.Outcome State Fault Refusal :=
  .next (if s.power.hold = .lost then raise { s with power.plnLow := false } 8 1 else s)

/-- PWRDIS high for 100 µs is a qualified PLN# (R573). -/
def execPwrdisQualified (s : State) : Host.Outcome State Fault Refusal :=
  .next (plnQualify (odBump s 0xB000 0x05))

/-! Orderly shutdown (R286). -/

/-- CC.SHN set to 01b or 10b: no further command is admitted, and Loupe is flushed (R286, R565). -/
def execCcShnShutdown (fn shn : Nat) (s : State) : Host.Outcome State Fault Refusal :=
  .next (if (shn ≠ 1 ∧ shn ≠ 2) ∨ !inService s ∨ !(fnc s fn).en then s
    else
      let s := setFn s fn { fnc s fn with shn := shn, shst := 1 }
      loupeFlush { s with power.shutdown := 1, power.shutdownFn := fn })

/-- A unit that a record filled only in part: it has no cell yet (R134, R286). -/
def partialUnits (s : State) : List (Nat × Nat) :=
  (s.zones.map fun e => e.2.units.filterMap fun u => match u.2.loc with
    | .window none => some (e.1, u.1)
    | .none => if u.2.held.isSome then some (e.1, u.1) else none
    | _ => none).flatten

/-- Admitted work has ended and the protected set is programmed, apart from units without a cell. -/
def drained (s : State) : Bool :=
  (s.host.cmds.all fun k => k.stage == .point || k.stage == .forwarded) && s.jrn.tail.isEmpty &&
  (s.adm.recs.all fun r => r.durable) && (windowConv s).isEmpty &&
  (windowUnits s).all fun u => (partialUnits s).contains u

/-- The clean shutdown record is programmed (R286): partly filled units go to the active area as a sealed image. -/
def execShutdownComplete (s : State) : Host.Outcome State Fault Refusal :=
  .next (if s.power.shutdown ≠ 1 ∨ !drained s then s
    else
      let units := partialUnits s
      let img : Image := { seq := s.power.imageSeq + 1, area := s.power.area, nextAsn := s.adm.nextAsn
                           sealedHead := sealedHead s, lsn := s.jrn.nextLsn - 1, epoch := od s 0x2100 0x06
                           units := units, conv := [], convSeq := s.win.convSeq, sealed := true
                           orders := units.map (zonedOrder s) }
      let s := if units = [] then s
        else { s with power.images := (s.power.images.filter fun i => i.area != s.power.area) ++ [img]
                      power.imageSeq := s.power.imageSeq + 1 }
      let s := journal s 14 [sealedHead s, s.win.convSeq]
      let s := { s with jrn.durable := s.jrn.durable ++ s.jrn.tail, jrn.tail := [], jrn.tail2 := []
                        power.clean := true
                        power.shutdown := 2 }
      let f := s.power.shutdownFn
      setFn s f { fnc s f with shst := 2 })

/-! An unclean loss (R283 to R285, R605, R609, R610). -/

/-- Bring a zone back to what stood before a lost record. Content below the earlier write pointer stays where no reset
came between. -/
def rollZone (s : State) (e : Undo) : State :=
  let v := zone s e.zone
  let b := e.image
  let bpu := match nsOfZone s e.zone with | some n => n.bpu | none => 1
  let reopen (f : FoldSt) : FoldSt := if e.asn ≤ f.completeAsn then { f with completeAsn := 0 } else f
  let s := setZone s e.zone (
    if v.wp < b.wp ∨ v.epoch ≠ b.epoch ∧ b.st ≠ .empty ∨ v.st = .offline then { b with marked := v.marked }
    else { v with st := b.st, wp := b.wp, finish := b.finish, ring := b.ring, lastAdm := b.lastAdm
                  keyGen := b.keyGen, epoch := b.epoch, rzr := b.rzr, unmapDue := b.unmapDue, unmapAsn := b.unmapAsn
                  blocks := kvDrop (fun o => decide (b.wp ≤ o)) v.blocks
                  units := (kvDrop (fun u => decide (ceilDiv b.wp bpu ≤ u)) v.units).map fun u =>
                    -- a unit that the lost record had completed has no cell again
                    if b.wp / bpu ≤ u.1 then (u.1, { u.2 with loc := .window none }) else u
                  folds := kvMap {} reopen v.folds })
  let r := ring s e.ring
  let c := Nat.min r.c e.counter
  let kept (x : Nat × (Nat × Nat)) : Bool := decide (x.1 < c)
  setRing s e.ring { r with c := c, cells := r.cells.filter kept }

/-- A ring counter resumes at the lowest unprogrammed value at or above the surviving one (R609). -/
def ringResume (s : State) (f : Nat × Nat) : State :=
  let r := ring s f.1
  setRing s f.1 { r with c := Nat.max r.c f.2 }

/-- Zones that use a ring and are active (R132). -/
def ringActive (s : State) (r : Nat) : Nat :=
  (s.zones.filter fun e => e.2.ring == some r && e.2.st.active).length

/-- Undo a lost journal record: row table switches and key rotation steps that are not durable (R280, R281). -/
def undoJournal (s : State) (j : JRec) : State :=
  match j.typ, j.body with
  | 4, d :: row :: old :: new :: _ =>
    let dd := die s d
    setDie s d { dd with rowMap := kvPut (stockBlock s d row) row old dd.rowMap, returned := addTo new dd.returned
                         half := addTo new dd.half, rewrites := dd.rewrites.filter fun r => r.block != old
                         switching := dd.switching.filter fun r => r.block != old }
  | 12, _ :: _ :: nsid :: first :: units :: _ => match ns? s nsid with
    | some n => match n.rot with
      | some r =>
        let back (e : UnitSt) : UnitSt := { e with keyGen := r.oldGen }
        if units = 1 then setNs s { n with units := kvPut {} first (back (kvGet {} first n.units)) n.units }
        else setZone s first { zone s first with keyGen := r.oldGen, units := kvMap {} back (zone s first).units }
      | none => s
    | none => s
  | 11, _ :: old :: _ :: nsid :: _ => match ns? s nsid with
    | some n => match n.rot with
      | some r => setNs s { n with rot := none, gen := old, salt := r.oldSalt }
      | none => s
    | none => s
  | _, _ => s

/-- Journal again what restart finds done on the media: unmaps, fold commits, marks and erasures (R276 to R279). -/
def rejournal (s : State) (j : JRec) : State :=
  match j.typ, j.body with
  | 1, z :: _ => if (zone s z).st = .empty ∨ (zone s z).st = .offline then journal s 1 j.body else s
  | 2, z :: w :: _ => if (kvGet {} w (zone s z).folds).committed then journal s 2 j.body else s
  | 3, _ | 5, _ | 8, _ | 13, _ | 15, _ | 16, _ => journal s j.typ j.body
  | _, _ => s

/-- A unit of a namespace goes back to what the durable map names, unless an image or a program had kept it. -/
def convBack (kept : List (Nat × Nat)) (n : Ns) : Ns :=
  let lost := n.old.filter fun e => !kept.contains (n.nsid, e.1)
  { n with units := lost.foldl (fun m e => kvPut {} e.1 e.2.1 m) n.units
           blocks := lost.foldl (fun m e => kvPutRun 0 (e.1 * n.bpu) e.2.2 m) n.blocks, old := [] }

/-- Units in the window whose data neither an image nor a program had kept are lost; an unsealed record's units are
left to R116. -/
def markLost (kept : List (Nat × Nat)) (s : State) : State × Nat :=
  let open_ (z u : Nat) : Bool := s.adm.recs.any fun l => !l.sealed && l.r.zone == z &&
    match nsOfZone s z with
    | some n => (unitsOf n.bpu (n.offset l.r.lba) l.r.blocks).contains u
    | none => false
  let gone := (windowUnits s).filter fun e => !kept.contains e && !open_ e.1 e.2
  (gone.foldl (fun s e =>
    let v := zone s e.1
    let s := setZone s e.1 { v with units := kvPut {} e.2 { kvGet {} e.2 v.units with lost := true } v.units }
    journal s 8 [e.1, 4, 0, e.2]) s, gone.length)

/-- The repair of a facet whose fold program was cut short (R285): the fold unit is programmed again there. -/
def repairCut (s : State) (x : Nat × Nat × Nat) : State :=
  let (z, w, f) := x
  let d := facetDie (groupOf z) f
  let b := rowBlock s d (rowOf z)
  match spareBlock s d with
  | some sp =>
    let s := journal s 15 [d, b, sp, z, w]
    let s := ledgerErase (ledgerErase s d b) d sp
    let dd := die s d
    let s := setDie s d { dd with cycles := kvPut 0 b (kvGet 0 b dd.cycles + 1)
                                    (kvPut 0 sp (kvGet 0 sp dd.cycles + 1) dd.cycles) }
    let v := zone s z
    let fo := kvGet {} w v.folds
    let s := setZone s z { v with folds := kvPut {} w { fo with done := fo.done.filter fun y => y != f } v.folds }
    journal s 16 [d, b, sp, z, w]
  | none => s

/-- Highest ASN of the durable records, or of those that reached flash (R283). -/
def durableHead (s : State) (f : LossFacts) : Nat :=
  let d := s.adm.recs.foldl (fun m l => if l.durable then Nat.max m l.r.asn else m) (s.adm.floor - 1)
  Nat.max d (Nat.min f.durableAsn (s.adm.nextAsn - 1))

/-- Recovery after an unclean loss (R283 to R285, R609): lost records are undone, ring counters resume, and lost units
are marked. -/
def recoverLoss (s : State) (f : LossFacts) : State :=
  let h := durableHead s f
  let gone := s.adm.recs.filter fun l => decide (h < l.r.asn)
  let entered := gone.any fun l => l.r.rtype == 5
  let s := (s.adm.undo.filter fun e => decide (h < e.asn)).reverse.foldl rollZone s
  let s := f.ringFloor.foldl ringResume s
  let s := (s.rings.map (·.1)).foldl (fun s r => setRing s r { ring s r with active := ringActive s r }) s
  let tail := s.jrn.tail
  let s := tail.reverse.foldl undoJournal { s with jrn.tail := [], jrn.tail2 := [], jrn.nextLsn := match tail with
    | j :: _ => j.lsn
    | [] => s.jrn.nextLsn }
  let s := tail.foldl rejournal s
  let remaps := s.adm.remaps.filter fun r => r.durable && decide (r.asn ≤ h)
  let keep (l : LRec) : Option LRec := if l.r.asn ≤ h then some { l with durable := true } else none
  let s := { s with adm.recs := s.adm.recs.filterMap keep, adm.recs2 := [], adm.nextAsn := h + 1, adm.undo := []
                    adm.preserve := s.adm.preserve && !entered
                    adm.preserveGroup := if entered then none else s.adm.preserveGroup
                    adm.spent := s.adm.spent && !(gone.any fun l => l.r.asn == 2 ^ 64 - 1)
                    adm.remaps := remaps
                    adm.nextRemap := match remaps.getLast? with | some r => r.index + 1 | none => s.adm.remapFloor
                    adm.localSeq := (remaps.filter fun (r : Remap) => r.asn == h).foldl (fun m (r : Remap) => Nat.max m r.localSeq) 0
                    nss := s.nss.map (convBack f.keptUnits) }
  let s := { s with rst.cuts := f.cutPrograms }
  let (s, n) := markLost f.keptUnits s
  let s := odKeep (odKeep s 0xA100 0x09 n) 0x8400 0x0B (od s 0x8400 0x0B + 1)
  loupe s 285 0x84 7 [gone.length, n]

/-! The restart scan (R286 to R292). -/

/-- Half-erased blocks, named by a start cell and by no completion, are to be erased again (R29, R274). -/
def halfErased (s : State) : State :=
  s.dies.foldl (fun s e => (e.2.started ++ e.2.half).foldl (fun s b => eraseAgain s e.1 b) s) s

/-- A conventional unit of the image is in the window again. -/
def holdConv (s : State) (e : Nat × Nat) : State :=
  match ns? s e.1 with
  | some n =>
    let s := setNs s { n with units := kvPut {} e.2 { kvGet {} e.2 n.units with held := some 0 } n.units }
    setFn { s with win.used := s.win.used + 1 } 0 { fnc s 0 with winUnits := (fnc s 0).winUnits + 1 }
  | none => s

/-- The newest sealed image (R283). -/
def newestImage (s : State) : Option Image :=
  (s.power.images.filter (·.sealed)).foldl (fun m i => match m with
    | some j => if j.seq < i.seq then some i else m
    | none => some i) none

/-- The newest sealed image becomes the one in use; the other area takes the next (R283, R292). -/
def useImage (s : State) : State :=
  match newestImage s with
  | some i => { s with power.area := 1 - i.area, power.inUse := true
                       power.images := s.power.images.filter fun x => x.area == i.area }
  | none => { s with power.inUse := false, power.images := [] }

/-- Steps 1 to 8: the configuration, the erase ledger, the image, the journal and the ledger are read, and the window
is reloaded (R283, R287, R288, R292). -/
def scanRead (s : State) (loss : Option LossFacts) : State :=
  let none' : LossFacts := { durableAsn := 0, keptUnits := [], cutPrograms := [], ringFloor := [] }
  let unclean := s.rst.unclean
  let down := if unclean then 2 else if s.power.clean then 0 else 1
  let s := odKeep (odKeep s 0xA100 0x05 down) 0xA100 0x09 0
  let s := if s.power.clean then s else { s with power.unsafeShutdowns := s.power.unsafeShutdowns + 1 }
  let s := halfErased s
  let s := odKeep s 0xA100 0x03 ((s.dies.map fun e => e.2.half.length).sum)
  let s := if unclean then recoverLoss s (loss.getD none') else s
  let s := useImage s
  let conv := windowConv s
  let units := windowUnits s ++ (partialUnits s).filter fun u => !(windowUnits s).contains u
  let s := { s with power.reload := units ++ conv.map fun e => (2 ^ 32 + e.1, e.2), rst.unclean := false }
  let s := units.foldl (fun s e => holdUnits s e.1 0 [e.2]) s
  conv.foldl holdConv s

/-- Settle one unsealed record (R116): Command Aborted due to Power Loss Notification, its blocks stored as zeroes. -/
def settleRecord (s : State) (l : LRec) (status : Nat) : State :=
  match ns? s l.r.nsid with
  | none => sealRecord s l.r.asn status 0
  | some n =>
    let z := l.r.zone
    let v := zone s z
    let off := n.offset l.r.lba
    let hit (o : Nat) : Bool := decide (off ≤ o) && decide (o < off + l.r.blocks)
    let s := setZone s z { v with blocks := kvDrop hit v.blocks }
    let s := holdUnits s z 0 (unitsOf n.bpu off l.r.blocks)
    sealRecord s l.r.asn status (dataCheck n.lbaf (List.replicate l.r.blocks 0))

/-- Settle every unsealed command record (R116). -/
def settleAll (s : State) : State :=
  let open_ := s.adm.recs.filter fun l => !l.sealed
  odKeep (open_.foldl (fun s l => settleRecord s l stPowerLoss) s) 0xA100 0x04 open_.length

/-- Append the epoch record of the configuration in force at the next ASN, measured into MS13 (R98, R408, R603,
R604). -/
def epochRecord (s : State) : State :=
  let d := Config.sha384 816 (configBlock s)
  extend (addRecord s (plainRecord s 4 (od s 0x2100 0x06) d) true 0) 13 d

/-- At the epoch record of a change of T, S or Nr every ring starts again at 0, with all its rows to be erased (R152). -/
def reformat (before s : State) : State :=
  if rowsT before = rowsT s ∧ rowsS before = rowsS s ∧ ringsN before = ringsN s then s
  else
    let all := (List.range (ringRows s)).flatMap fun x => (List.range 16).map (x * 16 + ·)
    (List.range 128).foldl (fun s g => (List.range (ringsN s)).foldl (fun s r =>
      setRing s (ringInst g r) { unerased := all }) s) { s with rings := [] }

/-- At the epoch record of a change of S that leaves every die in service more spares than the reserve, the preserve
state ends, unless R92 began it (R238). -/
def leavePreserve (before s : State) : State :=
  let above (d : Nat) : Bool := decide ((die s d).service ≠ 0 ∨ od s 0x4010 0x05 < spares s d)
  if rowsS before = rowsS s ∨ !s.adm.preserve ∨ s.adm.spent ∨ !((List.range 2048).all above) then s
  else loupe { s with adm.preserve := false, adm.preserveGroup := none } 238 0x42 5 []

/-- The surviving ledger holds no epoch record for the configuration's epoch (R603): its newest record carries a lower
one. -/
def epochMissing (s : State) : Bool :=
  match s.adm.recs.getLast? with
  | some l => decide (l.r.epoch < od s 0x2100 0x06)
  | none => s.adm.floor == 1 && od s 0x2100 0x06 != odDflt 0x2100 0x06 0

/-- Write the remap record of a durable row-table switch that lacks one. -/
def remapOne (s : State) (j : JRec) : State :=
  match j.typ, j.body with
  | 4, d :: row :: old :: new :: cause :: _ =>
    if s.adm.remaps.any fun r => r.channel == dieChan d && r.die == d % 32 && r.oldBlock == old && r.newBlock == new
    then s else addRemap s d row old new cause
  | _, _ => s

/-- Write the remap records that durable row-table switches lack, in journal order (R605). -/
def remapAgain (s : State) : State := s.jrn.durable.foldl remapOne s

/-- Opened zones in ascending NSID and zone start LBA (R68, R290). -/
def openedZones (s : State) : List Nat :=
  ((s.nss.filter (·.zoned)).mergeSort (fun a b => a.nsid ≤ b.nsid)).flatMap fun n =>
    (n.zones.mergeSort fun a b => n.startOf a ≤ n.startOf b).filter fun z => (zone s z).st.isOpen

/-- Close every opened zone, each at its ASN (R68); none once no ASN remains (R92). -/
def closeOpened (s : State) : State :=
  if s.adm.spent then s
  else (openedZones s).foldl (fun s z => if s.adm.nextAsn < 2 ^ 64 - 1 then withUndo (fun s => deviceClose s z 2) s else s) s

/-- A die whose spares are at the reserve leaves the device to enter the preserve state again (R610). -/
def preserveMissing (s : State) : Option Nat :=
  if s.adm.preserve then none
  else (s.dies.find? fun e => e.2.service == 0 && decide (spares s e.1 ≤ od s 0x4010 0x05)).map fun e => dieGroup e.1

/-- Program the boot record, and a retained record that row 0 lacks (R410, R412, R547). -/
def programBootRecord (s : State) : State :=
  match s.ciph.fresh with
  | none => s
  | some b =>
    let all := s.ciph.records ++ s.ciph.lacking.toList ++ [b]
    { s with ciph.records := all.drop (all.length - 1024), ciph.fresh := none, ciph.lacking := none
             rst.recordDurable := true, rst.bootFailures := 0 }

/-- A fold unit programmed on every facet has its commit written; unmap and erased records are written (R277, R278). -/
def settleJournal (s : State) : State :=
  let s := (s.zones.filter fun e => e.2.unmapDue).foldl (fun s e =>
    setZone (journal s 1 [e.1, e.2.unmapAsn]) e.1 { zone s e.1 with unmapDue := false }) s
  let s := s.zones.foldl (fun s e => e.2.folds.foldl (fun s f => foldCommit s e.1 f.1) s) s
  let s := s.dies.foldl (fun s e => e.2.ended.foldl (fun s b => journal s 5 [e.1, b, e.2.cellSeq]) s) s
  s

/-- Step 9 (R288, R290): WP# is released, records are settled, and the records of restart are written. -/
def scanWrite (s : State) : State :=
  let s := programBootRecord { s with pins.wpLow := false, pair.bootWait := false }
  let s := s.rst.cuts.foldl repairCut { s with rst.cuts := [] }
  let s := settleAll s
  let s := if epochMissing s then epochRecord s else s
  let s := remapAgain s
  let s := match preserveMissing s with
    | some g => enterPreserve s g
    | none => s
  let s := settleJournal (closeOpened s)
  if s.ciph.pendingRoot.isSome then sanitizeEnd [] s else s

/-- Step 10 (R288, R292, R420): hold-up is armed on the erased area, controllers are ready, admission resumes. -/
def scanArm (s : State) : State :=
  let ready (f : Fn) : Fn := { f with rdy := f.en }
  let slot := s.ciph.slots.getD s.ciph.activeSlot {}
  let s := { s with power.armed := true, rst.life := .service, rst.scanStep := 0
                    host.fns := kvMap {} ready s.host.fns
                    ciph.otpMin := if slot.asksRaise then Nat.max s.ciph.otpMin slot.secVersion else s.ciph.otpMin }
  updateWindow s

/-- The restart scan (R288). In the maintenance state it stops before its writes (R551), and a twin stops at step 9
for its pair (R316). -/
def execRestartScan (loss : Option LossFacts) (s : State) : Host.Outcome State Fault Refusal :=
  .next (if s.rst.life ≠ .stage3 ∨ s.rst.scanStep ≠ 0 then s
    else
      -- how long the scan took is not known here (log entry 5)
      let s := useFree (odKeep s 0xA100 0x02 (freeVal s % 2 ^ 32))
      let s : State := { scanRead s loss with rst.scanStep := 9 }
      if s.rst.maintain ∨ bootSel s = 1 then { s with rst.life := .maintenance }
      else if pairRole s ≠ 0 then { s with pair.bootWait := true, pair.hbInWait := s.pair.hbIn }
      else scanArm (scanWrite s))

/-- Every reloaded unit is programmed and journalled: the image area is released and erased (R291). -/
def execImageAreaRelease (s : State) : Host.Outcome State Fault Refusal :=
  let waiting := s.power.reload.filter fun e =>
    if 2 ^ 32 ≤ e.1 then (windowConv s).contains (e.1 - 2 ^ 32, e.2) else (windowUnits s ++ partialUnits s).contains e
  .next (if !s.power.inUse ∨ waiting ≠ [] ∨ s.power.hold ≠ .running ∨ s.rst.life ≠ .service then s
    else { s with power.inUse := false, power.reload := []
                  power.images := s.power.images.filter fun i => i.area == s.power.area })

end Sys2Proof.Machine
end

