-- ==== Sys2Proof/Machine/Mirror.lean ====
section
/-! DEFINITION. The Mirror pair: roles, link loss, fencing, promotion, attach and resync, and the frames between twins
(R31 to R33, R235, R294 to R326, R399, R536). -/

namespace Sys2Proof.Machine

/-! Role, epoch, phase and ANA state. -/

def setRole (s : State) (r : Nat) : State :=
  let s := odSave s 0x5000 0x01 0 r
  if r = 1 then { s with pair.wasLead := true } else s
def setPhase (s : State) (p : Nat) : State := odSet s 0x5000 0x03 0 p
def bumpEpoch (s : State) : State := odSave s 0x5000 0x02 0 ((pairEpoch s + 1) % 2 ^ 32)

/-- Report an ANA state at the port: a change posts an ANA Change event (R314). -/
def setAna (s : State) (a : Nat) : State :=
  if s.pair.ana = a then s
  else (enabledFns s).foldl (fun s n => aen s n 2 3) { s with pair.ana := a }

/-! Receiving a frame (R296, R298, R300). -/

/-- Take a Mirror link frame: a lower pair epoch is discarded and counted, and a sequence already taken is dropped. -/
def receive (s : State) (h : FrameHdr) (f : State → State) : State :=
  if !s.pair.linkUp || !s.pair.session then s
  else if h.epoch < pairEpoch s then odBump s 0x5010 0x08
  else if h.seq ≤ s.pair.rxSeq then s
  else f { s with pair.rxSeq := h.seq }

/-! Settling without a twin (R309 to R311). -/

/-- The record's data is fully here: its command has its data, or no command waits for it. -/
def dataHeld (s : State) (asn : Nat) : Bool :=
  !(s.host.cmds.any fun k => k.asns.contains asn && k.stage == .waitData && !k.dataHere)

/-- Conventional writes of the twin leave the order (R313). -/
def dropForeign (s : State) : State :=
  let local? (q : Nat) : Bool := s.host.cmds.any fun k => k.convSeq == some q
  { s with win.convOrder := s.win.convOrder.filter fun e => local? e.1 }

/-- Seal every record whose data is not fully held with 0xC4 and zeroes (R309 step 3, R311); the command of one's own
port ends with it. -/
def settleTwinless (s : State) : State :=
  let open_ := s.adm.recs.filter fun l => !l.sealed && !dataHeld s l.r.asn
  let s := open_.foldl (fun s l => settleRecord s l stFenced) s
  let gone (k : Cmd) : Bool := open_.any fun l => k.asns.contains l.r.asn
  let mine := s.host.cmds.filter gone
  let s := mine.foldl (fun s k => finishCmd s { k with status := stFenced }) s
  -- what the twin sent and never had admitted goes with it
  let foreign (k : Cmd) : Bool := k.origin == 1 && k.stage == .point
  settleReads (dropForeign { s with host.cmds := s.host.cmds.filter fun k => !foreign k })

/-- Media reads that waited for the twin fail (R218). -/
def failTwinReads (s : State) : State :=
  (s.reads.filter fun r => r.mode == .twin).foldl unitFailed s

/-- The link is gone: the twin is absent, and its staging sets are discarded (R308, R317, R469). -/
def linkDown (s : State) : State :=
  let s := odBump (odSet (setPhase s 0) 0x5010 0x01 0 0) 0x5010 0x02
  let s := { s with pair.linkUp := false, pair.session := false, pair.unacked := [], pair.txq := []
                    pair.dropped := [], pair.resendAsked := none
                    pair.retraining := false, pair.missed := 0, pair.handing := false, pair.detaching := false
                    adm.holdAll := false, ciph.sessions := s.ciph.sessions.filter fun b => b != 4 }
  failTwinReads (dropLinkSets s true)

/-- A lead goes solo (R308, R311): the change record opens with the phase. -/
def goSolo (s : State) : State := settleTwinless (bumpEpoch s)

/-- A fenced follower (R310): Inaccessible, and commands that took or sought an ASN complete with 0xC4. What else
needed the link ends with the ANA status. -/
def fence (s : State) : State :=
  let s := setAna { s with pair.fenced := true, pair.waiting := false, pair.asked := [] } 3
  let own := s.host.cmds.filter fun k => k.origin != 1
  let seeks (k : Cmd) : Bool := match ns? s k.io.nsid with
    | some n => admits k.op n.zoned
    | none => false
  let s := own.foldl (fun s k =>
    if seeks k then finishCmd s { k with status := stFenced }
    else if k.stage = .order ∨ k.need.any fun u => !(s.reads.any fun r => r.rid == k.id && r.unit == u) then
      finishCmd s { k with status := stAnaInaccessible }
    else s) s
  settleReads (dropForeign { s with host.cmds := s.host.cmds.filter fun k => k.origin != 1 })

/-- Commands that this twin had sent for admission and that were never answered wait at their points, in the order in
which they were sent (R309 step 4). -/
def askedToPoint (s : State) : State :=
  let asked := s.pair.asked
  let back (k : Cmd) : Cmd :=
    if asked.contains k.id then
      match ns? s k.io.nsid with
      | some n => { k with stage := .point, zone := (n.zoneOf k.io.slba).getD 0
                           zonesLeft := if k.io.selectAll then n.zones else [] }
      | none => k
    else k
  { s with host.cmds := s.host.cmds.map back, pair.asked := [] }

/-- Conventional writes that waited for the lead's order take their sequences here (R313). -/
def ordersHere (s : State) : State :=
  (s.host.cmds.filter fun k => k.stage == .order).foldl (fun s k =>
    let q := s.win.convSeq
    setCmd { s with win.convSeq := q + 1, win.convOrder := s.win.convOrder ++ [(q, k.io.nsid, k.io.slba, k.io.nlb)] }
      { k with stage := .waitData, convSeq := some q }) s

/-- A preserve report that never went out is this twin's own record to append (R235). -/
def reportHere (s : State) : State :=
  match s.adm.reportDue with
  | some g => { s with adm.reportDue := none, adm.due := s.adm.due ++ [.preserve g] }
  | none => s

/-- A follower promotes itself (R309). -/
def promote (s : State) : State :=
  let s := setPhase (bumpEpoch (setRole s 1)) 0
  let s := odSave s 0x5000 0x07 0 s.adm.appliedHead
  let s := { s with adm.nextAsn := s.adm.appliedHead + 1, pair.waiting := false, pair.fenced := false
                    pair.promoted := true }
  let s := reportHere (askedToPoint (ordersHere (settleTwinless s)))
  setAna s 1

/-- What a link loss does by role and heartbeat (R308). -/
def linkLost (s : State) : State :=
  let role := pairRole s
  let s := linkDown s
  if role = 1 then goSolo s
  else if role = 2 then
    if s.pair.hbIn then fence s
    else if s.pair.hbAge ≤ 50 then setAna { s with pair.waiting := true } 15
    else loupe (fence s) 308 0x50 5 []
  else s

/-! Keepalive and sideband (R299, R306 to R308). -/

/-- Every 20 µs: a keepalive and a link acknowledgement on every link in session, and one more period without one
received (R299, R300, R306, R328). -/
def execKeepaliveSend (s : State) : Host.Outcome State Fault Refusal :=
  let s := { s with pair.hbAge := if s.pair.hbIn then 0 else s.pair.hbAge + 1 }
  let status := [pairRole s, pairEpoch s, pairPhase s, s.adm.appliedHead, sealedHead s,
                 (if s.adm.preserve then 1 else 0), (if s.pair.hbIn then 1 else 0), Config.serial]
  let s := if s.pair.linkUp && s.pair.session then
      let s := sendFrame (sendFrame s 0 0x01 status) 0 0x03 [s.pair.rxSeq, 0]
      { s with pair.missed := s.pair.missed + 1 }
    else s
  .next ([1, 2, 3].foldl (fun s p =>
    if (member s p).linkUp then
      let s := sendFrame s p 0x01 status
      setMember s p { member s p with missed := (member s p).missed + 1 }
    else s) s)

/-- A command that holds an ASN still waits for the twin (R312). -/
def owedTwin (s : State) : Bool := s.host.cmds.any fun k => !k.asns.isEmpty && !k.acked

/-- A detach takes effect once every command at or below its ASN has completed under R312: the lead goes solo (R311, R326). -/
def trySeparate (s : State) : State :=
  if !s.pair.detaching ∨ owedTwin s then s
  else
    let s := setPhase { s with pair.detaching := false, adm.holdAll := false } 0
    if pairRole s = 1 then goSolo s else s

/-- The frames that make the follower lead, once it has applied and acknowledged every record (R325). -/
def tryHandover (s : State) (applied : Nat) : State :=
  if !s.pair.handing ∨ owedTwin s ∨ applied + 1 ≠ s.adm.nextAsn then s
  else
    let s := bumpEpoch s
    let s := sendFrame s 0 0x04 [2, s.adm.nextAsn - 1]
    let s := odSave { s with pair.handing := false, adm.holdAll := false, pair.wasLead := false
                             adm.appliedHead := s.adm.nextAsn - 1 } 0x5000 0x01 0 2
    -- commands held before check 7 are sent to the new lead; its own it holds itself
    let theirs (k : Cmd) : Bool := k.origin == 1 && k.stage == .point
    let s := { s with host.cmds := s.host.cmds.filter fun k => !theirs k }
    (s.host.cmds.filter fun k => k.stage == .point).foldl (fun (s : State) (k : Cmd) =>
      let s := setCmd s { k with stage := .forwarded, held := false }
      let s := { s with pair.asked := s.pair.asked ++ [k.id] }
      sendFrame s 0 0x10 ([k.index, k.io.fn, k.gen] ++ ioFields k.op k.io)) s

/-- A keepalive from the twin (R299, R306): its status is kept, a higher pair epoch is taken, and a lead follows its
follower's phase; a twin that joins raises the epoch (R296). -/
def execKeepalive (h : FrameHdr) (b : StatusBlock) (s : State) : Host.Outcome State Fault Refusal :=
  .next (receive s h fun s =>
    let s := { s with pair.missed := 0, pair.twin := some b }
    let s := if pairEpoch s < h.epoch then odSave s 0x5000 0x02 0 h.epoch else s
    if pairRole s = 1 ∧ b.role = 2 then
      let was := pairPhase s
      let s := if 2 ≤ was ∧ was < b.phase ∧ b.phase ≤ 4 then setPhase s b.phase else s
      let s := if was < 3 ∧ 3 ≤ pairPhase s then bumpEpoch { s with pair.promoted := false } else s
      trySeparate (tryHandover s b.appliedHead)
    else trySeparate s)

/-- Ten periods without a valid keepalive are a link loss (R306, R308). -/
def execLinkLoss (s : State) : Host.Outcome State Fault Refusal :=
  .next (if s.pair.linkUp ∧ 10 ≤ s.pair.missed then loupe (linkLost s) 225 0x50 5 [0] else s)

/-- PAIR_HB_IN was absent throughout the 5 ms: the follower promotes itself (R308). -/
def execPromotionWaitExpiry (s : State) : Host.Outcome State Fault Refusal :=
  .next (if s.pair.waiting ∧ !s.pair.hbIn then promote s else s)

/-- PAIR_HB_IN reads absent (R307). -/
def execPairHbInAbsent (s : State) : Host.Outcome State Fault Refusal :=
  .next (if s.pair.hbIn then odBump { s with pair.hbIn := false, pair.hbAge := 0 } 0x5010 0x07 else s)

/-- PAIR_HB_IN reads present again: a follower that waited to promote is fenced (R307, R308, R316). -/
def execPairHbInPresent (s : State) : Host.Outcome State Fault Refusal :=
  let s := { s with pair.hbIn := true, pair.hbAge := 0, pair.hbInWait := s.pair.hbInWait || s.pair.bootWait }
  .next (if s.pair.waiting then fence s else s)

/-- A twin proceeds alone as lead (R316): one that was follower is promoted, and records its fork point (R309). -/
def aloneAsLead (s : State) : State :=
  let s := if pairRole s = 2 then odSave { s with pair.promoted := true } 0x5000 0x07 0 s.adm.appliedHead else s
  scanArm (scanWrite (reportHere (bumpEpoch (setRole s 1))))

/-- The pair boot wait ends without an attach (R316). -/
def execPairBootWaitExpiry (s : State) : Host.Outcome State Fault Refusal :=
  .next (if !s.pair.bootWait ∨ s.pair.fenced ∨ s.pair.linkUp then s
    else if s.pair.hbInWait then fence s
    else aloneAsLead s)

/-! Meeting (R294, R295, R302, R315, R317, R318). -/

/-- The outcome of R295 for this controller. -/
inductive Election where
  | lead | follower | refused | split (fences : Bool)
deriving DecidableEq, Repr

/-- Roles by the first row that applies (R295). The lower serial is judged as a number whose bytes are in comparison
order (R294). -/
def elect (s : State) (serial peerEpoch : Nat) (peerLead peerPref peerNs peerPaired : Bool) : Election :=
  let mineNs := !s.nss.isEmpty
  let paired := peerPaired && pairRole s != 0 && od s 0x5000 0x04 == serial
  let lower := decide (Config.serial < serial)
  let meLead := pairRole s == 1
  if !paired then
    if mineNs && !peerNs then .lead
    else if !mineNs && peerNs then .follower
    else if mineNs && peerNs then .refused
    else
      let pref := s.rst.straps.testBit 0
      if pref != peerPref then (if pref then .lead else .follower)
      else if lower then .lead else .follower
  else if pairEpoch s ≠ peerEpoch then (if peerEpoch < pairEpoch s then .lead else .follower)
  else if meLead != peerLead then (if meLead then .lead else .follower)
  else if meLead then .split !lower
  else if lower then .lead else .follower

/-- The highest ASN up to which every record is sealed: the records above it are taken from the lead (R316, R318). -/
def ownFork (s : State) : Nat := if s.pair.bootWait then sealedHead s else Nat.min s.adm.appliedHead (sealedHead s)

/-- The restart scan's wait for the pair ends: its writes are made, and hold-up is armed (R316). -/
def endBootWait (s : State) : State := if s.pair.bootWait then scanArm (scanWrite s) else s

/-- The wait ends at a follower: its lead makes the records. -/
def endWaitFollower (s : State) : State :=
  if s.pair.bootWait then
    scanArm (settleJournal (programBootRecord { s with pins.wpLow := false, pair.bootWait := false })) else s

/-- A preserve report that waited for the link goes out (R235). -/
def reportPreserve (s : State) : State :=
  match s.adm.reportDue with
  | some g => sendFrame { s with adm.reportDue := none } 0 0x04 [5, g]
  | none => s

/-- Become lead of an attach (R294, R295, R304, R316, R317): a pair that is formed takes the lead's NQN. -/
def meetAsLead (s : State) (serial : Nat) (formed : Bool) : State :=
  let s := odSave (setPhase (setRole s 1) 1) 0x5000 0x04 0 serial
  let s := if formed then bumpEpoch (odSave s 0x1010 0x02 0 (Config.subsystemNqn Config.serial)) else s
  let s := { s with pair.detached := false, pair.newTwin := s.pair.newTwin || formed }
  let s := endBootWait s
  if formed then sendRoot s else s

/-- Become follower of an attach (R294, R295, R314, R316, R318): the fork report goes to the lead. -/
def meetAsFollower (s : State) (serial : Nat) (formed : Bool) : State :=
  let fork := ownFork s
  let s := odSave (setPhase (odSave s 0x5000 0x01 0 2) 1) 0x5000 0x04 0 serial
  let s := if formed then odSave s 0x1010 0x02 0 (Config.subsystemNqn serial) else s
  let s := { s with pair.fenced := false, pair.detached := false, pair.waiting := false, pair.promoted := false
                    pair.newTwin := false }
  let s := setAna s 3
  let s := reportPreserve (endWaitFollower s)
  sendFrame s 0 0x04 [6, fork, s.adm.appliedHead]

/-- Two leads of one epoch meet (R315, R316): the higher serial is fenced, and no resync runs. -/
def meetSplit (s : State) (fences : Bool) : State :=
  let s := loupe (odSave (setPhase s 0) 0x5000 0x0B 0 1) 315 0x50 7 []
  if fences then fence s
  else endBootWait s

/-- Controllers of this side as its master counts them (R2, R327). A member counts none (log entry 114). -/
def sideControllers (s : State) : Option Nat :=
  if casPos s ≠ 0 then none
  else some (1 + ([1, 2, 3].filter fun p => od s 0x5110 0x01 p == 1 || od s 0x5110 0x01 p == 2).length)

/-- Attach over a link in session (R295, R317). A pair whose sides hold different numbers of controllers is not formed
(R2). -/
def attach (s : State) (serial peerEpoch : Nat) (peerLead peerPref peerNs peerPaired : Bool) (peerControllers : Nat) :
    State :=
  let paired := peerPaired && pairRole s != 0 && od s 0x5000 0x04 == serial
  if !paired && (sideControllers s).any (· != peerControllers) then
    { s with pair.linkUp := false, pair.session := false }
  else match elect s serial peerEpoch peerLead peerPref peerNs peerPaired with
  | .refused => loupe { s with pair.linkUp := false, pair.session := false } 295 0x50 5 []
  | .lead => meetAsLead s serial (!paired)
  | .follower => meetAsFollower s serial (!paired)
  | .split f => meetSplit s f

/-- Attaches run from the restart scan's wait or from service. -/
def mayAttach (s : State) : Bool := s.rst.life == .service || s.pair.bootWait

/-- A Mirror link has trained, and the session is established (R297, R302, R339). -/
def mirrorTrained (s : State) (lanes serial position digest peerEpoch : Nat)
    (peerLead peerPref peerNs peerPaired : Bool) (peerControllers : Nat) : State :=
  if lanes < 4 ∨ !mayAttach s ∨ s.rst.logicFailed.testBit 29 then s
  else
    let s := if lanes < 8 then loupe s 297 0x50 4 [lanes] else s
    if position ≠ casPos s then loupe s 339 0x50 5 [position]
    else if digest ≠ od s 0x5000 0x05 then s
    else
      let s := odSet s 0x5010 0x01 0 (if lanes < 8 then 4 else 8)
      let s := { s with pair.linkUp := true, pair.session := true, pair.txSeq := 1, pair.rxSeq := 0, pair.unacked := [], pair.txq := []
                        pair.resendAsked := none, pair.retraining := false, pair.missed := 0, pair.keyUpdates := 0
                        pair.secret := freeVal s, pair.sessionId := freeVal (useFree s), free := s.free + 2
                        ciph.sessions := addTo 4 s.ciph.sessions
                        pins.mirrorIdle := false }
      if s.pair.detached then s else attach s serial peerEpoch peerLead peerPref peerNs peerPaired peerControllers

/-- A cascade link has trained (R327, R328, R336): a returning member is on probation. -/
def cascadeTrained (s : State) (port lanes serial position : Nat) : State :=
  if lanes < 4 ∨ s.rst.life ≠ .service ∨ s.rst.logicFailed.testBit 29 then s
  else
    let m : Member := { linkUp := true, session := true, serial := serial }
    if casPos s = 0 then
      if position ≠ port then loupe s 327 0x51 5 [port, position]
      else if (member s port).linkUp then loupe s 327 0x51 5 [port, position]
      else if od s 0x5110 0x01 port = 3 then s
      else odSet (setMember s port m) 0x5110 0x01 port 1
    else if port ≠ 1 ∨ position ≠ 0 then loupe s 327 0x51 5 [port, position]
    else { setMember s 1 m with casc.masterLost := false }

/-- A Mirror or cascade link has trained. -/
def execLinkTrained (port lanes serial position peerDigest peerEpoch : Nat)
    (peerLead peerPref peerNamespaces : Bool) (peer : Peer) (s : State) :
    Host.Outcome State Fault Refusal :=
  .next (if port = 0 then
      let t := mirrorTrained s lanes serial position peerDigest peerEpoch peerLead peerPref peerNamespaces peer.paired
        peer.controllers
      -- the lead records an attach to a twin of another placement revision (R421)
      if pairRole t = 1 ∧ pairPhase t = 1 ∧ pairPhase s = 0 ∧ peer.revision ≠ Config.placementRevision then
        loupe t 421 0x50 4 [peer.revision] else t
    else cascadeTrained s port lanes serial position)

/-! Acknowledgements (R32, R300, R312, R536). -/

/-- A holding acknowledgement (R32, R312). An ASN that the twin applied with another result makes the lead force its
reset (R536). -/
def execHoldingAcknowledgement (h : FrameHdr) (asns differ : List Nat) (s : State) : Host.Outcome State Fault Refusal :=
  .next (receive s h fun s =>
    let mark (k : Cmd) : Cmd :=
      let mine := match k.convSeq with
        | some q => asns.contains (2 ^ 63 + q)
        | none => match k.asns.getLast? with
          | some a => asns.contains a
          | none => false
      if mine then { k with acked := true } else k
    let s := { s with host.cmds := s.host.cmds.map mark }
    let s := if pairRole s = 1 ∧ differ ≠ [] then sendFrame s 0 0x04 [9, 1] else s
    trySeparate (tryHandover s
      (match s.pair.twin with | some b => Nat.max b.appliedHead (asns.foldl Nat.max 0) | none => 0)))

/-- A holding acknowledgement is more than 100 ms late: the lead sends a forced-reset frame (R536). -/
def execHoldingAckLate (asn : Nat) (s : State) : Host.Outcome State Fault Refusal :=
  .next (if pairRole s = 1 ∧ s.pair.linkUp ∧ joined s ∧ s.host.cmds.any (fun k => k.asns.contains asn && !k.acked) then
      sendFrame s 0 0x04 [9, 2]
    else s)

/-- A link acknowledgement: frames up to the sequence are done, and a frame asked for is sent once more; asked for
twice, it starts a fast retrain (R223, R300, R328). -/
def execLinkAcknowledgement (port received resend : Nat) (s : State) : Host.Outcome State Fault Refusal :=
  .next (if port = 0 then
      if !s.pair.linkUp then s
      else
        let s := { s with pair.unacked := s.pair.unacked.filter fun f => decide (received < f.seq) }
        -- a sanitize is complete once the follower has the new root (R402)
        let s := if s.host.sanitizeStatus = 2 ∧ s.ciph.pendingRoot.isNone ∧
            !((s.pair.unacked ++ s.pair.txq).any fun f => f.kind == 0x04 && f.body.head? == some 7) then
          { s with host.sanitizeStatus := 1 } else s
        match s.pair.unacked.find? fun f => f.seq == resend with
        | none => { s with pair.resendAsked := if resend = 0 then none else s.pair.resendAsked }
        | some f =>
          if s.pair.resendAsked = some resend then
            odBump (odBump { s with pair.retraining := true, pair.resendAsked := none } 0x5010 0x03) 0x4000 0x0E
          else odBump { s with pair.resendAsked := some resend, pair.out := s.pair.out ++ [f] } 0x5010 0x05
    else
      let m := member s port
      if !m.linkUp then s
      else
        let m := { m with unacked := m.unacked.filter fun f => decide (received < f.seq) }
        match m.unacked.find? fun f => f.seq == resend with
        | none => setMember s port { m with resendAsked := if resend = 0 then none else m.resendAsked }
        | some f =>
          if m.resendAsked = some resend then
            odBump (setMember s port { m with retraining := true, resendAsked := none }) 0x4000 0x0E
          else { setMember s port { m with resendAsked := some resend } with pair.out := s.pair.out ++ [f] })

/-! Attach, handover and detach (R317 to R326). -/

/-- State of a code of R60. -/
def stateOf : Nat → ZState
  | 0x2 => .implOpen | 0x3 => .explOpen | 0x4 => .closed | 0xD => .readOnly | 0xE => .full | 0xF => .offline
  | _ => .empty

/-- A zone as a record left it (R96); it is marked from unit 0, and all its units are to be copied (R318, R319, R321). -/
def zoneAfter (s : State) (z : Nat) (r : Option LRec) : State :=
  let v := zone s z
  match r, nsOfZone s z with
  | some l, some n =>
    let st := stateOf l.r.stateAfter
    let wp := if l.r.wpAfter = 2 ^ 64 - 1 then (if st = .full ∨ st = .readOnly then v.wp else 0)
              else l.r.wpAfter - n.startOf z
    let copy (m : Kv UnitSt) (u : Nat) : Kv UnitSt :=
      let e := kvGet {} u m
      kvPut {} u { e with pending := true, loc := if e.loc = .none then .qlc else e.loc } m
    setZone s z { v with st := st, wp := wp, marked := some 0
                         blocks := kvDrop (fun o => decide (wp ≤ o)) v.blocks
                         units := (List.range (ceilDiv wp n.bpu)).foldl copy
                           (kvDrop (fun u => decide (ceilDiv wp n.bpu ≤ u)) v.units) }
  | _, _ => setZone s z { marked := some 0, eraseQueue := v.eraseQueue, eraseLeft := v.eraseLeft }

/-- Discard the records above the fork point, and mark every zone that they touched (R318). -/
def discardAbove (s : State) (fork : Nat) : State :=
  let gone := s.adm.recs.filter fun l => decide (fork < l.r.asn)
  let zs := (gone.filter fun l => decide (l.r.rtype ≤ 2)).foldl (fun l r => addTo r.r.zone l) []
  let recs := s.adm.recs.filter fun l => decide (l.r.asn ≤ fork)
  let s := zs.foldl (fun s z => zoneAfter s z ((recs.filter fun l => l.r.zone == z && decide (l.r.rtype ≤ 2)).getLast?)) s
  let entered := gone.any fun l => l.r.rtype == 5
  copyLedger { s with adm.recs := recs, adm.nextAsn := Nat.min s.adm.nextAsn (fork + 1)
                      adm.appliedHead := Nat.min s.adm.appliedHead fork
                      adm.undo := s.adm.undo.filter fun e => decide (e.asn ≤ fork)
                      adm.spent := s.adm.spent && !(gone.any fun l => l.r.asn == 2 ^ 64 - 1)
                      adm.preserve := s.adm.preserve && !entered
                      adm.preserveGroup := if entered then none else s.adm.preserveGroup }

/-- Take the lead's preserve state over with a state transfer (R88). -/
def takePreserve (s : State) (g : Option Nat) : State :=
  match g with
  | some g => if s.adm.preserve then s else preserveBegins s g
  | none => { s with adm.preserve := false, adm.preserveGroup := none }

/-- Take over a state transfer (R324): every zone that is not Empty is marked, and no record below A is held. -/
def takeTransfer (s : State) (t : Transfer) (live : Nat) : State :=
  let ns (d : NsDesc) : Ns := { nsid := d.nsid, zoned := d.zoned, size := d.size, lbaf := d.lbaf, pit := d.pit
                                parity := d.parity, placement := d.handles, pclass := d.pclass, activeQuota := d.activeQuota, openQuota := d.openQuota
                                zones := d.zones, poolRows := d.poolRows, gen := d.gen, salt := d.salt
                                extents := d.extents, anaGroup := groupOfExtents s d.extents }
  let s := { s with nss := t.nss.map ns, zones := [] }
  let s := t.config.foldl (fun s e => { s with dict.od := odPutKey e.1 e.2 s.dict.od
                                               dict.durable := odPutKey e.1 e.2 s.dict.durable }) s
  let s := t.zones.foldl (fun s d =>
    let st := stateOf d.state
    setZone s d.zone { st := st, wp := d.wp, finish := d.finish, epoch := d.epoch, ring := d.ring, keyGen := d.keyGen
                       marked := if st = .empty then none else some 0 }) s
  let s := t.zones.foldl (fun s d =>
    let v := zone s d.zone
    let bpu := match nsOfZone s d.zone with | some n => n.bpu | none => 1
    let us := List.range (ceilDiv d.wp bpu)
    let put (m : Kv UnitSt) (u : Nat) : Kv UnitSt := kvPut {} u { loc := .qlc, pending := true, keyGen := d.keyGen } m
    setZone s d.zone { v with units := us.foldl put [] }) s
  let s := t.cells.foldl (fun s e =>
    let (inst, c, z, u) := e
    let v := zone s z
    let s := setZone s z { v with units := kvPut {} u { kvGet {} u v.units with loc := .window (some c) } v.units }
    setRing s inst { ring s inst with cells := kvPut noCell c (z, u) (ring s inst).cells }) s
  let s := ((List.range 1024).filter fun r => (ring s r) ≠ {} || s.zones.any fun e => e.2.ring == some r).foldl
    (fun s r => setRing s r { ring s r with active := ringActive s r }) s
  takePreserve { s with adm.recs := [], adm.recs2 := [], adm.floor := live, adm.nextAsn := live
                        adm.appliedHead := live - 1, adm.undo := [] } t.preserve

/-- An attach frame moves the returning twin on (R317, R318, R320, R324, R609): the fork and live points are fixed, its
records above the fork point are discarded, and ring counters take the higher of both values. -/
def execAttachFrame (h : FrameHdr) (forkPoint livePoint : Nat) (rings regions : List (Nat × Nat))
    (transfer : Option Transfer) (s : State) : Host.Outcome State Fault Refusal :=
  .next (receive s h fun s =>
    if pairRole s ≠ 2 ∨ pairPhase s ≠ 1 then s
    else
      let s := match transfer with
        | some t => takeTransfer s t livePoint
        | none => discardAbove s forkPoint
      let s := rings.foldl ringResume s
      -- the lead's conventional sequences start over for this twin
      let fresh (n : Ns) : Ns := { n with seqs := [] }
      let s := { s with nss := s.nss.map fresh }
      let s := odSet (odSet (odSave s 0x5000 0x07 0 forkPoint) 0x5000 0x08 0 livePoint) 0x5020 0x02 0 0
      setPhase { s with pair.wasLead := false, pair.regions := regions } 2)

/-- The follower takes the lead role at the head (R325). -/
def execHandoverFrame (h : FrameHdr) (head : Nat) (s : State) : Host.Outcome State Fault Refusal :=
  .next (receive s h fun s =>
    if pairRole s ≠ 2 ∨ pairPhase s ≠ 4 then s
    else
      let s := odSave (setRole s 1) 0x5000 0x02 0 (Nat.max h.epoch (pairEpoch s))
      let s := { s with adm.nextAsn := head + 1, adm.appliedHead := head }
      askedToPoint (ordersHere s))

/-- The lead separates the pair at its head (R326): it sends the detach frame, completes what lies at or below D under R312 while
new commands wait before check 7, and goes solo. -/
def separate (s : State) : State :=
  let s := sendFrame s 0 0x04 [3, s.adm.nextAsn - 1]
  trySeparate { s with pair.detaching := true, adm.holdAll := true }

/-- A detach frame (R326): at the lead a request, at the detaching twin the separation at ASN D. -/
def execDetachFrame (h : FrameHdr) (asn : Nat) (s : State) : Host.Outcome State Fault Refusal :=
  .next (receive s h fun s =>
    if pairRole s = 1 then separate s
    else if pairRole s ≠ 2 then s
    else
      let s := setAna { s with pair.detached := true, pair.detaching := true } 4
      let late := s.host.cmds.filter fun k => k.stage == .forwarded && s.pair.asked.contains k.id
      let s := late.foldl (fun s k => finishCmd s { k with status := stAnaLoss }) s
      trySeparate { s with pair.asked := [], adm.appliedHead := Nat.max s.adm.appliedHead (Nat.min asn (s.adm.nextAsn - 1)) })

/-- A preserve report makes the lead append the preserve entry record (R235). -/
def execPreserveReport (h : FrameHdr) (group : Nat) (s : State) : Host.Outcome State Fault Refusal :=
  .next (receive s h fun s =>
    if pairRole s ≠ 1 ∨ s.adm.preserve ∨ s.adm.due.contains (.preserve group) then s
    else { s with adm.due := s.adm.due ++ [.preserve group] })

/-- What a state transfer carries (R324): the namespace table, the zone descriptors and the ring cells. -/
def transferBody (s : State) : List Nat :=
  let ns (n : Ns) : List Nat :=
    [n.nsid, if n.zoned then 1 else 0, n.size, n.lbaf, n.pit, n.parity, n.pclass, n.activeQuota, n.openQuota, n.gen,
     n.salt, n.zones.length] ++ n.zones ++ [n.poolRows.length] ++ n.poolRows ++ [n.placement.length] ++ n.placement ++
    [n.extents.length] ++ n.extents.flatMap fun e => [e.1, e.2.1, e.2.2]
  let zn (e : Nat × Zone) : List Nat :=
    [e.1, e.2.st.code, e.2.wp, e.2.finish.getD 0, e.2.epoch, e.2.ring.getD 0, e.2.keyGen]
  let cell (e : Nat × Ring) : List Nat := e.2.cells.flatMap fun c => [e.1, c.1, c.2.1, c.2.2]
  let kept (e : Nat × Nat) : Bool := (odFind (keyObj e.1) (keyElem e.1)).any (·.pairWide)
  let config := s.dict.durable.filter kept
  [match s.adm.preserve, s.adm.preserveGroup with | true, some g => g + 1 | _, _ => 0] ++
  [config.length] ++ (config.flatMap fun e => [e.1, e.2]) ++ [s.nss.length] ++ s.nss.flatMap ns ++ [s.zones.length] ++ s.zones.flatMap zn ++ s.rings.flatMap cell

/-- The 1 MiB regions of conventional namespaces that hold data: all of them go to a twin brought in by a state transfer (R321,
R324). -/
def storedRegions (s : State) : List (Nat × Nat) :=
  (s.nss.filter fun n => !n.zoned).flatMap fun n =>
    (n.units.foldl (fun l e => addTo (e.1 / 256) l) []).map fun r => (n.nsid, r)

/-- Send a record of the backlog (R320); the pair-wide values that an epoch record brings go before it (R110, R478). -/
def sendRecord (s : State) (r : LedgerRec) : State :=
  let s := if r.rtype = 4 then sendFrame s 0 0x30 (r.epoch :: (kvGet [] r.epoch s.dict.epochs).flatMap fun e => [e.1, e.2])
    else s
  sendFrame s 0 0x11 [recImage r]

/-- A fork report at the lead (R318, R320, R324): the fork point of a replaced lead is the one recorded at promotion;
the attach frame goes out with the live point, and the backlog follows without data. A new twin, and one whose fork
point lies below the ledger floor, takes a state transfer. -/
def execForkReport (h : FrameHdr) (forkPoint appliedHead : Nat) (s : State) : Host.Outcome State Fault Refusal :=
  .next (receive s h fun s =>
    if pairRole s ≠ 1 ∨ pairPhase s ≠ 1 then s
    else
      let fork := if s.pair.promoted then od s 0x5000 0x07 else Nat.min forkPoint appliedHead
      let live := s.adm.nextAsn
      let transfer := s.pair.newTwin || decide (fork + 1 < s.adm.floor)
      let fork := if transfer then live - 1 else fork
      let counters := s.rings.flatMap fun e => [e.1, e.2.c]
      let s := { s with pair.newTwin := false, pair.regions := if transfer then storedRegions s else s.pair.regions }
      let s := sendFrame (odSet s 0x5020 0x02 0 0) 0 0x04
        ([1, fork, live, s.rings.length] ++ counters ++ [s.pair.regions.length] ++
          (s.pair.regions.flatMap fun e => [e.1, e.2]) ++ if transfer then transferBody s else [])
      let s := (s.adm.recs.filter fun l => decide (fork < l.r.asn)).foldl (fun s l => sendRecord s l.r) s
      setPhase (odSet s 0x5000 0x08 0 live) 2)

/-- A forced-reset frame of the lead, in the session and at the pair epoch (R536). -/
def execForcedResetFrame (h : FrameHdr) (case : Nat) (s : State) : Host.Outcome State Fault Refusal :=
  .next (receive s h fun s =>
    if pairRole s ≠ 2 ∨ h.epoch ≠ pairEpoch s then s
    else
      let s := odSet s 0xA000 0x08 0 case
      raise { s with health.savedOd := kvPut 0 (odKey 0xA000 0x08 0) case s.health.savedOd } 5)

/-- A power-loss notice (R308): as though PAIR_HB_IN were absent and the wait had passed. On a cascade port the link
is lost with its end. -/
def noticeFromTwin (s : State) : State :=
  let role := pairRole s
  let s := linkDown s
  if role = 1 then goSolo s else if role = 2 then promote s else s

/-! Roots and key switches (R304, R305, R399). -/

/-- The pair data-key root (R304, R305). -/
def execPairRootTransfer (h : FrameHdr) (root : Nat) (s : State) : Host.Outcome State Fault Refusal :=
  .next (receive s h fun s =>
    if pairRole s ≠ 2 ∧ !s.ciph.erased then s
    else { s with ciph.root := some root, ciph.stored := some root, pair.twinRoot := some root, ciph.erased := false })

/-- A follower's rotation begins (R398, R399). -/
def switchKeys (s : State) (e : Nat × Nat × Nat × Nat) : State :=
  let (nsid, asn, generation, salt) := e
  match ns? s nsid with
  | none => s
  | some n =>
    let r : Rotation := { oldGen := n.gen, newGen := generation, oldSalt := n.salt, switchAsn := asn
                          left := oldZones s n n.gen, pages := [] }
    journal (setNs s { n with rot := some r, gen := generation, salt := salt }) 11 [0, n.gen, generation, nsid]

/-- The follower applies a switch when it applies its ASN (R399): the record at that ASN finds the new generation. -/
def dueSwitches (s : State) : State :=
  let due := s.pair.switches.filter fun e => decide (e.2.1 ≤ s.adm.nextAsn)
  due.foldl switchKeys { s with pair.switches := s.pair.switches.filter fun e => decide (s.adm.nextAsn < e.2.1) }

/-- The switch ASN of a rotation (R399). -/
def execKeySwitchAsnFrame (h : FrameHdr) (nsid asn generation salt : Nat) (s : State) :
    Host.Outcome State Fault Refusal :=
  .next (receive s h fun s =>
    if pairRole s ≠ 2 then s
    else dueSwitches { s with pair.switches := s.pair.switches ++ [(nsid, asn, generation, salt)] })

/-! Admission and records (R31, R299, R309, R312, R320). -/

/-- A follower's admission request crosses into the lead's fabric and goes to its admission point (R299, R309). -/
def execAdmissionRequest (h : FrameHdr) (op : IoOp) (c : IoCmd) (index generation : Nat) (s : State) :
    Host.Outcome State Fault Refusal :=
  .next (receive s h fun s =>
    if pairRole s ≠ 1 ∨ pairPhase s < 2 then s
    else match ns? s c.nsid with
      | none => s
      | some n =>
        let (s, c) := passCrossing s 1 c
        let k : Cmd := { id := s.host.nextId, op := op, io := c, gen := generation, index := index + 2 ^ 23, origin := 1
                         zone := (n.zoneOf c.slba).getD 0, zonesLeft := if c.selectAll then n.zones else [] }
        holdCmd { s with host.nextId := s.host.nextId + 1 } k)

/-- A status that check 7 gives: the command changed nothing but a zone's entry to Read Only (R57, R85). -/
def check7Fail (st : Nat) : Bool :=
  [stField, stCapacity, stPreserve, stBoundary, stFull, stReadOnly, stOffline, stInvalidWrite, stTooManyActive,
   stTooManyOpen, stTransition].contains st

def actOf : Nat → ZoneAct
  | 1 => .closeZ | 2 => .finishZ | 3 => .openZ | 4 => .resetZ | _ => .offlineZ

/-- Mark a zone on the returning twin (R319). -/
def markBack (s : State) (z off : Nat) : State :=
  let v := zone s z
  setZone s z { v with marked := some (match v.marked with | some c => Nat.min c off | none => off) }

/-- Apply one record's change to its zone (R31, R320). Cells of a record below the live point are pending. -/
def applyZone (s : State) (r : LedgerRec) : State :=
  let back := decide (r.asn < od s 0x5000 0x08)
  match ns? s r.nsid with
  | none => s
  | some n =>
    let z := r.zone
    let s := setZone s z { zone s z with lastAdm := r.asn }
    if r.rtype = 2 then closeZoneAt s z
    else if check7Fail r.status then
      if r.stateAfter = 0xD ∧ (zone s z).st ≠ .readOnly then
        reliability (zoneChanged (enterReadOnly s z r.asn) n.nsid (n.startOf z)) n.nsid
      else s
    else if r.opcode = 0x79 then
      let a := actOf r.action
      let s := applySend s n z r.asn a
      if back ∧ (a = .resetZ ∨ a = .offlineZ) then markBack s z 0 else s
    else
      let off := (zone s z).wp / n.bpu
      let s := advance s n z r.asn r.blocks back
      if back then markBack s z off else s

/-- Put the lead's values in force at its epoch record (R110): a die script load among them starts. -/
def takeValues (s : State) (l : List (Nat × Nat)) : State :=
  let s := l.foldl (fun s e =>
    { s with dict.od := odPutKey e.1 e.2 s.dict.od, dict.durable := odPutKey e.1 e.2 s.dict.durable }) s
  if (l.any fun e => e.1 == odKey 0x3200 0x02 0) ∧ od s 0x3200 0x02 ≠ 0 then
    startLoad (setGeometry s (od s 0x3200 0x01) (od s 0x3200 0x02)) (od s 0x3200 0x01) (od s 0x3200 0x02)
  else s

/-- Take a record of the lead at the next ASN: its change, and the record itself. -/
def applyRecord (s : State) (r : LedgerRec) : State :=
  let s := match r.rtype with
    | 4 =>
      let before := s
      let s := takeValues s (s.dict.waitEpoch.headD [])
      let s := extend (odSave { s with dict.waitEpoch := s.dict.waitEpoch.drop 1 } 0x2100 0x06 0 r.epoch) 13 r.body
      leavePreserve before (reformat before s)
    | 5 =>
      let s := { s with adm.spent := s.adm.spent || r.asn == 2 ^ 64 - 1 }
      if s.adm.preserve then s else preserveBegins s r.body
    | _ => applyZone s r
  let data := r.rtype == 1 && (r.opcode == 0x01 || r.opcode == 0x7D) && !check7Fail r.status &&
    decide (od s 0x5000 0x08 ≤ r.asn)
  let s := addRecord s r (!data) 0
  { s with adm.appliedHead := r.asn }

/-- The command of this twin's own port that a record answers. -/
def answered (s : State) (r : LedgerRec) : Option Cmd :=
  if r.rtype ≠ 1 then none
  else s.host.cmds.find? fun k => s.pair.asked.contains k.id && k.io.fn == r.fn && k.io.sq == r.queue &&
    k.io.cid == r.cid && k.io.nsid == r.nsid && opCode k.op == r.opcode

/-- What a record means for the commands (R309, R312): the own command goes on, another's data is awaited, and a
record without data is acknowledged at once. -/
def afterRecord (s : State) (r : LedgerRec) (differ : Bool) : State :=
  let data := r.rtype == 1 && (r.opcode == 0x01 || r.opcode == 0x7D) && !check7Fail r.status &&
    decide (od s 0x5000 0x08 ≤ r.asn)
  match answered s r with
  | some k =>
    let s := if k.io.selectAll then s else { s with pair.asked := s.pair.asked.filter fun i => i != k.id }
    let k := { k with asns := k.asns ++ [r.asn], zone := r.zone, status := if k.status = 0 then r.status else k.status
                      acked := !data
                      dw0 := if k.op = IoOp.zoneAppend ∧ r.status = 0 then r.lba % 2 ^ 32 else k.dw0
                      dw1 := if k.op = IoOp.zoneAppend ∧ r.status = 0 then r.lba / 2 ^ 32 else k.dw1 }
    if data then setCmd s { k with stage := .waitData }
    else
      let k := { k with zonesLeft := (k.zonesLeft.dropWhile fun z => z != r.zone).drop 1
                        unmapLeft := if k.op = IoOp.zoneSend .resetZ ∧ (zone s r.zone).unmapDue
                                     then k.unmapLeft ++ [r.zone] else k.unmapLeft }
      sendProgress (setCmd s k) k
  | none =>
    let own := (r.fn, r.queue, r.cid)
    if r.rtype = 1 ∧ s.pair.dropped.contains own then
      let s := { s with pair.dropped := s.pair.dropped.erase own }
      if data then
        let s := (s.adm.recs.filter fun l => l.r.asn == r.asn).foldl (fun s l => settleRecord s l stSqDeletion) s
        tellStopped s r.asn r.zone stSqDeletion
      else sendFrame s 0 0x02 [r.asn]
    else if data then
      let io : IoCmd := { fn := r.fn, sq := r.queue, cid := r.cid, nsid := r.nsid, slba := r.lba, nlb := r.blocks
                          cross := 0, dptr := 0, cqAddr := 0, pasid := 0, badField := false, selectAll := false
                          dspec := none, ilbrt := 0, piRemap := false, lbat := 0, lbatm := 0, host := 0 }
      let k : Cmd := { id := s.host.nextId, op := .write, io := io, origin := 1, stage := .waitData, zone := r.zone
                       asns := [r.asn] }
      holdCmd { s with host.nextId := s.host.nextId + 1 } k
    else sendFrame s 0 0x02 ([r.asn] ++ if differ then [1] else [])

/-- A record already held takes the lead's final status and check (R111); a record that still waits for data from the
lead keeps its status for then. -/
def takeFinal (s : State) (r : LedgerRec) : State :=
  if dataHeld s r.asn then
    let put (l : LRec) : LRec :=
      if l.r.asn = r.asn then { l with sealed := true, r := { l.r with status := r.status, dataCheck := r.dataCheck } }
      else l
    copyLedger { s with adm.recs := s.adm.recs.map put }
  else
    let put (k : Cmd) : Cmd := if k.origin = 1 ∧ k.asns.contains r.asn then { k with status := r.status } else k
    { s with host.cmds := s.host.cmds.map put }

/-- A Select All of this twin's own port ends once none of its zones is left in scope here (R66, log entry 115). -/
def settleAsked (s : State) : State :=
  (s.host.cmds.filter fun k => s.pair.asked.contains k.id && k.io.selectAll && (trimZones s k).isEmpty).foldl
    (fun s k => sendProgress s k) s

/-- Ledger records of the lead are applied in ASN order (R31, R320). -/
def execLedgerRecords (h : FrameHdr) (recs : List LedgerRec) (s : State) : Host.Outcome State Fault Refusal :=
  .next (receive s h fun s =>
    if pairRole s ≠ 2 ∨ pairPhase s < 2 then s
    else settleAsked (recs.foldl (fun s r =>
      if r.asn = s.adm.nextAsn then
        let s := dueSwitches (withUndo (fun s => applyRecord s r) s)
        let v := zone s r.zone
        let zs := match ns? s r.nsid with | some n => n.startOf r.zone | none => 0
        let differ := decide (r.rtype ≤ 2) && (v.st.code != r.stateAfter || wpShown zs v != r.wpAfter)
        afterRecord s r differ
      else if r.asn < s.adm.nextAsn then takeFinal s r
      else s) s))

/-! Data between the twins (R301, R313, R321, R322). -/

/-- Blocks of a unit of a zone or of a namespace, with its key generation. -/
def unitBlocks (s : State) (key u : Nat) : List Nat × Nat :=
  match nsOfZone s key with
  | some n => (kvRun 0 (u * n.bpu) n.bpu (zone s key).blocks, (kvGet {} u (zone s key).units).keyGen)
  | none => match ns? s key with
    | some n => (kvRun 0 (u * n.bpu) n.bpu n.blocks, (kvGet {} u n.units).keyGen)
    | none => ([], 0)

/-- Send a stored unit in a fetch response or resync data frame (R299, R321). -/
def sendUnit (s : State) (rid key u : Nat) : State :=
  let (b, g) := unitBlocks s key u
  sendFrame s 0 0x21 ([rid, key, u, g] ++ b)

/-- The twin asks for stored units (R322). -/
def execFetchRequest (h : FrameHdr) (zoneNo unit count : Nat) (s : State) : Host.Outcome State Fault Refusal :=
  .next (receive s h fun s => (List.range count).foldl (fun s i => sendUnit s 0 zoneNo (unit + i)) s)

/-- A conventional order frame (R313): the lead assigns the sequence and answers; the follower takes it. -/
def execConventionalOrder (h : FrameHdr) (id nsid lba blocks seq : Nat) (s : State) : Host.Outcome State Fault Refusal :=
  .next (receive s h fun s =>
    if pairRole s = 1 then
      let q := s.win.convSeq
      let s := { s with win.convSeq := q + 1, win.convOrder := s.win.convOrder ++ [(q, nsid, lba, blocks)] }
      sendFrame s 0 0x13 [id, nsid, lba, blocks, q]
    else
      let s := { s with win.convSeq := Nat.max s.win.convSeq (seq + 1)
                        win.convOrder := s.win.convOrder ++ [(seq, nsid, lba, blocks)] }
      match s.host.cmds.find? fun k => k.id == id && k.stage == .order with
      | some k => setCmd s { k with stage := .waitData, convSeq := some seq }
      | none => s)

/-- Place the blocks of a zone's unit in the window (R255, R321). -/
def placeZoneUnit (s : State) (z u gen : Nat) (content : List Nat) : State :=
  match nsOfZone s z with
  | none => s
  | some n =>
    let v := zone s z
    let e := kvGet {} u v.units
    let s := setZone s z { v with blocks := kvPutRun 0 (u * n.bpu) (content.take n.bpu) v.blocks
                                  units := kvPut {} u { e with pending := false, lost := false, keyGen := gen } v.units }
    match e.loc with
    | .window _ => holdUnits s z 0 [u]
    | _ => s

/-- The run of a range's blocks that lies in a unit: its first block and their count. -/
def runIn (bpu lba nlb u : Nat) : Nat × Nat :=
  let first := Nat.max lba (u * bpu)
  (first, Nat.min (lba + nlb) (u * bpu + bpu) - first)

/-- Place a conventional unit of a write of the twin, or of a resync under sequence 0: the write's own blocks, each
unless a later sequence has written it (R114, R313). -/
def placeConvUnit (s : State) (nsid u seq : Nat) (content : List Nat) : State :=
  match ns? s nsid with
  | none => s
  | some n =>
    let e := kvGet {} u n.units
    let r := match s.win.convOrder.find? fun x => x.1 == seq && x.2.1 == nsid with
      | some x => runIn n.bpu x.2.2.1 x.2.2.2 u
      | none => (u * n.bpu, n.bpu)
    let s := if e.held.isNone then
        setFn { s with win.used := s.win.used + 1 } 0 { fnc s 0 with winUnits := (fnc s 0).winUnits + 1 } else s
    let m := putConv n seq r.1 ((content.drop (r.1 - u * n.bpu)).take r.2)
    setNs s { m with units := kvPut {} u { e with loc := .window none, lost := false, asn := Nat.max seq e.asn
                                                  keyGen := n.gen, held := some (e.held.getD 0) } n.units
                     old := keepOld n [u] }

/-- The command whose data a write data frame of a zone brings. -/
def dataCmd (s : State) (asn key u : Nat) : Option Cmd :=
  s.host.cmds.find? fun k => k.stage == .waitData &&
    ((asn != 0 && k.asns.contains asn) ||
     (k.origin == 2 && k.io.nsid == key && match ns? s key with
        | some n => (unitsOf n.bpu k.io.slba k.io.nlb).contains u
        | none => false))

/-- Place the blocks of a zoned write that a frame's unit carries: only those in the write's range. From a master the
unit counts from the LBA the command names (R331), from the twin in the zone. -/
def placeCmdBlocks (s : State) (n : Ns) (k : Cmd) (u : Nat) (content : List Nat) : State :=
  let z := k.zone
  let off := n.offset (cmdLba k)
  let first := if k.origin = 2 then k.io.slba else off
  let r := runIn n.bpu first k.io.nlb u
  let lo := off + (r.1 - first)
  let us := unitsOf n.bpu lo r.2
  let v := zone s z
  let put (m : Kv UnitSt) (x : Nat) : Kv UnitSt :=
    kvPut {} x { kvGet {} x m with pending := false, lost := false, keyGen := v.keyGen } m
  if r.2 = 0 then s
  else
    let s := setZone s z { v with blocks := kvPutRun 0 lo ((content.drop (r.1 - u * n.bpu)).take r.2) v.blocks
                                  units := us.foldl put v.units }
    holdUnits s z k.io.fn us

/-- A lead checks the protection information of a write that its follower fetched, as the follower does (R14, R111): a
write that fails it stores zeroes. -/
def checkHere (s : State) (k : Cmd) (blocks : List Nat) : State × Cmd × List Nat :=
  match (if k.origin = 1 ∧ pairRole s = 1 then ns? s k.io.nsid else none) with
  | none => (s, k, blocks)
  | some n =>
    match piFails n k.io (blocks.map n.flip) with
    | none => (s, k, blocks)
    | some f =>
      let zeros := List.replicate k.io.nlb 0
      let v := zone s k.zone
      (setZone s k.zone { v with blocks := kvPutRun 0 (n.offset (cmdLba k)) zeros v.blocks },
        { k with status := stPi f }, zeros)

/-- The last frame of a write's data is here (R301, R312, R332): at a twin the record is sealed with the check the
frame carries, and the holding acknowledgement goes back. -/
def dataComplete (s : State) (k : Cmd) (asn check : Nat) : State :=
  let n? := ns? s k.io.nsid
  let blocks := match n? with
    | some n => kvRun 0 (n.offset (cmdLba k)) k.io.nlb (zone s k.zone).blocks
    | none => []
  if k.origin = 2 then
    setCmd s { k with dataHere := true, stage := .dataIn, data := blocks, check := some check }
  else
    let (s, k, kept) := checkHere s k blocks
    let s := feedReads (setCmd s { k with dataHere := true, acked := true, stage := .dataIn }) k kept
    let lbaf := match n? with | some n => n.lbaf | none => 0
    let s := sealRecord s asn k.status (if kept = blocks then check else dataCheck lbaf kept)
    let s := if k.origin = 1 then dropCmd s k.id else s
    sendFrame s 0 0x02 [asn]

/-- A write whose data does not come (R359, R404, log entry 131): its record is settled with the status that the frame carries,
and a conventional write leaves the order. -/
def dataStopped (s : State) (asn status : Nat) : State :=
  if 2 ^ 63 ≤ asn then { s with win.convOrder := s.win.convOrder.filter fun e => e.1 != asn - 2 ^ 63 }
  else
    let s := (s.adm.recs.filter fun l => l.r.asn == asn && !l.sealed).foldl (fun s l => settleRecord s l status) s
    let gone (k : Cmd) : Bool := k.origin == 1 && k.asns.contains asn
    settleReads (sendFrame { s with host.cmds := s.host.cmds.filter fun k => !gone k } 0 0x02 [asn])

/-- A write data frame (R299, R301, R313, R331, R332); its units pass the path code on their way in (R13, R504). -/
def execWriteDataFrame (h : FrameHdr) (asn zoneNo unit check : Nat) (c : Carried) (lastFrame : Bool)
    (s : State) : Host.Outcome State Fault Refusal :=
  let go (s : State) : State :=
    if c.content = [] then trySeparate (dataStopped s asn check)
    else if 2 ^ 63 ≤ asn then
      let s := placeConvUnit s zoneNo unit (asn - 2 ^ 63) c.content
      if lastFrame then
        let left := s.win.convOrder.filter fun e => e.1 != asn - 2 ^ 63
        sendFrame { s with win.convOrder := left } 0 0x02 [asn]
      else s
    else match dataCmd s asn zoneNo unit with
      | none => s
      | some k =>
        let s := match ns? s k.io.nsid with
          | some n => placeCmdBlocks s n k unit c.content
          | none => s
        if lastFrame then trySeparate (dataComplete s k asn check) else s
  let go (s : State) : State := sramPath (go s) c.path
  .next (if casPos s ≠ 0 ∧ (member s 1).linkUp ∧ !s.pair.linkUp then go s else receive s h go)

/-- The media unit that a twin fetch was for is here: counted, and the unit is queued for an urgent rewrite (R218,
R226). -/
def twinServed (s : State) (r : RdUnit) : State :=
  let s := odBump s 0x4000 0x10
  if r.slc then s else queueRewrite s (facetDie r.group r.facet) r.row true

/-- Blocks fetched from a twin or a member reach the read that waits for them (R322, R333). -/
def fillRead (s : State) (k : Cmd) (u : Nat) (content : List Nat) : State :=
  let bpu := match ns? s k.io.nsid with | some n => n.bpu | none => 1
  let snap := k.snap.zipIdx.map fun (v, i) =>
    let l := k.io.slba + i
    if v.isNone ∧ l / bpu = u then some (content.getD (l % bpu) 0) else v
  tryRead (setCmd s { k with snap := snap, need := k.need.filter fun x => x != u }) k.id

/-- Answer of a fetch for a media read: success, or the failure step (R218, R220). -/
def twinAnswer (s : State) (r : RdUnit) (content : List Nat) : State :=
  if content = [] then unitFailed s r else unitArrived (twinServed s r) r

/-- The unit stands under another key generation at the twin (R400). -/
def otherGen (s : State) (key u generation : Nat) : Bool :=
  generation != match nsOfZone s key with
    | some _ => (zone s key).keyGen
    | none => match ns? s key with
      | some n => (kvGet {} u n.units).keyGen
      | none => generation

/-- A fetch does not apply to a unit whose generations differ (R400): the read fails with Unrecovered Read Error (R220, log
entry 132). -/
def keyDiffers (s : State) (k : Cmd) : State :=
  finishCmd { s with reads := s.reads.filter fun r => r.rid != k.id } { k with status := stUnrecovered }

/-- A fetch response or resync data frame (R321, R322): rid names the read that asked, 0 for data to place. A unit whose
buffer fails its path code is fetched once more (R504). -/
def execFetchResponse (h : FrameHdr) (rid zoneNo unit : Nat) (c : Carried) (generation : Nat)
    (s : State) : Host.Outcome State Fault Refusal :=
  let go (s : State) : State :=
    let s := sramPath s c.path
    if SramPath.bad c.path then sendFrame s 0 0x12 [rid, zoneNo, unit]
    else if rid ≠ 0 then
      match rdUnit? s rid unit with
      | some r => if r.mode = .twin then twinAnswer s r (if otherGen s zoneNo unit generation then [] else c.content) else s
      | none => match cmd? s rid with
        | some k => if k.stage ≠ .forwarded ∧ otherGen s zoneNo unit generation then keyDiffers s k
          else fillRead s k unit c.content
        | none => s
    else if c.content = [] then s
    else
      let s := odBump s 0x5020 0x02 0 4096
      if (nsOfZone s zoneNo).isSome then placeZoneUnit s zoneNo unit generation c.content
      else placeConvUnit s zoneNo unit 0 c.content
  .next (if casPos s = 0 ∧ (cmd? s rid).any (fun k => k.stage == .forwarded) ∧ !s.pair.linkUp then go s
    else receive s h go)

/-! Resync (R317, R319 to R323). -/

/-- Every backlog record is applied: the twin joins, with zones still to copy (R314, R317). -/
def execCatchingUpDone (s : State) : Host.Outcome State Fault Refusal :=
  .next (if pairRole s = 2 ∧ pairPhase s = 2 ∧ od s 0x5000 0x08 ≤ s.adm.nextAsn then setAna (setPhase s 3) 2 else s)

/-- Units of a zone still to copy. -/
def pendingUnits (s : State) (z : Nat) : List Nat :=
  (zone s z).units.filterMap fun e => if e.2.pending || e.2.lost then some e.1 else none

/-- Units of a conventional region of 1 MiB. -/
def regionUnits (r : Nat) : List Nat := (List.range 256).map (r * 256 + ·)

/-- Copy one marked zone, the lowest first, or a conventional region once no zone is left (R321, R323): the lead sends
the units, the returning twin asks for what it lacks, and a zone whose units are there is in step. -/
def execResyncZoneCopy (z : Nat) (s : State) : Host.Outcome State Fault Refusal :=
  .next (if pairPhase s ≠ 3 ∨ !s.pair.linkUp then s
    else if (markedZones s).min? = some z then
      let us := if pairRole s = 1 then
          ((zone s z).units.map (·.1)).filter fun u => decide ((zone s z).marked.getD 0 ≤ u) else pendingUnits s z
      if pairRole s = 1 then
        setZone (us.foldl (fun s u => odBump (sendUnit s 0 z u) 0x5020 0x02 0 4096) s) z { zone s z with marked := none }
      else if us = [] then setZone s z { zone s z with marked := none }
      else us.foldl (fun s u => sendFrame s 0 0x12 [0, z, u]) s
    else match s.pair.regions with
      | (nsid, r) :: rest =>
        if markedZones s ≠ [] then s
        else
          let s := { s with pair.regions := rest }
          if pairRole s = 1 then (regionUnits r).foldl (fun s u => odBump (sendUnit s 0 nsid u) 0x5020 0x02 0 4096) s
          else (regionUnits r).foldl (fun s u => sendFrame s 0 0x12 [0, nsid, u]) s
      | [] => s)

/-- The last marked zone and region are copied: the twin is in step (R314, R317). -/
def execZoneResyncDone (s : State) : Host.Outcome State Fault Refusal :=
  .next (if pairRole s = 2 ∧ pairPhase s = 3 ∧ markedZones s = [] ∧ s.pair.regions = [] then
      loupe (setAna (setPhase s 4) 1) 317 0x50 2 []
    else s)

end Sys2Proof.Machine
end

