-- ==== Sys2Proof/Machine/Cascade.lean ====
section
/-! DEFINITION. The cascade, and what the Mirror and cascade links share: retransmission, retraining, key updates and
losses (R300, R303, R308, R327 to R339). -/

namespace Sys2Proof.Machine

/-- Post an ANA Change event for a cascade position whose state changes (R314, R335). -/
def anaChanged (s : State) : State := (enabledFns s).foldl (fun s n => aen s n 2 3) s

/-- A member is lost (R335): its outstanding commands end with ANA Inaccessible. -/
def memberLost (s : State) (p st : Nat) : State :=
  let tags := (member s p).sent.map (·.2)
  let s := odSet (setMember s p { serial := (member s p).serial }) 0x5110 0x01 p st
  let s := { s with ciph.sessions := s.ciph.sessions.filter fun b => b != 4 + p }
  let s := if st = 0 then odBump s 0x5110 0x02 p else s
  let s := (s.host.cmds.filter fun k => tags.contains k.id).foldl
    (fun s k => finishCmd s { k with status := stAnaInaccessible }) s
  anaChanged (loupe s 335 0x51 5 [p])

/-- A member loses its master (R338): it stops taking host work, and goes on serving its pair. -/
def masterGone (s : State) : State :=
  let waiting (k : Cmd) : Bool := k.origin == 2 && k.asns.isEmpty
  let s := dropLinkSets (setMember s 1 {}) false
  { s with casc.masterLost := true, host.cmds := s.host.cmds.filter fun k => !waiting k }

/-- A cascade link is lost at either end (R335, R338). -/
def cascadeLost (s : State) (port : Nat) : State :=
  if !(member s port).linkUp then s
  else if casPos s = 0 then memberLost s port 0
  else if port = 1 then masterGone s else s

/-- Ten keepalive periods without a frame, or a lost cascade link (R306, R328, R335). -/
def execCascadeLinkLoss (port : Nat) (s : State) : Host.Outcome State Fault Refusal := .next (cascadeLost s port)

/-- A power-loss notice (R258, R308, R335). -/
def execPowerLossNotice (port : Nat) (s : State) : Host.Outcome State Fault Refusal :=
  .next (if port = 0 then (if s.pair.linkUp then noticeFromTwin s else s) else cascadeLost s port)

/-- A fast retrain has not completed within 150 µs: a link loss (R300, R306). -/
def execFastRetrainTimeout (port : Nat) (s : State) : Host.Outcome State Fault Refusal :=
  .next (if port = 0 then (if s.pair.retraining then loupe (linkLost s) 225 0x50 5 [0] else s)
    else if (member s port).retraining then cascadeLost s port else s)

/-- A fast retrain is done: unacknowledged frames are sent again in order (R300). -/
def execFastRetrainDone (port : Nat) (s : State) : Host.Outcome State Fault Refusal :=
  .next (if port = 0 then
      if s.pair.retraining then { s with pair.retraining := false, pair.out := s.pair.out ++ s.pair.unacked } else s
    else
      let m := member s port
      if m.retraining then { setMember s port { m with retraining := false } with pair.out := s.pair.out ++ m.unacked }
      else s)

/-- A received frame whose check or tag is wrong is discarded and asked for again (R223, R300). -/
def execFrameCheckFailure (port seq : Nat) (s : State) : Host.Outcome State Fault Refusal :=
  let up := if port = 0 then s.pair.linkUp else (member s port).linkUp
  .next (if !up then s
    else
      let s := loupe (odBump s 0x4000 0x0D) 225 (if port = 0 then 0x50 else 0x51) 1 [port, seq]
      sendFrame s port 0x03 [if port = 0 then s.pair.rxSeq else (member s port).rxSeq, seq])

/-- Every 2^32 frames the SPDM requester runs KEY_UPDATE: the lower serial on the Mirror link, the master on a cascade
link (R302, R303, R328). The new secret is a free value (log entry 130). -/
def execKeyUpdate (port : Nat) (s : State) : Host.Outcome State Fault Refusal :=
  .next (if port = 0 then
      let due := Nat.max s.pair.txSeq s.pair.rxSeq / 2 ^ 32
      if s.pair.session ∧ Config.serial < od s 0x5000 0x04 ∧ s.pair.keyUpdates < due then
        sendFrame (useFree { s with pair.keyUpdates := s.pair.keyUpdates + 1, pair.secret := freeVal s }) 0 0x05 [0xE9]
      else s
    else
      let m := member s port
      if m.linkUp ∧ casPos s = 0 ∧ m.keyUpdates < Nat.max m.txSeq m.rxSeq / 2 ^ 32 then
        sendFrame (setMember s port { m with keyUpdates := m.keyUpdates + 1 }) port 0x05 [0xE9]
      else s)

/-- A member takes a forwarded command as though it came on its own queues (R331, R332). -/
def execForwardedCommand (h : FrameHdr) (op : IoOp) (c : IoCmd) (index fn generation cls _first check tag : Nat)
    (s : State) : Host.Outcome State Fault Refusal :=
  let m := member s 1
  .next (if casPos s = 0 ∨ !m.linkUp ∨ h.seq ≤ m.rxSeq ∨ !inService s then s
    else
      let s := setMember s 1 { m with rxSeq := h.seq, missed := 0 }
      let (s, c) := passCrossing s 2 { c with fn := fn }
      let k : Cmd := { id := s.host.nextId, op := op, io := c, gen := generation, index := index
                       origin := 2, tag := tag, cls := cls, check := if check = 0 then none else some check }
      let s := { s with host.nextId := s.host.nextId + 1 }
      match ns? s c.nsid with
      | none => finishCmd s { k with status := stNamespace }
      | some n =>
        if n.zoned && admits op true then toPoint s n k
        else match op with
          | .read | .compare | .verify => serveRead s n k
          | .write => convWrite s k
          | .writeZeroes =>
            if pairRole s ≠ 0 then convWrite s k
            else if s.adm.preserve then finishCmd s { k with status := stPreserve }
            else finishCmd (convClear s n.nsid c.slba c.nlb) k
          | .zoneReport => finishCmd s k (.zones (zoneDescs s n c.slba))
          | _ => finishCmd s k)

/-- Every part of a forwarded command has ended (R333, R334). -/
def partsEnded (s : State) (k : Cmd) : State :=
  if k.stage = .reading ∨ k.op = .read ∨ k.op = .compare ∨ k.op = .verify then
    if k.status ≠ 0 then finishCmd { s with reads := s.reads.filter fun r => r.rid != k.id } k else tryRead s k.id
  else if (ns? s k.io.nsid).any fun n => n.ending.any fun e => e.cmd == k.id then s
  else if k.io.selectAll then sendProgress s k
  else if k.op = .zoneReport ∧ k.status = 0 then reportDone s k
  else finishCmd s k (if k.data = [] ∨ k.status ≠ 0 then .none else .slots k.data)

/-- A member's completion reaches the master, with the zone descriptors or ledger slots that it answers (R333, R334): a
command of several parts ends with the status of the first failing part in LBA order, which is the order of the tags. -/
def execMemberCompletion (position tag status dw0 dw1 : Nat) (ended : MemberEnd) (s : State) :
    Host.Outcome State Fault Refusal :=
  let m := member s position
  .next (match m.sent.find? fun e => e.1 == tag with
    | none => s
    | some e =>
      let s := setMember s position { m with sent := m.sent.filter fun x => x.1 != tag, missed := 0 }
      let s := odSet s 0x5110 0x04 position ended.sealedHead
      match cmd? s e.2 with
      | none => s
      | some k =>
        let first := status != 0 && (k.status == 0 || decide (tag < k.tag))
        let k := { k with status := if first then status else k.status, tag := if first then tag else k.tag
                          dw0 := if dw0 = 0 then k.dw0 else dw0, dw1 := if dw1 = 0 then k.dw1 else dw1
                          data := k.data ++ ended.data }
        let s := setCmd s k
        if partsOut s k.id then s else partsEnded s k)

/-- A returning member passes its checks, or stays on probation (R336). -/
def execMemberProbationPass (position : Nat) (configOk extentsOk frameClean : Bool) (s : State) :
    Host.Outcome State Fault Refusal :=
  .next (if casPos s ≠ 0 ∨ od s 0x5110 0x01 position ≠ 1 ∨ !(member s position).linkUp then s
    else if configOk ∧ extentsOk ∧ frameClean then anaChanged (odSet s 0x5110 0x01 position 2)
    else loupe s 336 0x51 5 [position])

/-- Remove a member for good (R337). -/
def removeMember (s : State) (position : Nat) : State :=
  if casPos s ≠ 0 ∨ position = 0 ∨ 3 < position ∨ od s 0x5110 0x01 position = 3 then s
  else memberLost s position 3

/-- A committed write of a position to OD 0x5100:04 removes that member (R337). -/
def execMemberRemove (position : Nat) (s : State) : Host.Outcome State Fault Refusal := .next (removeMember s position)

end Sys2Proof.Machine
end

