-- ==== Sys2Proof/Machine/Submission.lean ====
section
/-! DEFINITION. Submission: fetched slots, token buckets and weighted fair queueing (R347 to R351, R355). -/

namespace Sys2Proof.Machine

/-- The command takes the write slot (R347). -/
def writeSlot : IoOp → Bool
  | .write | .writeZeroes | .zoneAppend | .zoneSend _ | .zoneSetExt | .flush => true
  | _ => false

/-- Cost in units (R348). -/
def cost (s : State) (op : IoOp) (c : IoCmd) : Nat :=
  match op with
  | .read | .compare | .verify | .write | .writeZeroes | .zoneAppend =>
    ceilDiv (c.nlb * blockBytes (match ns? s c.nsid with | some n => n.lbaf | none => 0)) 4096
  | _ => 1

/-- Read-slot commands of a function that are outstanding (R347, R349). -/
def readsOut (s : State) (n : Nat) : Nat :=
  (s.host.cmds.filter fun k => k.io.fn == n && k.origin == 0 && !writeSlot k.op).length +
  (s.host.granted.filter fun g => g.io.fn == n && !writeSlot g.op).length

/-- The function fetches and is granted: Online, and not paused (R349, R368). -/
def fetches (s : State) (n : Nat) : Bool := accepts s n && od s 0x6210 0x05 n == 0

/-- The read and write bucket allow a slot (R349): a rate of 0 always does. -/
def bucketOk (s : State) (n : Nat) (wr : Bool) : Bool :=
  let f := fnc s n
  if wr then od s 0x6200 0x03 n == 0 || decide (0 ≤ f.wrTok) else od s 0x6200 0x01 n == 0 || decide (0 ≤ f.rdTok)

def readRoom (s : State) (n : Nat) : Bool := decide (readsOut s n < od s 0x6210 0x03 n)

/-- A slot is eligible (R349). -/
def eligible (s : State) (n : Nat) (wr : Bool) : Bool :=
  fetches s n && bucketOk s n wr && (wr || readRoom s n)

/-- A slot's tag after eligibility is looked at again: taken once, dropped when eligibility is lost (R350). -/
def retagSlot (s : State) (n : Nat) (wr : Bool) (f : Fn) (sl : Slot) : Slot :=
  if eligible s n wr then
    match sl.tag with
    | some _ => sl
    | none => { sl with tag := some (Nat.max s.host.vtime f.finish +
        ceilDiv (cost s sl.op sl.io * 65536) (od s 0x6210 0x01 n)) }
  else { sl with tag := none }

/-- A contract lens's read held back by its own limits is counted once (R355). -/
def ownLimit (s : State) (n : Nat) (sl : Slot) : Bool :=
  od s 0x6210 0x02 n == 0 && (!bucketOk s n false || !readRoom s n) && !sl.waited

/-- Look at the eligibility of a function's slots again. -/
def retagFn (s : State) (n : Nat) : State :=
  let f := fnc s n
  let held := match f.rd with
    | some sl => ownLimit s n sl
    | none => false
  let rd := f.rd.map fun sl => { retagSlot s n false f sl with waited := sl.waited || held }
  let wr := f.wr.map (retagSlot s n true f)
  let s := setFn s n { f with rd := rd, wr := wr }
  if held then odBump s 0x6220 0x02 n else s

def retag (s : State) : State := (s.host.fns.map (·.1)).foldl retagFn s

/-- Entries that wait in a submission queue. -/
def Fn.waiting (f : Fn) (sq : Nat) : Nat := kvGet 0 sq f.ready

/-- A doorbell tells of so many new entries of a queue (R347); its event crosses on a toggle (R36). -/
def execSubmissionQueueDoorbell (fn : Nat) (bell : Doorbell) (s : State) : Host.Outcome State Fault Refusal :=
  .next (if accepts s fn then
      let f := fnc s fn
      raiseToggle (setFn s fn { f with ready := kvPut 0 bell.sq (f.waiting bell.sq + bell.entries) f.ready }) fn
    else s)

/-- The queue may have its head entry fetched (R40, R347): its turn goes on, or it is the rotation's choice. While one
slot is full the turn may have passed over queues whose head entry belongs to it (log entry 126). -/
def fetchTurn (f : Fn) (sq : Nat) : Bool :=
  f.waiting sq != 0 && (f.sqPtr == sq + 1 || f.rd.isSome || f.wr.isSome || rotPick f.sqPtr (f.ready.map (·.1)) == some sq)

/-- A fetched entry fills its function's free slot of its kind (R347); a paused or ineligible function fetches
nothing (R346, R368), a full slot keeps its entry, and queues take turns. -/
def execSubmissionEntryFetched (op : IoOp) (c : IoCmd) (s : State) : Host.Outcome State Fault Refusal :=
  let f := fnc s c.fn
  let full := if writeSlot op then f.wr.isSome else f.rd.isSome
  .next (if !fetches s c.fn || full || !fetchTurn f c.sq then s
    else
      let sl : Slot := { op := op, io := c, gen := curGen s c.fn, order := s.host.fetchOrder }
      let s := { s with host.fetchOrder := s.host.fetchOrder + 1 }
      let f := { f with sqPtr := c.sq + 1, ready := kvPut 0 c.sq (f.waiting c.sq - 1) f.ready }
      retagFn (setFn s c.fn (if writeSlot op then { f with wr := some sl } else { f with rd := some sl })) c.fn)

/-- One bucket after a microsecond (R349): tokens in 1/1,024 unit. -/
def refill (rate burst : Nat) (b : Int) : Int := min (burst * 1024 : Int) (b + (rate * 1024 / 1000000 : Nat))

/-- Every bucket is refilled (R349). -/
def execTokenRefill (s : State) : Host.Outcome State Fault Refusal :=
  .next (retag ((List.range 513).foldl (fun s n =>
    let f := fnc s n
    setFn s n { f with rdTok := refill (od s 0x6200 0x01 n) (od s 0x6200 0x02 n) f.rdTok
                       wrTok := refill (od s 0x6200 0x03 n) (od s 0x6200 0x04 n) f.wrTok }) s))

/-- The slot a function offers: with two eligible, the one fetched first (R350). The flag marks the write slot. -/
def offered (f : Fn) : Option (Slot × Bool) :=
  match f.rd, f.wr with
  | some r, some w =>
    if r.tag.isSome ∧ w.tag.isSome then (if r.order < w.order then some (r, false) else some (w, true))
    else if r.tag.isSome then some (r, false) else if w.tag.isSome then some (w, true) else none
  | some r, none => if r.tag.isSome then some (r, false) else none
  | none, some w => if w.tag.isSome then some (w, true) else none
  | none, none => none

/-- A slot's tag, rebased with the others (R351, log entry 96). -/
def Slot.rebase (sl : Slot) : Slot := { sl with tag := sl.tag.map fun t => t - 2 ^ 61 }

/-- R351: the virtual time and every finish tag restart when no slot waits, and are rebased at 2^62. -/
def restartTags (s : State) : State :=
  { s with host.vtime := 0, host.fns := kvMap {} (fun f => { f with finish := 0 }) s.host.fns }

def rebaseTags (s : State) : State :=
  if s.host.vtime < 2 ^ 62 then s
  else { s with host.vtime := s.host.vtime - 2 ^ 61
                host.fns := kvMap {} (fun f =>
                  { f with finish := f.finish - 2 ^ 61, rd := f.rd.map Slot.rebase, wr := f.wr.map Slot.rebase }) s.host.fns }

/-- The grant of a slot: the tag becomes F and V, and the bucket falls by the cost (R349, R350). -/
def grantSlot (s : State) (n : Nat) (sl : Slot) (wr : Bool) : State :=
  let f := fnc s n
  let tag := sl.tag.getD 0
  let k : Int := cost s sl.op sl.io * 1024
  let f := if wr then { f with wr := none, wrTok := if od s 0x6200 0x03 n = 0 then f.wrTok else f.wrTok - k }
           else { f with rd := none, rdTok := if od s 0x6200 0x01 n = 0 then f.rdTok else f.rdTok - k }
  let s := setFn s n { f with finish := tag }
  { s with host.vtime := tag, host.rrPtr := (n + 1) % 513
           host.granted := s.host.granted ++ [{ op := sl.op, io := sl.io, gen := sl.gen }] }

/-- The lens arbiter grants the eligible slot with the smallest tag (R350, R351). -/
def execLensSubmissionGrant (s : State) : Host.Outcome State Fault Refusal :=
  let s := retag s
  let offers := s.host.fns.filterMap fun e => (offered e.2).map fun o => (e.1, o)
  let tagOf (o : Nat × Slot × Bool) : Nat := o.2.1.tag.getD 0
  .next (match (offers.map tagOf).min? with
    | none => if s.host.fns.all fun e => e.2.rd.isNone && e.2.wr.isNone then restartTags s else s
    | some t =>
      match rotPick s.host.rrPtr ((offers.filter fun o => tagOf o == t).map (·.1)) with
      | none => s
      | some n => match offers.find? fun o => o.1 == n with
        | some o => retag (rebaseTags (grantSlot s n o.2.1 o.2.2))
        | none => s)

end Sys2Proof.Machine
end

