-- ==== Sys2Proof/Machine/Lenses.lean ====
section
/-! DEFINITION. Lenses: states, generations, resources, the migration write log and TDISP (R342 to R346, R353, R354,
R358 to R372, R606). -/

namespace Sys2Proof.Machine

/-! Admin statuses of NVM Express that the spec names (log entry 13). -/

def stCtrlState : Nat := 0x120
def stCtrlResources : Nat := 0x121
def stAttachLimit : Nat := 0x127
/-- Status 0x20 of R370, given for every role. -/
def stFrozen : Nat := 0x020

/-- An admin command is accepted (R412); those of the PF alone fail from a lens with Invalid Command Opcode. -/
def withAdmin (s : State) (a : Adm) (pfOnly : Bool) (f : State → State) : State :=
  if !accepts s a.fn then s
  else if pfOnly && a.fn != 0 then adminDone s a stOpcode
  else f s

/-! The end of a function's work (R359, R360, R606). -/

def requesterOf (n : Nat) : Requester := if n = 0 then .pf else .lens n

/-- A command of the function that has not reached check 7: it has no ASN, and waits at its point, for the lead's order
or for a conventional write's data. -/
def beforePoint (n : Nat) (k : Cmd) : Bool :=
  k.io.fn == n && k.origin == 0 && k.asns.isEmpty && (k.stage == .point || k.stage == .order || k.stage == .waitData)

/-- End a function's work at an increment or a controller reset (R359): what has not reached check 7 is dropped and
counted, an incomplete data fetch is sealed with SQ Deletion over zeroes, and the rest runs on without a
completion. -/
def endWork (s : State) (n : Nat) : State :=
  let f := fnc s n
  let slots := (if f.rd.isSome then 1 else 0) + if f.wr.isSome then 1 else 0
  let granted := (s.host.granted.filter fun g => g.io.fn == n).length
  let early := s.host.cmds.filter (beforePoint n)
  let s := setFn s n { f with rd := none, wr := none, ready := [], aers := [], events := [] }
  let s := { s with host.granted := s.host.granted.filter fun g => g.io.fn != n
                    host.cmds := s.host.cmds.filter fun k => !beforePoint n k
                    win.convOrder := s.win.convOrder.filter fun e => !(early.any fun k => k.convSeq == some e.1)
                    pair.asked := s.pair.asked.filter fun i => !(early.any fun k => k.id == i)
                    pair.dropped := s.pair.dropped ++
                      (early.filter fun k => s.pair.asked.contains k.id).map fun k => (k.io.fn, k.io.sq, k.io.cid) }
  let s := (early.filterMap fun k => k.convSeq.map fun q => (q, k.io.nsid)).foldl
    (fun s e => tellStopped s (2 ^ 63 + e.1) e.2 stSqDeletion) s
  let s := odBump s 0x6220 0x09 n (slots + granted + early.length)
  let open_ (k : Cmd) : Bool := k.io.fn == n && k.origin == 0 && k.stage == .waitData && !k.dataHere
  let cut := s.host.cmds.filter open_
  let stale (k : Cmd) : Cmd := if k.io.fn = n ∧ k.origin = 0 ∧ n = 0 then { k with gen := staleGen } else k
  let s := { s with host.cmds := s.host.cmds.map stale }
  let s := cut.foldl (fun s k =>
    let s := (s.adm.recs.filter fun l => k.asns.contains l.r.asn && !l.sealed).foldl
      (fun s l => tellStopped (settleRecord s l stSqDeletion) l.r.asn l.r.zone stSqDeletion) s
    finishCmd s { k with status := stSqDeletion, gen := if n = 0 then staleGen else k.gen }) s
  settleReads (dropSet s (requesterOf n))

/-- Work of a generation is outstanding (R361). -/
def genBusy (s : State) (n g : Nat) : Bool :=
  (s.host.cmds.any fun k => k.io.fn == n && k.gen == g && k.origin == 0) ||
  (s.host.granted.any fun e => e.io.fn == n && e.gen == g)

/-- Increment a lens's generation and end the old era's work (R358, R359, R361): an increment to a generation that
still has work waits. Its page's live registers are cleared (R386). -/
def increment (s : State) (n : Nat) : State :=
  let f := fnc s n
  let g := if f.gen = 255 then 1 else f.gen + 1
  let s := setFn s n { f with genWait := some g }
  let s := { s with ciph.loaded := s.ciph.loaded.filter fun p => p != n }
  let s := endWork s n
  if genBusy s n g then s else setFn s n { fnc s n with gen := g, genWait := none }

/-- A controller's registers after its reset. -/
def clearCtrl (s : State) (n : Nat) : State :=
  setFn s n { fnc s n with en := false, rdy := false, shn := 0, shst := 0, changed := []
                           regs := kvPut 0 0x14 0 (fnc s n).regs }

/-- With no other controller of the subsystem enabled, every opened zone is due to be closed (R45, R68): twinEnabled
says whether a joined twin has one. The closes are the lead's records, which a joined follower asks for (log entry
117). -/
def resetClose (s : State) (n : Nat) (twinEnabled : Bool) : State :=
  if ((enabledFns s).any fun m => m != n) ∨ joined s ∧ twinEnabled then s
  else if pairRole s = 2 then (if joined s then sendFrame s 0 0x04 [12] else s)
  else
    let due := (openedZones s).filterMap fun z => (nsOfZone s z).map fun k => Due.restartClose z k.nsid
    { s with adm.due := s.adm.due ++ due }

/-- The same where the event does not say what the twin has: a free value (log entry 92). -/
def resetCloseFree (s : State) (n : Nat) : State :=
  resetClose (if joined s then useFree s else s) n (decide (freeVal s % 2 = 1))

/-- A lens leaves the Online state for another (R345). -/
def lensTo (s : State) (n : Nat) (st : LensSt) : State :=
  let s := clearCtrl (increment s n) n
  setFn s n { fnc s n with lens := st }

/-- A locked or running lens goes to ERROR (R345, R371). -/
def toError (s : State) (n : Nat) : State :=
  let s := lensTo s n .error
  setFn s n { fnc s n with tdisp := .error }

def tdLocked (f : Fn) : Bool := f.tdisp == .locked || f.tdisp == .run

/-! Lens states (R345, R346). -/

/-- VF Enable covers lenses up to NumVFs. -/
def execVfEnable (numVfs : Nat) (s : State) : Host.Outcome State Fault Refusal :=
  let s := { s with host.numVfs := Nat.max numVfs s.host.numVfs }
  .next ((List.range numVfs).foldl (fun s i =>
    let f := fnc s (i + 1)
    if f.lens = .disabled then setFn s (i + 1) { f with lens := .offline } else s) s)

/-- VF Enable cleared, or NumVFs reduced: the lenses above go to Disabled and their resources to the flexible pools. -/
def execVfDisable (numVfs : Nat) (s : State) : Host.Outcome State Fault Refusal :=
  let gone := (s.host.fns.map (·.1)).filter fun n => decide (numVfs < n) && (fnc s n).lens != .disabled
  let s := { s with host.numVfs := Nat.min numVfs s.host.numVfs }
  .next (gone.foldl (fun s n =>
    let s := lensTo s n .disabled
    let f := fnc s n
    let s := { s with host.freeVq := s.host.freeVq + f.vq, host.freeVi := s.host.freeVi + f.vi }
    resetCloseFree (setFn s n { f with vq := 0, vi := 0, tdisp := .unlocked }) n) s)

/-- Virtualization Management Online (R345, R353, R354). -/
def execVirtualizationOnline (a : Adm) (lens : Nat) (s : State) : Host.Outcome State Fault Refusal :=
  .next (withAdmin s a true fun s =>
    let f := fnc s lens
    if tdLocked f then adminDone s a stFrozen
    else if f.lens ≠ .offline ∨ f.vq = 0 ∨ f.vi = 0 then adminDone s a stCtrlState
    else if od s 0x6210 0x02 lens = 0 ∧ !lensContractOk s lens then adminDone s a stContract 0x6210
    else adminDone (setFn (increment s lens) lens { fnc (increment s lens) lens with lens := .probation }) a stOk)

/-- Virtualization Management Offline (R345). -/
def execVirtualizationOffline (a : Adm) (lens : Nat) (s : State) : Host.Outcome State Fault Refusal :=
  .next (withAdmin s a true fun s =>
    let f := fnc s lens
    if tdLocked f then adminDone s a stFrozen
    else match f.lens with
      | .disabled | .error => adminDone s a stCtrlState
      | .offline => adminDone s a stOk
      | .probation | .online => adminDone (resetCloseFree (lensTo s lens .offline) lens) a stOk)

/-- Virtualization Management assigns flexible resources to an Offline lens (R342, R343). -/
def execVirtualizationAssign (a : Adm) (lens vq vi : Nat) (s : State) : Host.Outcome State Fault Refusal :=
  .next (withAdmin s a true fun s =>
    let f := fnc s lens
    if tdLocked f then adminDone s a stFrozen
    else if f.lens ≠ .offline then adminDone s a stCtrlState
    else if 256 < vq ∨ 257 < vi ∨ s.host.freeVq + f.vq < vq ∨ s.host.freeVi + f.vi < vi then
      adminDone s a stCtrlResources
    else
      let s := { s with host.freeVq := s.host.freeVq + f.vq - vq, host.freeVi := s.host.freeVi + f.vi - vi }
      adminDone (setFn s lens { f with vq := vq, vi := vi }) a stOk)

/-- The write log's values meet R364. -/
def writeLogOk (s : State) (n : Nat) : Bool :=
  let a := od s 0x6300 0x02 n
  let b := od s 0x6300 0x03 n
  let base := od s 0x6300 0x04 n
  let len := od s 0x6300 0x05 n
  let buf := 64 * ceilDiv (64 + ceilDiv len 32768) 64
  a % 4096 == 0 && b % 4096 == 0 && base % 2097152 == 0 && len % 2097152 == 0 && len != 0 &&
  decide (len ≤ 2 ^ 44) && (decide (a + buf ≤ b) || decide (b + buf ≤ a))

/-- The probation check that fails (R346): 0 where all pass, and the operand for the checks of cipher and work. -/
def probationCheck (s : State) (n failed : Nat) : Nat :=
  let f := fnc s n
  if failed ≠ 0 then failed
  else if f.vq = 0 ∨ 256 < f.vq ∨ f.vi = 0 ∨ 257 < f.vi then 3
  else if od s 0x6300 0x01 n = 1 ∧ !writeLogOk s n then 4
  else 0

/-- Lanes of the known-answer check: the two lowest-numbered free ones (R395). -/
def checkLanes (s : State) : List Nat :=
  ((List.range 16).filter fun l => !s.ciph.badLanes.contains l && (lane s l).run.isNone).take 2

/-- After a failed known-answer check the two lanes are tested again, and those that fail leave service (R394, R395). -/
def retestLanes (s : State) (bad : List Nat) : State :=
  ((checkLanes s).filter fun l => bad.contains l).foldl
    (fun s l => loupe { s with ciph.badLanes := addTo l s.ciph.badLanes } 394 0x70 5 [l]) s

/-- The probation checks end (R346, R361): while old work is outstanding the lens waits. badLanes are the lanes that
fail their vectors when a failed known-answer check has them tested again. -/
def execProbationChecksPass (lens failed : Nat) (badLanes : List Nat) (s : State) : Host.Outcome State Fault Refusal :=
  let f := fnc s lens
  .next (if f.lens ≠ .probation then s
    else if (s.host.cmds.any fun k => k.io.fn == lens && k.origin == 0) || s.host.granted.any fun g => g.io.fn == lens then s
    else
      let f := match f.genWait with
        | some g => { f with gen := g, genWait := none }
        | none => f
      match probationCheck s lens failed with
      | 0 => setFn s lens { f with lens := .online }
      | c =>
        let s := loupe (setFn s lens { f with lens := .offline, failedCheck := c }) 345 0x61 5 [lens, c]
        if c = 2 then retestLanes s badLanes else s)

/-- Function Level Reset (R345, R371, R606): a locked lens goes to ERROR in whatever state of R345 it is (log entry
96). -/
def execFlr (r : FnReset) (s : State) : Host.Outcome State Fault Refusal :=
  let f := fnc s r.fn
  .next (if r.fn = 0 then resetClose (clearCtrl (endWork s 0) 0) 0 r.twinEnabled
    else if tdLocked f then resetClose (toError s r.fn) r.fn r.twinEnabled
    else if f.lens ≠ .online then s
    else resetClose (lensTo s r.fn .probation) r.fn r.twinEnabled)

/-- CC.EN 1 to 0 (R345, R606): the TDISP state is kept. -/
def execCcEnClear (r : FnReset) (s : State) : Host.Outcome State Fault Refusal :=
  let f := fnc s r.fn
  .next (if !f.en then s
    else if r.fn = 0 then resetClose (clearCtrl (endWork s 0) 0) 0 r.twinEnabled
    else if f.lens ≠ .online then s
    else resetClose (lensTo s r.fn .probation) r.fn r.twinEnabled)

/-- CC.EN 0 to 1 (R345, R545): CSTS.RDY follows once the device is in service. After an orderly shutdown the device
takes commands again. -/
def execCcEnSet (fn : Nat) (s : State) : Host.Outcome State Fault Refusal :=
  let f := fnc s fn
  .next (if f.en ∨ (fn ≠ 0 ∧ f.lens ≠ .online) then s
    else
      let s := if s.power.shutdown = 2 then { s with power.shutdown := 0 } else s
      setFn s fn { f with en := true, rdy := s.rst.life == .service, shn := 0, shst := 0 })

/-! The migration write log and pause (R363 to R368). -/

/-- Ask for a swap (R367). -/
def requestSwap (s : State) (n : Nat) : State :=
  let f := fnc s n
  if od s 0x6300 0x01 n ≠ 1 ∨ f.swapping then s else setFn s n { f with swapping := true }

def execWriteLogSwap (lens : Nat) (s : State) : Host.Outcome State Fault Refusal := .next (requestSwap s lens)

/-- The old buffer is closed with the next swap sequence, and the other one is active (R363, R367). -/
def execSwapComplete (lens : Nat) (s : State) : Host.Outcome State Fault Refusal :=
  let f := fnc s lens
  let q := Nat.max f.seqA f.seqB + 1
  .next (if !f.swapping then s
    else if f.logActive = 0 then setFn s lens { f with seqA := q, logActive := 1, swapping := false }
    else setFn s lens { f with seqB := q, logActive := 0, swapping := false })

/-- Pause or resume fetching (R368): slots look at their eligibility again. -/
def setPause (s : State) (n value : Nat) : State := retagFn (odSet s 0x6210 0x05 n value) n

def execLensPause (lens value : Nat) (s : State) : Host.Outcome State Fault Refusal :=
  .next (if value ≤ 1 then setPause s lens value else s)

/-! TDISP (R369 to R372). -/

/-- Answer a TDISP request in the DOE mailbox's session (R369). -/
def tdAnswer (s : State) (code : Nat) (words : List Nat) : State :=
  { s with mgmt.out := s.mgmt.out ++ [{ binding := 3, kind := code, words := words }] }

/-- The TDISP error answer. -/
def tdError (s : State) (n : Nat) : State := tdAnswer s 0x7F [n]

/-- A TDISP request needs the mailbox's session, and a lens that exists. -/
def tdRequest (s : State) (n : Nat) (f : State → State) : State :=
  if s.rst.life ≠ .service then s
  else if !s.ciph.sessions.contains 3 || (fnc s n).lens == .disabled then tdError s n
  else f s

/-- LOCK_INTERFACE (R369, R370, R372): the report is taken at the lock. -/
def execLockInterface (lens : Nat) (streamBound : Bool) (s : State) : Host.Outcome State Fault Refusal :=
  .next (tdRequest s lens fun s =>
    let f := fnc s lens
    if f.tdisp ≠ .unlocked ∨ !streamBound ∨ od s 0x6300 0x01 lens = 1 then tdError s lens
    else
      let report := [f.vq, f.vi, lens, freeVal s] ++ f.attached
      tdAnswer (useFree (setFn s lens { f with tdisp := .locked, report := report })) 0x03 [lens])

/-- GET_DEVICE_INTERFACE_REPORT (R370). -/
def execGetDeviceInterfaceReport (lens : Nat) (s : State) : Host.Outcome State Fault Refusal :=
  .next (tdRequest s lens fun s =>
    if tdLocked (fnc s lens) then tdAnswer s 0x04 (fnc s lens).report else tdError s lens)

/-- GET_DEVICE_INTERFACE_STATE (R369). -/
def execGetDeviceInterfaceState (lens : Nat) (s : State) : Host.Outcome State Fault Refusal :=
  .next (tdRequest s lens fun s => tdAnswer s 0x05 [(fnc s lens).tdisp.code])

/-- START_INTERFACE (R371). -/
def execStartInterface (lens : Nat) (s : State) : Host.Outcome State Fault Refusal :=
  .next (tdRequest s lens fun s =>
    let f := fnc s lens
    if f.tdisp = .locked then tdAnswer (setFn s lens { f with tdisp := .run }) 0x06 [lens] else tdError s lens)

/-- STOP_INTERFACE (R345, R371): the lens is unlocked and Offline (log entry 96). -/
def execStopInterface (lens : Nat) (s : State) : Host.Outcome State Fault Refusal :=
  .next (tdRequest s lens fun s =>
    if (fnc s lens).tdisp = .unlocked then tdError s lens
    else
      let s := if (fnc s lens).lens = .online ∨ (fnc s lens).lens = .probation then lensTo s lens .offline else s
      tdAnswer (setFn s lens { fnc s lens with tdisp := .unlocked, lens := .offline, report := [] }) 0x07 [lens])

/-- An IDE integrity failure on a lens's stream (R371). -/
def execIdeIntegrityFailure (port lens : Nat) (s : State) : Host.Outcome State Fault Refusal :=
  let s := odBump s 0x1020 0x03 port
  .next (if tdLocked (fnc s lens) then resetCloseFree (toError s lens) lens else s)

/-- Bits of the controller register at an offset that software may set, with NVM Express's layout (log entry 116): CC
without CC.EN and CC.SHN, which have rows of their own, AQA, ASQ and ACQ. Every other bit is reserved or read only. -/
def regMask : Nat → Nat
  | 0x14 => 0x01FF3FF0
  | 0x24 => 0x0FFF0FFF
  | 0x28 | 0x30 => 2 ^ 64 - 4096
  | _ => 0

/-- Software writes a controller register: its reserved bits are ignored, and go on reading 0 (R8). -/
def writeReg (s : State) (n off v : Nat) : State :=
  if regMask off = 0 then s
  else setFn s n { fnc s n with regs := kvPut 0 off (Nat.land v (regMask off)) (fnc s n).regs }

/-- What a controller register reads (log entry 116): CAP with CAP.TO at 4 (R289) and its other fields left out, CC with CC.EN and
CC.SHN, CSTS with RDY, CFS in the boot halt (R548) and SHST, and what software wrote elsewhere. -/
def readReg (s : State) (n off : Nat) : Nat :=
  let f := fnc s n
  match off with
  | 0x00 => 4 * 2 ^ 24
  | 0x14 => kvGet 0 0x14 f.regs + (if f.en then 1 else 0) + f.shn * 2 ^ 14
  | 0x1C => (if f.rdy && !(n == 0 && pfBusy s) then 1 else 0) + (match s.rst.life with | .halt _ => 2 | _ => 0) + f.shst * 4
  | off => kvGet 0 off f.regs

/-- An MMIO request to a function (R8, R371): Unsupported Request without the T bit in RUN, and always in ERROR. The
answer is the PCIe completion: 0 successful, with the register a read names, 1 Unsupported Request. -/
def execMmioRequest (lens : Nat) (m : Mmio) (s : State) :
    Host.Outcome State Fault Refusal :=
  let f := fnc s lens
  let ur := f.tdisp == .error || (f.tdisp == .run && !m.tBit)
  let s := match m.write with
    | some w => if ur then s else writeReg s lens m.off w
    | none => s
  let words := if ur ∨ m.write.isSome then [lens] else [lens, readReg s lens m.off]
  .next { s with mgmt.out := s.mgmt.out ++ [{ binding := 8, kind := if ur then 1 else 0, words := words }] }

end Sys2Proof.Machine
end

