-- ==== Sys2Proof/Machine/Cipher.lean ====
section
/-! DEFINITION. The cipher engine: lanes, user pages, derived keys, alarms, the DRBG and key rotation (R305, R383 to
R406). -/

namespace Sys2Proof.Machine

/-! Lanes (R388 to R390). -/

/-- Lanes in service, in ascending number. -/
def lanesUp (s : State) : List Nat := (List.range 16).filter fun l => !s.ciph.badLanes.contains l

/-- A lane runs n blocks: at the end of its message it resumes the saved one before anything else. -/
def Lane.advance (l : Lane) (n : Nat) : Lane :=
  match l.run with
  | none => l
  | some m =>
    if n < m.blocks then { l with run := some { m with blocks := m.blocks - n } }
    else match l.saved with
      | none => { run := none, saved := none }
      | some p =>
        let rest := n - m.blocks
        if rest < p.blocks then { run := some { p with blocks := p.blocks - rest }, saved := none }
        else { run := none, saved := none }

/-- Blocks until a lane is free. -/
def Lane.left (l : Lane) : Nat :=
  (match l.run with | some m => m.blocks | none => 0) + match l.saved with | some m => m.blocks | none => 0

/-- Every lane runs n blocks. -/
def runLanes (s : State) (n : Nat) : State :=
  let step (l : Lane) : Lane := l.advance n
  { s with ciph.lanes := s.ciph.lanes.map step }

/-- The urgent class (R389): decryption for contract reads, keepalive frames, the journal during hold-up. -/
def urgentReq (s : State) (r : CipherReq) : Bool :=
  if r.page ≤ 512 then r.decrypt && od s 0x6210 0x02 r.page == 0
  else if r.page ≤ 516 then decide (1 ≤ r.kind) && decide (r.kind ≤ 5)
  else r.page == 517 && !r.decrypt && s.power.hold == .holdup

/-- 16-byte blocks of a message (R387, R388): a host message is one XTS data unit, whose last block may be a stolen one. -/
def blocksOf (s : State) (r : CipherReq) : Nat :=
  match (if r.page ≤ 512 then ns? s r.nsid else none) with
  | some n => ceilDiv (unitBytes n.lbaf) 16
  | none => r.blocks

/-- The message of a request. -/
def msgOf (s : State) (r : CipherReq) (urgent : Bool) : Msg :=
  { page := r.page, blocks := blocksOf s r, urgent := urgent, suspendedOnce := false }

/-- A lane that an urgent message may suspend: a normal message, never suspended before, at least 16 blocks left. -/
def suspendable (l : Lane) : Bool :=
  match l.run with
  | some m => !m.urgent && !m.suspendedOnce && decide (16 ≤ m.blocks) && l.saved.isNone
  | none => false

/-- Put a message on the lowest-numbered free lane; an urgent one suspends a lane where none is free; else the message
takes the lane that frees first (R388, R390). -/
def takeLane (s : State) (m : Msg) : State :=
  let up := lanesUp s
  match up.find? fun l => (lane s l).run.isNone with
  | some l => setLane s l { run := some m, saved := none }
  | none =>
    match (if m.urgent then up.find? fun l => suspendable (lane s l) else none) with
    | some l =>
      let keep (p : Msg) : Msg := { p with suspendedOnce := true }
      odBump (setLane s l { run := some m, saved := (lane s l).run.map keep }) 0x7000 0x06
    | none => match (up.map fun l => (lane s l).left).min? with
      | none => s
      | some t =>
        let s := runLanes s t
        match up.find? fun l => (lane s l).run.isNone with
        | some l => setLane s l { run := some m, saved := none }
        | none => s

/-! User pages and the derived key cache (R383 to R386). -/

/-- The page may have the key derived (R383): the namespace is attached to its function, and its generation is one in
use (R398). -/
def mayDerive (s : State) (r : CipherReq) : Bool :=
  decide (r.page ≤ 520) && (decide (512 < r.page) ||
    match ns? s r.nsid with
    | some n => (r.page == 0 || (fnc s r.page).attached.contains r.nsid) &&
        (r.gen == n.gen || match n.rot with | some t => r.gen == t.oldGen | none => false)
    | none => false)

/-- A command whose data cannot pass the cipher (R383, R404): a write not all encrypted, and a read, end with Internal
Error. -/
def failKeyed (s : State) (k : Cmd) : State :=
  if k.stage = .waitData ∧ !k.dataHere then dataUnkeyed s k
  else if k.stage = .reading then
    let s := { s with reads := s.reads.filter fun r => r.rid != k.id }
    finishCmd s { k with status := stInternal }
  else s

/-- A refused request, and the command that caused it (R383). -/
def refuseKey (s : State) (r : CipherReq) : State :=
  let s := if 521 ≤ r.page then { s with ciph.loaded := addTo r.page s.ciph.loaded } else s
  let s := loupe (odBump s 0x7010 0x05 r.page) 383 0x70 6 [r.page, r.nsid]
  match cmd? s r.id with
  | some k => if r.page ≤ 512 ∧ k.io.fn = r.page then failKeyed s k else s
  | none => s

/-- The page holds the key that a request names, so none is derived (R384). -/
def holdsKey (s : State) (r : CipherReq) : Bool := (kvGet [] r.page s.ciph.cache).contains (r.nsid, r.gen)

/-- Look a key up among the page's own entries, or derive it: a page holding fewer than 8 takes a shared entry while
one is free, else replaces its least recently used one (R384). -/
def useKey (s : State) (p : Nat) (key : Nat × Nat) : State :=
  let held := kvGet [] p s.ciph.cache
  let s := { s with ciph.loaded := addTo p s.ciph.loaded }
  if held.contains key then
    odBump (setCache s (kvPut [] p (key :: held.filter fun k => k != key) s.ciph.cache)) 0x7010 0x04 p
  else
    let s := odBump s 0x7010 0x03 p
    if held = [] then setCache s (kvPut [] p [key] s.ciph.cache)
    else if held.length < 8 ∧ 0 < s.ciph.shared then setCache s (kvPut [] p (key :: held) s.ciph.cache)
    else setCache s (kvPut [] p (key :: held.dropLast) s.ciph.cache)

/-- The arbiter's choice (R40, R389): the urgent class first, then by rotation over the page. -/
def cipherPick (s : State) (rs : List CipherReq) : Option (CipherReq × Bool) :=
  let urgent := rs.filter (urgentReq s)
  let cls := if urgent = [] then rs else urgent
  let ptr := if urgent = [] then s.ciph.normalPtr else s.ciph.urgentPtr
  match rotPick ptr (cls.map (·.page)) with
  | some p => (cls.find? fun r => r.page == p).map fun r => (r, urgent != [])
  | none => none

/-- A grant of the cipher lane arbiter (R383, R388 to R392): the lanes have run `passed` blocks since the last one.
With the root erased, a message of pages 0 to 512 is discarded (R404). -/
def execCipherMessageGrant (requests : List CipherReq) (passed : Nat) (s : State) :
    Host.Outcome State Fault Refusal :=
  let s := runLanes s passed
  .next (match cipherPick s requests with
    | none => s
    | some (r, urgent) =>
      let s := if urgent then { s with ciph.urgentPtr := r.page + 1 } else { s with ciph.normalPtr := r.page + 1 }
      if r.page ≤ 512 ∧ s.ciph.root.isNone then s
      else if !holdsKey s r && !mayDerive s r then refuseKey s r
      else
        let s := if r.page ≤ 512 then useKey s r.page (r.nsid, r.gen) else s
        let s := { s with ciph.drbgUsed := s.ciph.drbgUsed + 15 * blocksOf s r }
        takeLane s (msgOf s r urgent))

/-- A lane written for return passes the vectors of R394, or stays out of service. -/
def execLaneReturn (lane : Nat) (vectorsOk : Bool) (s : State) : Host.Outcome State Fault Refusal :=
  .next (if !s.ciph.badLanes.contains lane then s
    else if vectorsOk then { s with ciph.badLanes := s.ciph.badLanes.filter fun l => l != lane }
    else loupe s 394 0x70 5 [lane])

/-! Alarms (R403 to R406). -/

/-- Severity of an alarm's event (R403): 6, or 7 for the tamper mesh and light. -/
def alarmSeverity (alarm : Nat) : Nat := if 3 ≤ alarm then 7 else 6

/-- A lane drops messages of pages 0 to 512. -/
def dropMsg (l : Lane) : Lane :=
  let keep (m : Option Msg) : Option Msg := m.filter fun x => decide (512 < x.page)
  match keep l.run with
  | some m => { run := some m, saved := keep l.saved }
  | none => { run := keep l.saved, saved := none }

/-- The erasure of R403: root register, live registers of pages 0 to 512, derived key cache. -/
def eraseKeys (s : State) : State :=
  { setCache s [] with ciph.root := none, ciph.erased := true
                       ciph.loaded := s.ciph.loaded.filter fun p => decide (512 < p)
                       ciph.lanes := s.ciph.lanes.map dropMsg }

/-- Work at the alarm (R404): a write whose data is not all encrypted, and a read not yet decrypted, end with
Internal Error. -/
def alarmWork (s : State) : State :=
  let writes := s.host.cmds.filter fun k => k.stage == .waitData && !k.dataHere && k.origin == 0
  let s := writes.foldl failKeyed s
  (s.host.cmds.filter fun k => k.stage == .reading && k.origin == 0).foldl failKeyed s

/-- Lenses in TDISP RUN or CONFIG_LOCKED go to ERROR (R371, R404). -/
def alarmLenses (s : State) : State :=
  let locked := (s.host.fns.map (·.1)).filter fun n => tdLocked (fnc s n)
  locked.foldl (fun s n => resetCloseFree (toError s n) n) s

/-- An alarm (R403 to R406): in boot stages 0 to 2 it raises an internal fatal reset. -/
def execCipherAlarm (alarm : Nat) (s : State) : Host.Outcome State Fault Refusal :=
  .next (if 5 ≤ alarm then s
    else
      let boot := s.rst.life == .stage0 || s.rst.life == .stage1 || s.rst.life == .stage2
      let s := odKeep s 0x7000 0x04 (od s 0x7000 0x04 alarm + 1) alarm
      let s := eraseKeys { s with ciph.alarms := setBit alarm s.ciph.alarms }
      let s := loupe s 403 0x70 (alarmSeverity alarm) [alarm]
      if boot then raise { s with ciph.alarmResets := s.ciph.alarmResets + 1 } 8 2
      else
        let s := alarmLenses (alarmWork s)
        if pairRole s ≠ 0 ∧ s.pair.ana ≠ 3 then (enabledFns s).foldl (fun s n => aen s n 2 3) s else s)

/-- Every alarm condition has been absent for 1 ms (R305, R405): a paired twin takes the root from its twin in a new
session; an unpaired controller stays without it until a device reset. -/
def execAlarmClearRecover (s : State) : Host.Outcome State Fault Refusal :=
  let s := { s with ciph.alarms := 0 }
  .next (if !s.ciph.erased ∨ pairRole s = 0 ∨ !s.pair.linkUp then s
    else
      let s := sendFrame { s with pair.session := true, pair.secret := freeVal s, pair.sessionId := freeVal (useFree s)
                                  free := s.free + 2 } 0 0x05 [0xE4]
      let s := { s with ciph.root := s.ciph.stored, ciph.erased := false }
      if s.pair.ana ≠ 3 then (enabledFns s).foldl (fun s n => aen s n 2 3) s else s)

/-! The DRBG (R393). -/

/-- An entropy health failure stops every operation that draws. -/
def execEntropyHealthFailure (s : State) : Host.Outcome State Fault Refusal :=
  .next (loupe { s with ciph.drbgOk := false } 393 0x70 6 [])

/-- A reseed that passes starts the count again; one that fails is an entropy health failure. -/
def execDrbgReseed (ok : Bool) (s : State) : Host.Outcome State Fault Refusal :=
  .next (if ok then { s with ciph.drbgOk := true, ciph.drbgUsed := 0 }
    else loupe { s with ciph.drbgOk := false } 393 0x70 6 [])

/-! Key rotation (R398, R399). -/

/-- A rotation of the namespace cannot start: one runs, a new salt cannot be drawn, or a pair's follower would start
it. -/
def rotationBusy (s : State) (nsid : Nat) : Bool :=
  match ns? s nsid with
  | none => true
  | some n => n.rot.isSome || (n.gen == 255 && !s.ciph.drbgOk) || pairRole s == 2

/-- Start a rotation (R398, R399): the begin record, the switch ASN and the new generation; from generation 255 a new
salt and generation 1. -/
def startRotation (s : State) (nsid : Nat) : State :=
  match ns? s nsid with
  | none => s
  | some n =>
    if rotationBusy s nsid then s
    else
      let gen := if n.gen = 255 then 1 else n.gen + 1
      let root := s.ciph.root.getD 0
      let salt := if n.gen = 255 then drawSalt s root nsid 1 else n.salt
      let r : Rotation := { oldGen := n.gen, newGen := gen, oldSalt := n.salt, switchAsn := s.adm.nextAsn
                            left := oldZones s n n.gen, pages := [] }
      let s := if n.gen = 255 then dropKeysOf (fun k => k.1 == nsid && k.2 != 255) (useDraws s (saltDraws s root nsid 1))
        else s
      let s := journal (setNs s { n with rot := some r, gen := gen, salt := salt }) 11 [0, n.gen, gen, nsid]
      if pairRole s = 1 ∧ s.pair.linkUp then sendFrame s 0 0x04 [8, nsid, s.adm.nextAsn, gen, salt] else s

def execKeyRotationStart (nsid : Nat) (s : State) : Host.Outcome State Fault Refusal := .next (startRotation s nsid)

end Sys2Proof.Machine
end

