-- ==== Sys2Proof/Machine/Attest.lean ====
section
/-! DEFINITION. Firmware slots and anti-rollback, and SPDM (R386, R412 to R421). SPDM response and error codes are those
of SPDM 1.3 (log entry 15). -/

namespace Sys2Proof.Machine

/-! Firmware (R418 to R420). -/

def stFwSlot : Nat := 0x106
def stFwImage : Nat := 0x107
def stFwProhibited : Nat := 0x113

/-- The check of an image at Firmware Commit and at stage 1 (R419): none where it is accepted. -/
def imageStatus (s : State) (f : ImageFacts) : Option Nat :=
  if !f.formatOk || !f.signatureOk || (od s 0x7100 0x03).testBit f.keySlot || decide (63 < f.secVersion) then
    some stFwImage
  else if f.secVersion < s.ciph.otpMin then some stFwProhibited
  else none

/-- The slot a Firmware Slot number names: 1 and 2, and for 0 the one not running. -/
def fwSlotIndex (s : State) (slot : Nat) : Option Nat :=
  if slot = 0 then some (1 - s.ciph.activeSlot) else if slot ≤ 2 then some (slot - 1) else none

/-- The contents of a slot that holds an image. -/
def slotOf (f : ImageFacts) : FwSlot :=
  { valid := true, secVersion := f.secVersion, digest := f.digest, asksRaise := f.asksRaise, keySlot := f.keySlot }

/-- Verify an image and store it, with what else the action does. -/
def fwStore (s : State) (a : Adm) (slot : Nat) (f : ImageFacts) (choose : Bool) : State :=
  withAdmin s a true fun s =>
    match fwSlotIndex s slot with
    | none => adminDone s a stFwSlot
    | some i => match imageStatus s f with
      | some st => adminDone s a st
      | none =>
        let s := { s with ciph.slots := s.ciph.slots.set i (slotOf f) }
        adminDone (if choose then { s with ciph.chosen := i } else s) a stOk

/-- Action 000b: replace a slot's image. -/
def execFirmwareCommitReplace (a : Adm) (slot : Nat) (f : ImageFacts) (s : State) : Host.Outcome State Fault Refusal :=
  .next (fwStore s a slot f false)

/-- Action 001b: replace a slot's image and choose it for activation. -/
def execFirmwareCommitReplaceActivate (a : Adm) (slot : Nat) (f : ImageFacts) (s : State) :
    Host.Outcome State Fault Refusal := .next (fwStore s a slot f true)

/-- A stored image passes the check of R419. -/
def storedStatus (s : State) (i : Nat) : Option Nat :=
  let v := s.ciph.slots.getD i {}
  if !v.valid || (od s 0x7100 0x03).testBit v.keySlot then some stFwImage
  else if v.secVersion < s.ciph.otpMin then some stFwProhibited
  else none

/-- Action 010b: choose a slot's image for activation. -/
def execFirmwareCommitActivate (a : Adm) (slot : Nat) (s : State) : Host.Outcome State Fault Refusal :=
  .next (withAdmin s a true fun s =>
    match fwSlotIndex s slot with
    | none => adminDone s a stFwSlot
    | some i => match storedStatus s i with
      | some st => adminDone s a st
      | none => adminDone { s with ciph.chosen := i } a stOk)

/-- Action 011b fails with Invalid Field in Command (R418). -/
def execFirmwareCommitImmediate (a : Adm) (s : State) : Host.Outcome State Fault Refusal :=
  .next (withAdmin s a true fun s => adminDone s a stField)

/-- Raise the OTP minimum (R420); a value at or below it, or above 63, changes nothing (R422). -/
def raiseMin (s : State) (version : Nat) : State :=
  if version ≤ s.ciph.otpMin ∨ 63 < version then s else { s with ciph.otpMin := version }

def execRaiseMinimum (version : Nat) (s : State) : Host.Outcome State Fault Refusal := .next (raiseMin s version)

/-! SPDM (R413 to R417). -/

/-- The device answers SPDM: the identity key is derived, and it is not in a boot halt (R548). -/
def spdmUp (s : State) : Bool := s.rst.life == .stage3 || s.rst.life == .service || s.rst.life == .maintenance

/-- Queue an SPDM response. -/
def spdmOut (s : State) (b code : Nat) (words : List Nat) : State :=
  { s with mgmt.out := s.mgmt.out ++ [{ binding := b, kind := code, words := words }] }

def spdmError (s : State) (b code : Nat) : State := spdmOut s b 0x7F [code]

def erInvalidRequest : Nat := 0x01
def erUnspecified : Nat := 0x05
def erUnsupported : Nat := 0x07
def erSessionLimit : Nat := 0x0A
def erSessionRequired : Nat := 0x0B

/-- Take an SPDM request. -/
def withSpdm (s : State) (f : State → State) : State := if spdmUp s then f s else s

/-- NEGOTIATE_ALGORITHMS (R413). -/
def execNegotiateAlgorithms (b : Binding) (asymP384 sha384 secp384 aesGcm keySchedule : Bool) (s : State) :
    Host.Outcome State Fault Refusal :=
  .next (withSpdm s fun s =>
    if asymP384 && sha384 && secp384 && aesGcm && keySchedule then
      spdmOut { s with ciph.negotiated := addTo b s.ciph.negotiated } b 0x63 []
    else spdmError s b erInvalidRequest)

/-- The chain of a certificate slot (R416). -/
def certChain (s : State) (slot : Nat) : Option Nat :=
  if slot = 0 then some Config.factoryChain else if slot = 1 then s.ciph.slot1 else none

/-- GET_CERTIFICATE (R416). -/
def execGetCertificate (b : Binding) (slot : Nat) (s : State) : Host.Outcome State Fault Refusal :=
  .next (withSpdm s fun s => match certChain s slot with
    | some c => spdmOut s b 0x02 [slot, c]
    | none => spdmError s b erInvalidRequest)

/-- A signature under the identity key over a 64-byte digest input; it draws from the DRBG (R393, R413). -/
def signature (x : Nat) : Nat := Config.ecdsaSign (Config.sha384 64 x)

/-- CHALLENGE (R413). -/
def execChallenge (b : Binding) (slot nonce : Nat) (s : State) : Host.Outcome State Fault Refusal :=
  .next (withSpdm s fun s => match certChain s slot with
    | none => spdmError s b erInvalidRequest
    | some c =>
      if !s.ciph.drbgOk then spdmError s b erUnspecified
      else spdmOut (useDraw s) b 0x03 [slot, Config.sha384 0 c, draw s, signature (nonce + draw s * 2 ^ 256)])

/-- A measurement block of R415: value type and value. -/
def measurement (s : State) (i : Nat) : Option (Nat × Nat) :=
  if 1 ≤ i ∧ i ≤ 16 then some (0x08, s.ciph.ms.getD (i - 1) 0)
  else if i = 17 then some (0x04, match newestRecord s with | some r => r.value | none => 0)
  else if i = 18 then some (0x07, (s.ciph.slots.getD s.ciph.activeSlot {}).secVersion)
  else if i = 19 then some (0x06, Config.firmwareRevision)
  else if i = 0xFE then some (0x05, Config.spdmDeviceMode)
  else none

/-- Indices that exist. -/
def measurementIndices : List Nat := (List.range 19).map (· + 1) ++ [0xFE]

/-- GET_MEASUREMENTS (R415): index 0 asks for the number of blocks, 0xFF for all of them. -/
def execGetMeasurements (b : Binding) (index nonce : Nat) (signed : Bool) (s : State) :
    Host.Outcome State Fault Refusal :=
  .next (withSpdm s fun s =>
    let list := if index = 0xFF then measurementIndices else [index]
    let blocks := list.filterMap fun i => (measurement s i).map fun m => [i, m.1, m.2]
    let words := if index = 0 then [measurementIndices.length] else blocks.flatten
    if index ≠ 0 ∧ blocks = [] then spdmError s b erInvalidRequest
    else if !signed then spdmOut s b 0x60 words
    else if !s.ciph.drbgOk then spdmError s b erUnspecified
    else spdmOut (useDraw s) b 0x60 (words ++ [signature (nonce + draw s * 2 ^ 256)]))

/-- A link binding, whose session is one of the four reserved (R414). -/
def linkBinding (b : Nat) : Bool := 4 ≤ b

/-- No session is free for a binding (R414): 16 in all, 4 of them for the Mirror link and the cascade ports. -/
def sessionsFull (s : State) (b : Nat) : Bool :=
  if linkBinding b then s.ciph.sessions.contains b
  else decide (12 ≤ (s.ciph.sessions.filter fun x => !linkBinding x).length)

/-- KEY_EXCHANGE (R414): opens a session. The agreed secret is symbolic, and stays with the parties. -/
def execKeyExchange (b : Binding) (_secret : Nat) (s : State) : Host.Outcome State Fault Refusal :=
  .next (withSpdm s fun s =>
    if sessionsFull s b then spdmError s b erSessionLimit
    else if !s.ciph.drbgOk then spdmError s b erUnspecified
    else
      let s := useDraw s
      spdmOut { s with ciph.sessions := s.ciph.sessions ++ [b] } b 0x64 [draw s, signature (draw s)])

/-- END_SESSION: a link page's registers are cleared at the end of its session (R386). -/
def execEndSession (b : Binding) (s : State) : Host.Outcome State Fault Refusal :=
  .next (withSpdm s fun s =>
    if !s.ciph.sessions.contains b then spdmError s b erSessionRequired
    else
      let s := { s with ciph.sessions := s.ciph.sessions.erase b }
      let s := if b = 4 then { s with pair.session := false }
        else if 5 ≤ b then setMember s (b - 4) { member s (b - 4) with session := false } else s
      spdmOut s b 0x6C [])

/-- SET_CERTIFICATE (R416): slot 1, inside a session, with a leaf that carries the identity public key. -/
def execSetCertificate (b : Binding) (slot chain leafKey : Nat) (secured : Bool) (s : State) :
    Host.Outcome State Fault Refusal :=
  .next (withSpdm s fun s =>
    if !secured ∨ !s.ciph.sessions.contains b then spdmError s b erSessionRequired
    else if slot ≠ 1 ∨ leafKey ≠ identityKey then spdmError s b erInvalidRequest
    else spdmOut { s with ciph.slot1 := some chain } b 0x6E [slot])

/-- The boot record of a sequence; 0 names the newest (R417). -/
def recordOf (s : State) (sequence : Nat) : Option BootRec :=
  if sequence = 0 then newestRecord s
  else (s.ciph.fresh.toList ++ s.ciph.records).find? fun r => r.sequence == sequence

/-- VENDOR_DEFINED_REQUEST (R417). -/
def execVendorDefinedRequest (b : Binding) (standard vendor sequence : Nat) (s : State) :
    Host.Outcome State Fault Refusal :=
  .next (withSpdm s fun s =>
    if standard ≠ 3 ∨ vendor ≠ 0x1F3B then spdmError s b erUnsupported
    else match recordOf s sequence with
      | some r => spdmOut s b 0x7E [0, r.value]
      | none => spdmOut s b 0x7E [1])

end Sys2Proof.Machine
end

