-- ==== Sys2Proof/Machine/Dram.lean ====
section
/-! DEFINITION. The DRAM controller: the address map, initialisation, grants, path-code outcomes, withdrawn frames,
scrub, refresh, self-refresh and retraining (R223, R224, R493 to R518). -/

namespace Sys2Proof.Machine

/-! Where a byte lives (R496). -/

structure DLoc where
  chan : Nat
  rank : Nat
  bank : Nat
  row : Nat
  crow : Nat
  q : Nat
  cb : Nat
deriving DecidableEq, Repr

/-- The DRAM location of a data address. -/
def dramLoc (ranks a : Nat) : DLoc :=
  let f := a / 4096
  let g := f / 8
  let h := g / 16
  let i := h / ranks
  { chan := Nat.xor (Nat.xor (f % 8) (f / 8 % 8)) (f / 64 % 8), rank := h % ranks, bank := g % 16
    row := 9 * (i / 8) + i % 8, crow := 9 * (i / 8) + 8, q := a % 4096 / 64
    cb := 512 * (i % 8) + 8 * (a % 4096 / 64) }

/-- A bank's number in its channel, ranks apart. -/
def DLoc.bankNo (l : DLoc) : Nat := l.rank * 16 + l.bank
/-- The bank of the check bytes. -/
def DLoc.checkBankNo (l : DLoc) : Nat := l.rank * 16 + Nat.xor l.bank 8
/-- The check burst that holds a codeword's check bytes. -/
def DLoc.burst (l : DLoc) : Nat := (l.checkBankNo * 2 ^ 20 + l.crow) * 64 + l.cb / 64

/-- The 4 KiB frame of the second copy of ledger buffer or journal tail frame f, in a region of its own that begins at a
multiple of 512 frames: it lies on channel (c + 4) mod 8, where c is the channel of f (R505). -/
def copyFrame (base f : Nat) : Nat := 512 * base + Nat.xor f 4

/-! Initialisation (R503). -/

/-- A 64 KiB block has been initialised since the reset. -/
def blockReady (s : State) (b : Nat) : Bool := decide (b < s.dram.initMark) || s.dram.initOther.contains b

/-- Move the mark past blocks that are listed. -/
def closeMark : Nat → Nat → List Nat → Nat
  | 0, m, _ => m
  | n + 1, m, l => if l.contains m then closeMark n (m + 1) l else m

/-- Write a block with zero codewords and mark it initialised, once. -/
def initBlock (s : State) (b : Nat) : State :=
  if blockReady s b then s
  else
    let other := s.dram.initOther ++ [b]
    let mark := closeMark other.length s.dram.initMark other
    { s with dram.mem := s.dram.mem.filter fun e => e.1 / 65536 != b, dram.initMark := mark
             dram.initOther := other.filter fun x => decide (mark ≤ x) }

/-! Buffers in DRAM (R507, R519). Buffer addresses below 2^40 are data addresses, those above stand for staging SRAM
(log entry 40). -/

/-- First address of staging SRAM among buffer addresses. -/
def sramBase : Nat := 2 ^ 40

/-- Buffers of a tier that overlap the len bytes at address a. -/
def overlapping (t : Tier) (size a len : Nat) : List Nat :=
  (List.range (len / size + 2)).filterMap fun k =>
    let b := (a - t.base) / size + k
    if b < t.count ∧ t.base + b * size < a + len ∧ a < t.base + (b + 1) * size then some b else none

/-- Take buffers out of a tier: at once where they are free, else at their return (R507, R508). -/
def Tier.remove (t : Tier) (bs : List Nat) : Tier :=
  let busy := bs.filter fun b => kvGet 0 b t.allocated != 0
  let free := bs.filter fun b => kvGet 0 b t.allocated == 0
  { t with stack := t.stack.filter fun b => !free.contains b, removed := free.foldl (fun l b => addTo b l) t.removed
           toRemove := busy.foldl (fun l b => addTo b l) t.toRemove }

/-- The next buffer never handed out, from number n on. -/
def Tier.nextFresh (t : Tier) : Nat → Nat → Option Nat
  | 0, _ => none
  | k + 1, n => if t.count ≤ n then none else if t.removed.contains n then t.nextFresh k (n + 1) else some n

/-- Head of a tier's free list (R522). -/
def Tier.head (t : Tier) : Option Nat :=
  match t.stack with
  | b :: _ => some b
  | [] => t.nextFresh (t.removed.length + 1) t.fresh

/-- Take the head of the free list, marked with the class of its request. -/
def Tier.take (t : Tier) (cls : Nat) : Option (Nat × Tier) :=
  t.head.map fun b => (b, { t with stack := t.stack.drop 1, fresh := if t.stack = [] then b + 1 else t.fresh
                                   allocated := kvPut 0 b (cls + 1) t.allocated, written := kvPut 0 b 0 t.written })

/-- The pool, DRAM buffer and offset that a data address lies in. -/
def bufferOf (s : State) (a : Nat) : Option (Nat × Nat × Nat) :=
  (List.range 6).findSome? fun p =>
    let t := (pool s p).dram
    let x := a - t.base
    if t.base ≤ a ∧ x / bufSize p < t.count then some (p, x / bufSize p, x % bufSize p) else none

/-- The owner of the buffer at an address has written len bytes there (R527). -/
def noteWritten (s : State) (a len : Nat) : State :=
  match bufferOf s a with
  | some (p, b, off) =>
    let t := (pool s p).dram
    let mask := Nat.lor (kvGet 0 b t.written) ((2 ^ len - 1) * 2 ^ off % 2 ^ bufSize p)
    setPool s p { pool s p with dram := { t with written := kvPut 0 b mask t.written } }
  | none => s

/-- The byte at an address may leave the device: it lies in no buffer, or its buffer's owner has written it (R527). -/
def maySend (s : State) (a : Nat) : Bool :=
  match bufferOf s a with
  | some (p, b, off) =>
    let t := (pool s p).dram
    kvGet 0 b t.allocated != 0 && (kvGet 0 b t.written).testBit off
  | none => true

/-! Withdrawn frames (R504, R507). -/

/-- The frame lies in a DRAM tier of a pool. -/
def inPoolTier (s : State) (frame : Nat) : Bool :=
  (List.range 6).any fun p => overlapping (pool s p).dram (bufSize p) (frame * 4096) 4096 != []

/-- Take every pool buffer that overlaps a frame out of use. -/
def removeBuffers (s : State) (a : Nat) : State :=
  (List.range 6).foldl (fun s p =>
    let v := pool s p
    setPool s p { v with dram := v.dram.remove (overlapping v.dram (bufSize p) a 4096) }) s

/-- Move a frame of the FTL region or of a journal or ledger copy to a spare: a spare frame, else a free buffer of the
4 KiB DRAM tier, else the flush and reset of R504. -/
def spareFrame (s : State) : State :=
  if s.dram.sparesUsed < od s 0x9100 0x0B then { s with dram.sparesUsed := s.dram.sparesUsed + 1 }
  else match (pool s 1).dram.head with
    | some b => setPool s 1 { pool s 1 with dram := (pool s 1).dram.remove [b] }
    | none => raise (loupe s 504 0x91 7 []) 8 5

/-- Withdraw the 4 KiB frame of an address. -/
def withdraw (s : State) (a : Nat) : State :=
  let f := a / 4096
  if s.dram.withdrawn.contains f then s
  else
    let s := odBump s 0x9100 0x06
    let s := if 4096 ≤ s.dram.withdrawn.length then loupe s 507 0x91 6 [f] else s
    let s := { s with dram.withdrawn := s.dram.withdrawn ++ [f] }
    if inPoolTier s f then removeBuffers s (f * 4096) else spareFrame s

/-! Corrected and uncorrectable codewords (R223, R224, R504, R509). -/

/-- Rows of one bank corrected within 4 rows of one another, 3 or more of them (R509). -/
def disturbed (rows : List Nat) (row : Nat) : Bool :=
  (List.range 5).any fun k =>
    decide (3 ≤ ((List.range 5).filter fun i => decide (k ≤ row + i) && rows.contains (row + i - k)).length)

/-- The disturbance watch: a correction in a row not yet seen within the hour. -/
def disturbWatch (s : State) (l : DLoc) : State :=
  let key := l.chan * 32 + l.bankNo
  let near := s.dram.watch.filter fun e => decide (s.health.seconds ≤ e.1 + 3600)
  let seen := (near.filter fun e => e.2.1 == key).map (·.2.2)
  let s := { s with dram.watch := near ++ [(s.health.seconds, key, l.row)] }
  if !seen.contains l.row ∧ disturbed (l.row :: seen) l.row then
    loupe (odBump s 0x9100 0x0A) 509 0x91 4 [l.chan, l.rank, l.bank, l.row]
  else s

/-- A path-code correction (R223, R224): the repeat reads clean, or the frame is moved and withdrawn. -/
def pathCorrected (s : State) (a : Nat) (l : DLoc) (second : Bool) : State :=
  let f := a / 4096
  let s := odBump (odBump s 0x9100 0x01) 0x9100 0x0C l.chan
  let s := disturbWatch s l
  if !second then withdraw (loupe (odBump s 0x4000 0x0A) 225 0x91 5 [f]) a
  else
    let s := loupe (odBump s 0x4000 0x09) 225 0x91 1 [f]
    let recent := (s.dram.corrections.filter fun e => decide (s.health.seconds ≤ e.1 + 86400)) ++ [(s.health.seconds, f)]
    let s := { s with dram.corrections := recent }
    if od s 0x4010 0x0A ≤ (recent.filter fun e => e.2 == f).length then
      withdraw (loupe (odBump s 0x4000 0x0A) 225 0x91 5 [f]) a
    else s

/-- What an uncorrectable codeword held decides its outcome (R504). -/
def heldOutcome (s : State) (h : Held) : State :=
  match h with
  | .windowUnit z u => windowLost s z u
  | .readData rid u =>
    let s := loupe s 504 0x91 4 [rid, u]
    match rdUnit? s rid u with
    | some r => replaceReads s [{ cls := 0, rid := r.rid, unit := r.unit, plane := 0, page := 0, member := false, slc := false }]
    | none => s
  | .foldCache z u =>
    let v := zone s z
    let s := setZone s z { v with units := kvPut {} u { kvGet {} u v.units with cached := false } v.units }
    let s := { s with win.cache := s.win.cache.filter fun e => !(e.2.1 == z && e.2.2 == u) }
    loupe s 504 0x91 4 [z, u]
  | .oneCopy => loupe (copyLedger { s with jrn.tail2 := s.jrn.tail }) 504 0x91 5 []
  | .bothCopies | .ftlRegion => raise (loupe s 504 0x91 7 []) 8 3
  | .freeLink p t =>
    let v := pool s p
    let s := if t = 0 then setPool s p { v with sram := { v.sram with rebuilding := true } }
             else setPool s p { v with dram := { v.dram with rebuilding := true } }
    loupe (odBump s 0x9200 0x0D p) 504 0x92 5 [p, t]
  | .other => s

/-- An uncorrectable codeword: its frame is withdrawn and counted (R504). -/
def pathUncorrectable (s : State) (a : Nat) (h : Held) : State := heldOutcome (withdraw (odBump s 0x9100 0x04) a) h

/-! Requests (R501, R502, R511 to R513, R515). -/

/-- Class of a request once age has promoted its port (R511). -/
def dramClass (c : DChan) (r : DramReq) : Nat := if c.promoted.contains r.req.port then 0 else r.req.cls

/-- The channel arbiter's choice: class, then rotation over the port (R511). -/
def dramPick (c : DChan) (rs : List DramReq) : Option (DramReq × Nat) :=
  match (rs.map (dramClass c)).min? with
  | none => none
  | some k =>
    let cand := rs.filter fun r => dramClass c r == k
    match rotPick (c.ptr.getD k 0) (cand.map (·.req.port)) with
    | some p => (cand.find? fun r => r.req.port == p).map fun r => (r, k)
    | none => none

/-- Open a row of a bank. -/
def openRow (c : DChan) (bank row : Nat) : DChan :=
  { c with open_ := kvPut 0 bank (row + 1) c.open_ }

/-- A check burst used: found in the cache of 512, or read into it in place of the one used longest ago (R502). -/
def useBurst (c : DChan) (l : DLoc) : DChan :=
  let hit := c.checkCache.contains l.burst
  let c := if hit then c else openRow c l.checkBankNo l.crow
  { c with checkCache := (l.burst :: c.checkCache.filter fun b => b != l.burst).take 512 }

/-- The 64 bytes of the codeword of an address. -/
def codeword (s : State) (a : Nat) : List Byte := kvRun 0 (a / 64 * 64) 64 s.dram.mem

/-- Ports whose data goes to the host, the twin or a cascade member (R511, R527). -/
def sendsOut (port : Nat) : Bool := port == 0 || port == 11 || port == 12

/-- What a read delivers to a port: to one that sends it out, zero for each byte that the buffer's owner has not written
(R527). -/
def deliver (s : State) (port a : Nat) : List Byte :=
  (codeword s a).zipIdx.map fun (v, i) => if sendsOut port && !maySend s (a / 64 * 64 + i) then 0 else v

/-- The check bytes that stand beside a codeword (R498). -/
def codewordCheck (s : State) (a : Nat) : List Byte := checkBytes (codeword s a)

/-- The write covers its codeword, so nothing is read first (R501). -/
def wholeWrite (a : Nat) (w : Option (List Byte)) : Bool :=
  match w with
  | some l => a % 64 == 0 && l.length == 64
  | none => false

/-- With a bank idle timer of 0 the rows close after the access (R513). -/
def afterAccess (timer : Nat) (c : DChan) (l : DLoc) : DChan :=
  if timer = 0 then { c with open_ := kvPut 0 l.checkBankNo 0 (kvPut 0 l.bankNo 0 c.open_) } else c

/-- A granted request: its channel leaves self-refresh, its block is initialised, its rows are open, its codeword
is checked, and its data is written or delivered. -/
def dramServe (s : State) (r : DramReq) (p : PathRes) : State :=
  let l := dramLoc s.dram.ranks r.address
  let s := initBlock s (r.address / 65536)
  let c := dchan s l.chan
  let c := afterAccess (od s 0x9000 0x04) (useBurst (openRow c l.bankNo l.row) l) l
  let s := setDchan s l.chan { c with state := 0 }
  let s := odBump s 0x9010 0x08 l.chan
  let put (s : State) : State :=
    match r.write with
    | some w =>
      let w := w.take (64 - r.address % 64)
      noteWritten { s with dram.mem := kvPutRun 0 r.address w s.dram.mem } r.address w.length
    | none => { s with dram.delivered := some (r.req.port, r.req.id, deliver s r.req.port r.address) }
  if wholeWrite r.address r.write then put s
  else match p with
    | .clean => put s
    | .corrected second => pathCorrected (put s) r.address l second
    | .uncorrectable h => pathUncorrectable s r.address h

/-- A grant of a DRAM channel's arbiter (R511). -/
def execDramRequestGrant (ch : Nat) (requests : List DramReq) (p : PathRes) (s : State) :
    Host.Outcome State Fault Refusal :=
  let c := dchan s ch
  if 2 ≤ c.state then .next s
  else match dramPick c requests with
    | none => .next s
    | some (r, k) =>
      if dramCapacity s ≤ r.address then .fault (.noSuchAddress r.address)
      else if (dramLoc s.dram.ranks r.address).chan ≠ ch then .next s
      else
        let ptr := c.ptr.set k (r.req.port + 1)
        let s := setDchan s ch { c with ptr := ptr, promoted := c.promoted.filter fun x => x != r.req.port }
        .next (dramServe s r p)

/-- A port's oldest request has waited past the age limit (R511). -/
def execAgePromotion (ch port : Nat) (s : State) : Host.Outcome State Fault Refusal :=
  let c := dchan s ch
  .next (if c.promoted.contains port then s
    else odBump (setDchan s ch { c with promoted := c.promoted ++ [port] }) 0x9010 0x09 ch)

/-- The bank idle timer closes a row (R513). -/
def execRowClose (ch bank : Nat) (s : State) : Host.Outcome State Fault Refusal :=
  .next (setDchan s ch { dchan s ch with open_ := kvPut 0 bank 0 (dchan s ch).open_ })

/-- A per-bank refresh finds the bank's row closed (R514). -/
def execDramRefresh (ch bank : Nat) (_atLimit : Bool) (s : State) : Host.Outcome State Fault Refusal :=
  let c := dchan s ch
  .next (if c.state = 1 then s
    else setDchan s ch { c with open_ := kvPut 0 bank 0 c.open_, refreshes := c.refreshes + 1 })

/-- MR4 sets the refresh rate (R494). -/
def execMr4Poll (ch code : Nat) (s : State) : Host.Outcome State Fault Refusal :=
  .next (setDchan s ch { dchan s ch with refreshRate := code })

/-- An idle channel enters self-refresh (R515): not while a pause is due, and not after PLN# qualification. -/
def execSelfRefreshEntry (ch : Nat) (s : State) : Host.Outcome State Fault Refusal :=
  let c := dchan s ch
  .next (if od s 0x9000 0x05 = 0 ∨ c.state ≠ 0 ∨ c.retrain ∨ s.power.hold ≠ .running then s
    else odBump (setDchan s ch { c with state := 1, open_ := [] }) 0x9010 0x05 ch)

/-! Retraining (R516 to R518). -/

/-- The next channel's retrain is due; one that is still due has been put off for a whole interval. -/
def execRetrainStart (s : State) : Host.Outcome State Fault Refusal :=
  let ch := s.dram.nextRetrain
  let c := dchan s ch
  .next (setDchan { s with dram.nextRetrain := (ch + 1) % 8 } ch
    (if c.retrain then { c with late := true } else { c with retrain := true, pauses := 0, again := false, late := false }))

/-- The retrain is over. -/
def retrainDone (s : State) (ch : Nat) : State :=
  let c := dchan s ch
  let s := odBump s 0x9010 0x02 ch
  let s := if c.again then loupe (odBump s 0x9010 0x04 ch) 225 0x90 1 [ch] else s
  setDchan s ch { c with retrain := false, pauses := 0, again := false, late := false, state := 0 }

/-- One pause (R516, R517): the third ends the retrain; a drift outside the range repeats it once, then asks for a full
retraining (R518). -/
def execRetrainPause (ch : Nat) (class0 : Bool) (drift : Int) (inRange : Bool) (s : State) :
    Host.Outcome State Fault Refusal :=
  let c := dchan s ch
  .next (if !c.retrain ∨ c.state = 3 ∨ s.power.hold ≠ .running ∨ (class0 ∧ !c.late) then s
    else
      let s := if class0 then odBump s 0x9010 0x03 ch else s
      match c.pauses with
      | 0 => setDchan s ch { c with pauses := 1 }
      | 1 =>
        if inRange then setDchan (odSet s 0x9010 0x06 ch (ofSigned 16 drift)) ch { c with pauses := 2 }
        else if !c.again then setDchan s ch { c with pauses := 0, again := true }
        else loupe (setDchan s ch { c with state := 3 }) 518 0x90 5 [ch]
      | _ => retrainDone s ch)

/-- The full retraining ends (R518). -/
def execFullRetraining (ch : Nat) (ok : Bool) (s : State) : Host.Outcome State Fault Refusal :=
  let c := dchan s ch
  .next (if c.state ≠ 3 then s
    else if ok then retrainDone (setDchan s ch { c with again := false }) ch
    else raise (loupe s 518 0x90 7 [ch]) 8 4)

/-! Scrub and initialisation (R503, R506). -/

/-- The scrub reads an initialised codeword and writes back a corrected one; a channel in self-refresh leaves it for
the batch. -/
def execScrubRead (address : Nat) (p : PathRes) (lastOfPass : Bool) (s : State) : Host.Outcome State Fault Refusal :=
  let l := dramLoc s.dram.ranks address
  if dramCapacity s ≤ address then .fault (.noSuchAddress address)
  else if !blockReady s (address / 65536) then .next s
  else
    let c := dchan s l.chan
    let s := if c.state = 1 then setDchan s l.chan { c with state := 0 } else s
    let s := if lastOfPass then
        let s := odBump s 0x9100 0x08
        if s.bist.selfTest = 3 then
          { s with bist.selfTest := 0, bist.selfTestLog := (2, 0) :: s.bist.selfTestLog }
        else s
      else s
    .next (match p with
      | .clean => s
      | .corrected second => pathCorrected s address l second
      | .uncorrectable h => pathUncorrectable s address h)

/-- A block is written with zero codewords in the background (R503). -/
def execDramInitBlock (block : Nat) (s : State) : Host.Outcome State Fault Refusal :=
  if dramCapacity s ≤ block * 65536 then .fault (.noSuchAddress (block * 65536)) else .next (initBlock s block)

end Sys2Proof.Machine
end

