-- ==== Sys2Proof/Machine/Pools.lean ====
section
/-! DEFINITION. The buffer pool manager: tiers, free lists, allocation, returns, rebuilds and timeouts (R508, R519 to
R529). -/

namespace Sys2Proof.Machine

/-! The pools after a reset (R519). -/

/-- Bytes of the tiers of the pools above p, which lie below it (log entry 40). -/
def tierOffset (s : State) (elem p : Nat) : Nat :=
  ((List.range 6).filter fun q => decide (p < q)).foldl (fun a q => a + od s 0x9200 elem q * bufSize q) 0

/-- A pool as the committed counts set it. -/
def freshPool (s : State) (p : Nat) : Pool :=
  let sram : Tier := { base := sramBase + tierOffset s 2 p, count := od s 0x9200 2 p }
  let dram : Tier := { base := tierOffset s 3 p, count := od s 0x9200 3 p }
  { sram := sram, dram := dram, lowest := sram.count + dram.count }

/-- Take every staging buffer that overlaps the len bytes at an address out of its pool (R508). -/
def removeStaging (s : State) (a len : Nat) : State :=
  (List.range 6).foldl (fun s p =>
    let v := pool s p
    setPool s p { v with sram := v.sram.remove (overlapping v.sram (bufSize p) a len) }) s

/-- The six pools, without the buffers of withdrawn frames and the staging buffers that BIST has not passed (R507,
R508). -/
def buildPools (s : State) : State :=
  let s := (List.range 6).foldl (fun s p => setPool s p (freshPool s p)) s
  let s := s.dram.withdrawn.foldl (fun s f => removeBuffers s (f * 4096)) s
  s.bist.taken.foldl (fun s a => removeStaging s a 1) s

/-! Pool states (R528). -/

def Pool.free (v : Pool) : Nat := v.sram.free + v.dram.free
def Pool.total (v : Pool) : Nat := v.sram.count + v.dram.count

/-- The free fraction is below a state's entry threshold. -/
def breached (s : State) (p : Nat) (v : Pool) (k : Nat) : Bool :=
  if k = 4 then v.free == 0 else decide (100 * v.free < od s 0x9200 (5 + k) p * v.total)

/-- The free fraction has not risen 2 points above a state's entry threshold. -/
def keeps (s : State) (p : Nat) (v : Pool) (k : Nat) : Bool :=
  if k = 4 then decide (100 * v.free < 100 + 2 * v.total)
  else decide (100 * v.free < (od s 0x9200 (5 + k) p + 2) * v.total)

/-- The state of R528: 0 normal, 1 warning, 2 back-pressure, 3 reserve, 4 empty. -/
def poolState (s : State) (p : Nat) (v : Pool) : Nat :=
  match [4, 3, 2, 1].find? fun k => breached s p v k || (decide (k ≤ v.state) && keeps s p v k) with
  | some k => k
  | none => 0

/-- Look at a pool's state again; an entry to the warning state records an event once. Where the 4 KiB pool gets tighter the
fold cache gives up a buffer (R144, log entry 113). -/
def updatePool (s : State) (p : Nat) : State :=
  let v := pool s p
  let st := poolState s p v
  let s := setPool s p { v with state := st, lowest := Nat.min v.lowest v.free }
  let s := if v.state = 0 ∧ 0 < st then loupe s 528 0x92 3 [p] else s
  if p = 1 ∧ v.state < st then cacheFree s else s

/-- Classes that a state grants (R528). -/
def granted (st cls : Nat) : Bool :=
  match st with
  | 0 | 1 => true
  | 2 => decide (cls ≤ 1)
  | 3 => cls == 0
  | _ => false

/-! Allocation (R521, R523, R525, R526, R529). -/

/-- Staging bytes that class 2 holds. -/
def windowSram (s : State) : Nat :=
  (List.range 6).foldl (fun a p => a + ((pool s p).sram.allocated.filter fun e => e.2 == 3).length * bufSize p) 0

/-- The tier of a request by its class: 0 staging SRAM, 1 DRAM (R521). -/
def tierOf (s : State) (p cls : Nat) : Nat :=
  let v := pool s p
  match cls with
  | 0 | 1 => if v.sram.head.isSome then 0 else 1
  | 2 => if windowSram s < od s 0x9000 0x0A * 1048576 then 0 else 1
  | _ => if v.dram.head.isSome then 1 else 0

def Pool.tier (v : Pool) (t : Nat) : Tier := if t = 0 then v.sram else v.dram
def Pool.setTier (v : Pool) (t : Nat) (x : Tier) : Pool := if t = 0 then { v with sram := x } else { v with dram := x }

/-- The allocation arbiter's choice: a timed-out class 0 request first, else class and rotation over the requester. -/
def poolPick (v : Pool) (rs : List Req) : Option Req :=
  match v.urgent with
  | some u => rs.find? fun r => r == u
  | none =>
    let open_ := rs.filter fun r => granted v.state r.cls
    match (open_.map (·.cls)).min? with
    | none => none
    | some k => match rotPick (v.ptr.getD k 0) ((open_.filter fun r => r.cls == k).map (·.port)) with
      | some x => open_.find? fun r => r.cls == k && r.port == x
      | none => none

/-- Requests wait, each counted once. -/
def poolWait (s : State) (p : Nat) (rs : List Req) : State :=
  let new := rs.filter fun r => !(pool s p).waiting.contains r
  odBump (setPool s p { pool s p with waiting := (pool s p).waiting ++ new }) 0x9200 0x0B p new.length

/-- Grant a request the head of its tier's list. A head that fails its check starts a rebuild of the tier. -/
def poolGrant (s : State) (p : Nat) (r : Req) (linkOk : Bool) : State :=
  let v := pool s p
  let t := tierOf s p r.cls
  if (v.tier t).rebuilding then s
  else match (v.tier t).take r.cls with
    | none => s
    | some (_, x) =>
      if !linkOk then
        loupe (odBump (setPool s p (v.setTier t { v.tier t with rebuilding := true })) 0x9200 0x0D p) 525 0x92 5 [p, t]
      else
        let v := v.setTier t x
        let v := { v with ptr := v.ptr.set r.cls (r.port + 1), waiting := v.waiting.filter fun q => q != r
                          urgent := if v.urgent = some r then none else v.urgent }
        setPool s p v

/-- A grant of a pool's allocation arbiter (R526). -/
def execBufferAllocate (p : Nat) (requests : List Req) (linkOk : Bool) (s : State) : Host.Outcome State Fault Refusal :=
  let s := poolWait s p requests
  .next (match poolPick (pool s p) (pool s p).waiting with
    | none => updatePool s p
    | some r => updatePool (poolGrant s p r linkOk) p)

/-- The buffer after b on a tier's free list (R522). -/
def Tier.following (t : Tier) (b : Nat) : Option Nat :=
  if t.fresh ≤ b then t.nextFresh (t.removed.length + 1) (b + 1)
  else match (t.stack.dropWhile fun x => x != b).drop 1 with
    | x :: _ => some x
    | [] => t.nextFresh (t.removed.length + 1) t.fresh

/-- The 16-byte link that a free buffer of a tier holds (R522), as one little-endian number. -/
def freeLink (s : State) (p t b : Nat) : Nat :=
  let x := (pool s p).tier t
  atByte 0 8 (match x.following b with | some y => x.base + y * bufSize p | none => 0) +
  atByte 8 4 0x4B4E4C46 + atByte 12 1 p + atByte 13 1 t

/-! Returns (R508, R524). -/

/-- The tier and buffer number that an address names. -/
def bufferAt (v : Pool) (p a : Nat) : Option (Nat × Nat) :=
  [0, 1].findSome? fun t =>
    let x := v.tier t
    if x.base ≤ a ∧ (a - x.base) % bufSize p = 0 ∧ (a - x.base) / bufSize p < x.count then
      some (t, (a - x.base) / bufSize p)
    else none

/-- A returned buffer is pushed at the head, or removed where it is faulty or withdrawn; any other return is
refused. -/
def execBufferReturn (p address requester : Nat) (faulty : Bool) (s : State) : Host.Outcome State Fault Refusal :=
  let v := pool s p
  let refuse (s : State) : State := loupe (odBump s 0x9200 0x0E p) 524 0x92 6 [p, requester]
  .next (match bufferAt v p address with
    | none => refuse s
    | some (t, b) =>
      let x := v.tier t
      if kvGet 0 b x.allocated = 0 then refuse s
      else
        let out := faulty || x.toRemove.contains b
        let x := { x with allocated := kvPut 0 b 0 x.allocated, toRemove := x.toRemove.filter fun y => y != b
                          stack := if out then x.stack else b :: x.stack
                          removed := if out then addTo b x.removed else x.removed }
        let s := setPool s p (v.setTier t x)
        let s := if out ∧ t = 0 then odBump s 0x9100 0x07 else s
        updatePool s p)

/-- The rebuild ends: the free list is the free buffers in ascending address (R525). -/
def execFreeListRebuildDone (p t : Nat) (s : State) : Host.Outcome State Fault Refusal :=
  let v := pool s p
  let x := v.tier t
  let free := (List.range x.fresh).filter fun b => kvGet 0 b x.allocated == 0 && !x.removed.contains b
  .next (if !x.rebuilding then s else setPool s p (v.setTier t { x with rebuilding := false, stack := free }))

/-- A waiting request passes its class's timeout (R529). Class 1 is a host read, which ends with Command
Interrupted. -/
def execBufferWaitTimeout (p : Nat) (r : Req) (rid : Nat) (s : State) : Host.Outcome State Fault Refusal :=
  let v := pool s p
  let drop (s : State) : State :=
    setPool s p { pool s p with waiting := (pool s p).waiting.filter fun q => q != r }
  .next (if !v.waiting.contains r then s
    else
      let s := odBump s 0x9200 0x0C p
      match r.cls with
      | 0 => loupe (setPool s p { v with urgent := some r }) 529 0x92 6 [p, r.port]
      | 1 =>
        let s := drop s
        match cmd? s rid with
        | some k => finishCmd { s with reads := s.reads.filter fun x => x.rid != rid } { k with status := 0x021 }
        | none => s
      | 2 => loupe s 529 0x92 4 [p, r.port]
      | _ => drop s)

end Sys2Proof.Machine
end

