-- ==== Sys2Proof/Machine/Loop.lean ====
section
/-! DEFINITION. The loop engines: ticks, instructions, faults, program loads and the return of an engine (R441 to
R451). -/

namespace Sys2Proof.Machine

/-! Fields of an instruction word (R446). -/

def lwOp (w : Word32) : Nat := (w.extractLsb' 27 5).toNat
def lwA (w : Word32) : Bool := w.getLsbD 26
def lwReserved (w : Word32) : Nat := (w.extractLsb' 24 2).toNat
def lwM (w : Word32) : Nat := (w.extractLsb' 16 8).toNat
def lwN (w : Word32) : Nat := (w.extractLsb' 8 8).toNat
def lwX (w : Word32) : Nat := (w.extractLsb' 0 8).toNat
def lwXs (w : Word32) : Int := (w.extractLsb' 0 8).toInt
def lwImm (w : Word32) : Int := (w.extractLsb' 0 16).toInt

/-- Accumulator a of an engine. -/
def Engine.acc (e : Engine) (a : Bool) : Int := if a then e.a1 else e.a0
def Engine.setAcc (e : Engine) (a : Bool) (v : Int) : Engine := if a then { e with a1 := v } else { e with a0 := v }
/-- Data word of an engine. -/
def Engine.word (e : Engine) (m : Nat) : Int := kvGet 0 m e.d

/-- Code length N of the program in an engine; without one it counts as the longest (log entry 24). -/
def loopLen (e : Engine) : Nat := if e.code = [] then 256 else e.code.length

/-! Faults (R447, R450). -/

/-- An engine stops with a fault of the given cause: its outputs stand from the last end, and it leaves service; a
fault in the shadow phase returns it to phase 0 (R451). -/
def engineFault (s : State) (k cause : Nat) : State :=
  let e := eng s k
  let s := setEng s k { e with running := false, phase := if e.phase = 2 then 0 else 4 }
  loupe (odSet s 0x8210 0x04 k cause) 447 0x82 5 [k, cause]

/-- The command of opcode op may run the word: the word stands at the engine's index where the program's words are held,
and its opcode is not that of another command (log entry 18). -/
def loopMeets (e : Engine) (op : Nat) (w : Word32) : Bool :=
  e.code.getD e.pc w == w && (lwOp w == op || !(decide (lwOp w ≤ 0x10) || lwOp w == 0x1F))

/-- Run one instruction of an engine: it needs a run. More than 4,096 instructions, an undefined opcode, or a reserved
field fault the engine (R447). -/
def loopStep (s : State) (k op : Nat) (w : Word32) (body : State → Engine → State) : State :=
  let e := eng s k
  if !e.running ∨ !loopMeets e op w then s
  else if 4096 ≤ e.count then engineFault s k 5
  else if lwOp w ≠ op then engineFault s k 1
  else if lwReserved w ≠ 0 then engineFault s k 2
  else
    let e := { e with count := e.count + 1, pc := e.pc + 1 }
    body (setEng s k e) e

/-- Put an exact result into an accumulator: a value past a limit stays at it and is counted (R445). -/
def loopAcc (k op : Nat) (w : Word32) (s : State) (f : Engine → Int) : State :=
  loopStep s k op w fun s e =>
    let v := f e
    let s := setEng s k (e.setAcc (lwA w) (accSat v))
    if accOver v then odBump s 0x8210 0x07 k else s

/-- Write a data word: words 0x00 to 0x1F are protected (R447). -/
def loopWord (k op : Nat) (w : Word32) (s : State) (f : Engine → Int) : State :=
  loopStep s k op w fun s e =>
    if lwM w < 0x20 then engineFault s k 3
    else setEng s k { e with d := kvPut 0 (lwM w) (f e) e.d }

/-! Instructions (R447). -/

def execLoopNop (k : Nat) (w : Word32) (s : State) : Host.Outcome State Fault Refusal :=
  .next (loopStep s k 0x00 w fun s _ => s)

/-- lda: A[a] = D[m] × 2^15. -/
def execLda (k : Nat) (w : Word32) (s : State) : Host.Outcome State Fault Refusal :=
  .next (loopAcc k 0x01 w s fun e => e.word (lwM w) * 2 ^ 15)

/-- add: A[a] + D[m] × 2^15. -/
def execAdd (k : Nat) (w : Word32) (s : State) : Host.Outcome State Fault Refusal :=
  .next (loopAcc k 0x02 w s fun e => e.acc (lwA w) + e.word (lwM w) * 2 ^ 15)

/-- sub: A[a] − D[m] × 2^15. -/
def execSub (k : Nat) (w : Word32) (s : State) : Host.Outcome State Fault Refusal :=
  .next (loopAcc k 0x03 w s fun e => e.acc (lwA w) - e.word (lwM w) * 2 ^ 15)

/-- mpy: D[m] × D[n]. -/
def execMpy (k : Nat) (w : Word32) (s : State) : Host.Outcome State Fault Refusal :=
  .next (loopAcc k 0x04 w s fun e => e.word (lwM w) * e.word (lwN w))

/-- mac: A[a] + D[m] × D[n]. -/
def execMac (k : Nat) (w : Word32) (s : State) : Host.Outcome State Fault Refusal :=
  .next (loopAcc k 0x05 w s fun e => e.acc (lwA w) + e.word (lwM w) * e.word (lwN w))

/-- msu: A[a] − D[m] × D[n]. -/
def execMsu (k : Nat) (w : Word32) (s : State) : Host.Outcome State Fault Refusal :=
  .next (loopAcc k 0x06 w s fun e => e.acc (lwA w) - e.word (lwM w) * e.word (lwN w))

/-- sha: A[a] shifted by x; a shift outside −16 to +15 leaves a free value (log entry 5). -/
def execSha (k : Nat) (w : Word32) (s : State) : Host.Outcome State Fault Refusal :=
  .next (if -16 ≤ lwXs w ∧ lwXs w ≤ 15 then loopAcc k 0x07 w s fun e => accShift (e.acc (lwA w)) (lwXs w)
    else loopStep s k 0x07 w fun s e => useFree (setEng s k (e.setAcc (lwA w) (toSigned 40 (freeVal s)))))

/-- sts: D[m] = A[a] converted to Q15; a conversion that saturates sets S. -/
def execSts (k : Nat) (w : Word32) (s : State) : Host.Outcome State Fault Refusal :=
  .next (loopStep s k 0x08 w fun s e =>
    let r := accRound (e.acc (lwA w))
    if lwM w < 0x20 then engineFault s k 3
    else setEng s k { e with d := kvPut 0 (lwM w) (q15Sat r) e.d, s := e.s || (q15Sat r != r) })

/-- clp: A[a] limited to D[m] × 2^15 at least and D[n] × 2^15 at most; sets C when it limits. -/
def execClp (k : Nat) (w : Word32) (s : State) : Host.Outcome State Fault Refusal :=
  .next (loopStep s k 0x09 w fun s e =>
    let a := e.acc (lwA w)
    let v := Min.min (Max.max a (e.word (lwM w) * 2 ^ 15)) (e.word (lwN w) * 2 ^ 15)
    setEng s k { e.setAcc (lwA w) v with c := e.c || (v != a) })

def execMin (k : Nat) (w : Word32) (s : State) : Host.Outcome State Fault Refusal :=
  .next (loopWord k 0x0A w s fun e => Min.min (e.word (lwM w)) (e.word (lwN w)))

def execMax (k : Nat) (w : Word32) (s : State) : Host.Outcome State Fault Refusal :=
  .next (loopWord k 0x0B w s fun e => Max.max (e.word (lwM w)) (e.word (lwN w)))

/-- ldi: D[m] = bits 15:0. -/
def execLdi (k : Nat) (w : Word32) (s : State) : Host.Outcome State Fault Refusal :=
  .next (loopWord k 0x0C w s fun _ => lwImm w)

def execMov (k : Nat) (w : Word32) (s : State) : Host.Outcome State Fault Refusal :=
  .next (loopWord k 0x0D w s fun e => e.word (lwN w))

/-- cmp: Z and N from D[m] − D[n], computed exactly. -/
def execCmp (k : Nat) (w : Word32) (s : State) : Host.Outcome State Fault Refusal :=
  .next (loopStep s k 0x0E w fun s e =>
    let r := e.word (lwM w) - e.word (lwN w)
    setEng s k { e with z := r == 0, n := decide (r < 0) })

/-- br: whether a condition the spec does not define holds is a free value (log entry 5). -/
def execLoopBr (k : Nat) (w : Word32) (s : State) : Host.Outcome State Fault Refusal :=
  .next (loopStep s k 0x0F w fun s e =>
    let cond := loopCond e (e.acc (lwA w)) (lwN w)
    let taken := cond.getD (freeVal s % 2 == 1)
    let s := if cond.isNone then useFree s else s
    if !taken then s
    else if loopLen e ≤ lwX w then engineFault s k 4
    else setEng s k { e with pc := lwX w })

/-- adi: D[m] + x, saturating at 16 bits. -/
def execAdi (k : Nat) (w : Word32) (s : State) : Host.Outcome State Fault Refusal :=
  .next (loopWord k 0x10 w s fun e => q15Sat (e.word (lwM w) + lwXs w))

/-- Outputs of a run in service (R443): the grant fraction for the next frame boundary, the level request, the mailbox
and the flag word. Before the first frame boundary of a returned engine only the fraction counts (R451). -/
def loopOutputs (s : State) (k : Nat) (e : Engine) : State :=
  let s := if k = 0 then { s with loop.u := e.word 0x20 } else s
  if e.late then s
  else
    let s := if k = 0 then
        { s with loop.levelReq := (clampInt 0 5 (e.word 0x21)).toNat, loop.mailbox0 := e.word 0x22
                 pwr.wakeLevel := false }
      else { s with loop.mailbox := e.word 0x22 }
    let fl := ofSigned 16 (e.word 0x23)
    if fl.testBit 0 then loupe s 443 0x82 3 [k, fl / 256] else s

/-- end: the outputs take effect, and the run ends; those of a shadow run are discarded (R443, R451). -/
def execLoopEnd (k : Nat) (w : Word32) (s : State) : Host.Outcome State Fault Refusal :=
  .next (loopStep s k 0x1F w fun s e =>
    let s := setEng s k { e with running := false, lastD := e.d, ticks := e.ticks + 1
                                 shadow := if e.phase = 2 then e.shadow + 1 else e.shadow }
    if e.phase = 3 then loopOutputs s k e else s)

/-! Program loads (R212, R448, R449). -/

/-- A signed image names a usable key: the digest of its public key is the slot's, the slot is not revoked, the
security version is at least the slot's minimum, and the signature verifies (R212). -/
def keyAccepts (s : State) (slot version key sig digest : Nat) : Bool :=
  decide (slot ≤ 3) && Config.sha384 96 key == Config.keySlotDigest slot && !(od s 0x3200 0x04).testBit slot &&
  decide (od s 0x3200 0x05 slot ≤ version) && Config.ecdsaVerify key sig digest

def imgN (v : Nat) : Nat := bytesAt 12 2 v
/-- Offset of the coefficient block. -/
def imgBlock (v : Nat) : Nat := 16 + 4 * imgN v + 192
def imgK (v : Nat) : Nat := bytesAt (imgBlock v) 2 v
/-- Length of an image. -/
def imgLen (v : Nat) : Nat := imgBlock v + 20 + 2 * imgK v + 4

/-- A loop program image is accepted for an engine (R448, R449). -/
def loopImageOk (s : State) (k v : Nat) : Bool :=
  let n := imgN v
  let b := imgBlock v
  bytesAt 0 4 v == 0x504F4F4C && bytesAt 4 2 v == 1 && (bytesAt 6 1 v).testBit k && decide (1 ≤ n) &&
  decide (n ≤ 256) && bytesAt 14 1 v / 2 == 0 && bytesAt 15 1 v == 0 && decide (1 ≤ imgK v) && decide (imgK v ≤ 208) &&
  bytesAt (b + 2) 2 v == 0 &&
  keyAccepts s (bytesAt 7 1 v) (bytesAt 8 4 v) (bytesAt (16 + 4 * n) 96 v) (bytesAt (16 + 4 * n + 96) 96 v)
    (Config.sha384 (16 + 4 * n + 96) (bytesAt 0 (16 + 4 * n + 96) v)) &&
  bytesAt (b + 20 + 2 * imgK v) 4 v == crc32c (20 + 2 * imgK v) (bytesAt b (20 + 2 * imgK v) v)

/-- An engine with an image in place of its program: the accumulators stay where flag bit 0 is set, and the data words
take the block's values (R449). -/
def loadImage (e : Engine) (v : Nat) : Engine :=
  let b := imgBlock v
  let keep := (bytesAt 14 1 v).testBit 0
  let code := (List.range (imgN v)).map fun i => BitVec.ofNat 32 (bytesAt (16 + 4 * i) 4 v)
  let data := (List.range (imgK v)).map fun i => toSigned 16 (bytesAt (b + 20 + 2 * i) 2 v)
  let io := kvDrop (fun m => decide (0x30 ≤ m)) e.d
  { e with code := code, d := kvPutRun 0 0x30 data io, image := none, tickNo := 0, ticks := 0
           a0 := if keep then e.a0 else toSigned 40 (bytesAt (b + 4) 8 v)
           a1 := if keep then e.a1 else toSigned 40 (bytesAt (b + 12) 8 v) }

/-- Load a committed image: it waits for the next tick, and is measured into MS12 after boot stage 2 (R408, R449). A
refused one leaves the program as it is (R212). -/
def loadLoop (s : State) (k v : Nat) : State :=
  if loopImageOk s k v then
    let dig := Config.sha384 (imgLen v) v
    let s := setEng s k { eng s k with image := some v }
    extend (odSave s 0x8210 0x06 k dig) 12 dig
  else loupe s 212 0x82 4 [k]

def execLoopProgramLoad (k image : Nat) (s : State) : Host.Outcome State Fault Refusal := .next (loadLoop s k image)

/-! The tick (R442, R444). -/

/-- The loop engines are clocked: not before stage 3, and not in SL2 (R428). -/
def loopUp (s : State) : Bool :=
  (s.rst.life == .stage3 || s.rst.life == .service || s.rst.life == .maintenance) && decide (s.pwr.sleep < 2)

/-- A sensor input as its word (R437, R444): power in 256 W, temperature in 128 °C; the spec gives kinds 0 and 5 no
unit, and their words are free values. -/
def sensorWord (s : State) (i : Nat) : Int :=
  let v := toSigned 32 (od s 0x8110 0x04 i)
  match od s 0x8110 0x01 i with
  | 1 | 2 => toQ15 v 256000
  | 3 | 4 => toQ15 v 128000
  | _ => toSigned 16 (Config.freeValue (s.free + i))

/-- Flash allowance A_F as a word. -/
def flashWord (s : State) : Int := toQ15 (od s 0x8100 0x08 * 1000) 256000

/-- Word 0x19 of an engine: engine 0 reads A_F in single mode and while engine 1 is out (R440, R450). -/
def mailWord (s : State) (k : Nat) : Int :=
  if k = 1 then s.loop.mailbox0
  else if s.loop.mode = 1 ∨ (eng s 1).phase ≠ 3 then flashWord s
  else s.loop.mailbox

/-- Words 0x00 to 0x1F of an engine. -/
def inputWords (s : State) (k : Nat) : List Int :=
  (List.range 16).map (sensorWord s) ++
  [toQ15 s.pwr.composite 128000, toQ15 s.pwr.dieMax 128000, toQ15 s.pwr.cM 256000, flashWord s,
   toQ15 s.pwr.pF 256000, toQ15 s.pwr.pM 256000, toQ15 (Max.max 0 (s.pwr.pM - s.pwr.pF)) 256000,
   s.pwr.level, s.loop.uInForce, mailWord s k, q15Sat (toSigned 16 (od s 0x8200 0x03) * 256), s.sched.slot, 0, 0, 0, 0]

/-- Latch the inputs of an engine. -/
def latch (s : State) (k : Nat) : State :=
  setEng s k { eng s k with d := kvPutRun 0 0 (inputWords s k) (eng s k).d }

/-- Start a run: flags are cleared (R447). -/
def startRun (s : State) (k : Nat) : State :=
  let e := eng s k
  if e.phase = 2 ∨ e.phase = 3 then
    setEng s k { e with running := true, pc := 0, count := 0, z := false, n := false, s := false, c := false }
  else s

/-- An accepted program replaces the running one at the tick (R449). -/
def swapProgram (s : State) (k : Nat) : State :=
  match (eng s k).image with
  | some v => setEng s k (loadImage (eng s k) v)
  | none => s

/-- A run that has not ended at the next tick is a fault (R447). -/
def overrun (s : State) (k : Nat) : State := if (eng s k).running then engineFault s k 6 else s

/-- The tick: overruns, program swaps, latched inputs, and the runs that the loop mode starts (R441, R442). -/
def execLoopTick (s : State) : Host.Outcome State Fault Refusal :=
  .next (if !loopUp s then s
    else
      let s := swapProgram (swapProgram (overrun (overrun s 0) 1) 0) 1
      let s := latch (latch s 0) 1
      let s := { s with free := s.free + 16, loop.e1.tickNo := s.loop.e1.tickNo + 1 }
      let s := if s.loop.mode = 0 then s else startRun s 0
      if s.loop.mode = 2 ∧ s.loop.e1.tickNo % (Nat.max 1 (od s 0x8200 0x02)) = 0 then startRun s 1 else s)

def execLoopOverrun (k : Nat) (s : State) : Host.Outcome State Fault Refusal := .next (overrun s k)

/-- A run has executed more than 4,096 instructions (R447). -/
def execLoopInstructionLimit (k : Nat) (s : State) : Host.Outcome State Fault Refusal :=
  .next (if (eng s k).running ∧ 4096 ≤ (eng s k).count then engineFault s k 5 else s)

/-! The return of an engine (R451). -/

/-- A committed return starts the self-test. -/
def returnEngine (s : State) (k : Nat) : State :=
  let e := eng s k
  if e.phase = 0 ∨ e.phase = 4 then setEng s k { e with phase := 1, running := false } else s

def execEngineReturn (k : Nat) (s : State) : Host.Outcome State Fault Refusal := .next (returnEngine s k)

/-- The self-test's signature: a match enters the shadow phase, with A1 of engine 0 preset to the grant fraction in
force. -/
def execEngineSelfTestDone (k signature : Nat) (s : State) : Host.Outcome State Fault Refusal :=
  let e := eng s k
  .next (if e.phase ≠ 1 then s
    else if signature = Config.goldenLoop k then
      setEng s k { e with phase := 2, shadow := 0, a1 := if k = 0 then s.loop.uInForce * 2 ^ 15 else e.a1 }
    else loupe (odSet (setEng s k { e with phase := 0 }) 0x8210 0x04 k 7) 451 0x82 5 [k])

/-- After 1,024 shadow runs without a fault the engine is in service. -/
def execEngineShadowDone (k : Nat) (s : State) : Host.Outcome State Fault Refusal :=
  let e := eng s k
  .next (if e.phase = 2 ∧ 1024 ≤ e.shadow then setEng s k { e with phase := 3, late := true } else s)

end Sys2Proof.Machine
end

