-- ==== Sys2Proof/Machine/Power.lean ====
section
/-! DEFINITION. Performance levels, the VDD regulator, sleep states, sensors, thermal limits and the set-point (R249,
R250, R423 to R440, R578 to R581). -/

namespace Sys2Proof.Machine

/-! Levels (R423 to R426). -/

/-- VDD of a level in mV (R423). -/
def levelMv (l : Nat) : Nat := [850, 800, 750, 700, 620, 550].getD l 700

/-- Core and fabric clock of a level in MHz (R423). -/
def levelMhz (l : Nat) : Nat × Nat :=
  [(3200, 2000), (2800, 1800), (2400, 1600), (2000, 1400), (1400, 1000), (800, 600)].getD l (2000, 1400)
/-- Body bias of a level in mV, forward positive (R423). -/
def levelBias (l : Nat) : Int := [150, 150, 0, 0, -300, -300].getD l 0
/-- SRAM wordline underdrive is on (R423). -/
def underdrive (l : Nat) : Bool := decide (4 ≤ l)

/-- Clamp a level to the allowed range, in which a regulator failure moves the fastest one (R426, R579). -/
def clampLevel (s : State) (l : Nat) : Nat :=
  Nat.max (Nat.max (od s 0x8000 0x02) s.pwr.pgCap) (Nat.min l (od s 0x8000 0x03))

/-- The level that R426 chooses. -/
def levelChoice (s : State) : Nat :=
  if holding s then 3
  else if s.pwr.critical then od s 0x8000 0x03
  else if s.pwr.wakeLevel then clampLevel s 3
  else if s.loop.mode = 0 then clampLevel s (od s 0x8000 0x06)
  else if (eng s 0).phase ≠ 3 then clampLevel s (od s 0x8200 0x05)
  else clampLevel s s.loop.levelReq

/-- The VDD alarm window around a span of targets, 8% to each side, in tenths of a mV (R580, R581). -/
def setWindow (s : State) (lo hi : Nat) : State :=
  { s with pwr.alarmLo := lo * 92 / 10, pwr.alarmHi := hi * 108 / 10 }

/-- The power manager accepts the newest request (R424, R425): toward a faster level the regulator is commanded first,
toward a slower one the clocks and the body bias come before the voltage. -/
def execLevelChangeStart (s : State) : Host.Outcome State Fault Refusal :=
  let t := levelChoice s
  .next (if s.pwr.step ≠ .idle ∨ t = s.pwr.level ∨ s.pwr.sleep ≠ 0 then s
    else
      let s := setWindow s (Nat.min (levelMv t) (levelMv s.pwr.level)) (Nat.max (levelMv t) (levelMv s.pwr.level))
      { s with pwr.target := t, pwr.step := .voltage, pwr.prevVsel := s.pwr.vsel, pwr.vsel := t
               pwr.clk := Nat.max s.pwr.clk t, pwr.bias := Nat.max s.pwr.bias t })

/-- The last action is done, after the voltage step: the new level is in force. -/
def execLevelChangeDone (s : State) : Host.Outcome State Fault Refusal :=
  .next (if s.pwr.step ≠ .bias then s
    else odBump { s with pwr.level := s.pwr.target, pwr.clk := s.pwr.target, pwr.bias := s.pwr.target
                         pwr.step := .idle } 0x8000 0x05)

/-- VDD_PG rises: the voltage step is over, and the window is the new target's (R579, R581). -/
def execVddPgRise (s : State) : Host.Outcome State Fault Refusal :=
  let s := { s with pwr.vddPg := true }
  .next (if s.pwr.step = .voltage then
      setWindow { s with pwr.step := .bias } (levelMv s.pwr.target) (levelMv s.pwr.target)
    else s)

/-- VDD_PG is still low 1 ms after a voltage step (R579): the previous code is driven, the level in force stays, and
no faster one is allowed until the next reset. -/
def execVddPgTimeout (s : State) : Host.Outcome State Fault Refusal :=
  .next (if s.pwr.step ≠ .voltage then s
    else
      let l := s.pwr.level
      let s := { s with pwr.vsel := s.pwr.prevVsel, pwr.clk := l, pwr.bias := l, pwr.target := l, pwr.step := .idle, pwr.pgCap := l }
      loupe (odBump (setWindow s (levelMv l) (levelMv l)) 0xB000 0x06) 579 0xB0 5 [l])

/-- VDD_PG falls: an event while no change is running (R579). -/
def execVddPgFall (s : State) : Host.Outcome State Fault Refusal :=
  let s := { s with pwr.vddPg := false }
  .next (if s.pwr.step = .idle then loupe s 579 0xB0 5 [] else s)

/-! Sleep requests (R429, R430). -/

/-- A die runs or has queued operations. -/
def dieActive (s : State) : Bool :=
  s.dies.any fun e => e.2.job.isSome || !e.2.queue.isEmpty || !e.2.reading.isEmpty ||
    (e.2.st == .erasing || e.2.st == .suspending || e.2.st == .resuming)

/-- Commands outstanding on any function. -/
def hostBusy (s : State) : Bool := !s.host.cmds.isEmpty || !s.host.granted.isEmpty

/-- The deepest state that a standing request names, limited to the ceiling. -/
def sleepAim (s : State) : Nat :=
  Nat.min (od s 0x8010 0x03) (Nat.max (Nat.max s.pwr.idleReq s.pwr.nvmeReq) (Nat.max s.pwr.pciReq s.pwr.mgmtReq))

/-- Blocks asked for a state, in order (R431). -/
def sleepBlocks (level : Nat) : List Nat := if level ≤ 1 then [1, 2, 5, 6, 8] else [1, 2, 3, 4, 5, 6, 7, 8, 9]

/-- A step that cannot be abandoned runs (R431): sanitize or format, key rotation, resync copy, script load, lens
probation. -/
def stepRuns (s : State) : Bool :=
  s.host.sanitizeStatus == 2 || (s.nss.any fun n => n.ending.isSome || n.rot.isSome) || (s.chans.any fun c => c.2.pending.isSome) ||
  (s.host.fns.any fun f => f.2.lens == .probation) || (pairRole s == 1 && pairPhase s == 3)

/-- A background step runs (R429). -/
def backgroundRuns (s : State) : Bool :=
  stepRuns s || s.dies.any fun e => e.2.rewrites.any fun r => r.spare.isSome && decide (r.step < 3)

/-- The idle timer expires with nothing outstanding (R429). -/
def execIdleTimerExpiry (s : State) : Host.Outcome State Fault Refusal :=
  .next (if od s 0x8010 0x04 = 0 ∨ hostBusy s ∨ dieActive s ∨ backgroundRuns s then s else { s with pwr.idleReq := 1 })

/-- The condition under which a block refuses (R431). -/
def mustRefuse (s : State) (b : Nat) : Bool :=
  match b with
  | 1 => hostBusy s
  | 2 => stepRuns s
  | 3 => pairRole s != 0 && s.pair.linkUp && pairPhase s != 0
  | 4 => s.casc.members.any fun m => m.2.linkUp
  | 5 => s.chans.any fun c => c.2.state == 1 || c.2.state == 2
  | 6 => s.loupe.flushing
  | _ => false

/-- A block that never refuses; the PCIe port refuses only outside D3hot, where its answer says whether the link is in
L1.2 (log entry 57). -/
def neverRefuses (s : State) (b : Nat) : Bool := b == 7 || b == 8 || (b == 9 && s.host.d3hot)

/-- A die operation runs, which the scheduler waits for before it agrees; a suspended erase stays suspended (R431). -/
def dieRuns (s : State) : Bool :=
  s.dies.any fun e => e.2.job.isSome || !e.2.reading.isEmpty ||
    (e.2.st == .erasing || e.2.st == .suspending || e.2.st == .resuming)

/-- Hold-off reported by a block, in µs; the FTL reports its remaining step time (R431). -/
def blockHoldOff (b ftl : Nat) : Nat :=
  match b with
  | 1 | 9 => 1000
  | 2 => ftl
  | 3 | 4 => 0xFFFFFFFF
  | 5 => 100000
  | 6 => 5000
  | _ => 0

/-- Start entering the state aimed for: SL3 runs the orderly shutdown first (R429, R431). -/
def enterSleep (s : State) : State :=
  -- work withdraws the idle timer's request (R429, log entry 96)
  let s := if hostBusy s ∨ dieActive s then { s with pwr.idleReq := 0 } else s
  let aim := sleepAim s
  if aim ≤ s.pwr.sleep ∨ s.pwr.entering.isSome ∨ s.power.hold ≠ .running ∨ s.rst.life ≠ .service then s
  else if aim = 3 ∧ s.power.shutdown ≠ 2 then
    if s.power.shutdown = 0 then loupeFlush { s with power.shutdown := 1, power.shutdownFn := 0 } else s
  else { s with pwr.entering := some aim, pwr.asked := 1, pwr.stopped := [] }

def execSleepEntry (s : State) : Host.Outcome State Fault Refusal := .next (enterSleep s)

/-- A refusal rolls back the blocks already stopped (R432); a management request for the state being entered fails, and one
that a shallower state meets stands. -/
def rollBack (s : State) (b holdOff : Nat) : State :=
  let m := match s.pwr.entering with
    | some l => if l ≤ s.pwr.mgmtReq then 0 else s.pwr.mgmtReq
    | none => s.pwr.mgmtReq
  let s := { s with pwr.entering := none, pwr.stopped := [], pwr.asked := 0, pwr.mgmtReq := m
                    pwr.retryDue := s.pwr.idleReq != 0 || s.pwr.nvmeReq != 0 || s.pwr.pciReq != 0 }
  let s := odSet (odSet (odSet s 0x8010 0x02 0 m) 0x8010 0x05 0 b) 0x8010 0x06 0 holdOff
  loupe (odBump s 0x8010 0x07) 432 0x80 2 [b]

/-- The state is reached (R428, R433): for SL2 the save is written, DRAM is in self-refresh, and VDD is at 0.55 V. -/
def fallAsleep (s : State) (level : Nat) : State :=
  let s := { s with pwr.sleep := level, pwr.entering := none, pwr.asked := 0 }
  if level ≤ 1 then s
  else
    let s := (List.range 8).foldl (fun s c => setDchan s c { dchan s c with state := 1, open_ := [] }) s
    let s := setWindow s 550 550
    useFree { s with pwr.saveArea := if level = 2 then some (freeVal s % 2 ^ 32) else s.pwr.saveArea, pwr.vsel := 5, pwr.clk := 5, pwr.bias := 5, pwr.level := 5
                     pwr.target := 5, pwr.step := .idle, power.armed := false, pins.clkreq := false
                     loop.e0.running := false, loop.e1.running := false }

/-- The next block to ask. -/
def nextBlock (level b : Nat) : Option Nat := (sleepBlocks level).find? fun x => decide (b < x)

/-- The block being asked answers (R431). -/
def blockAnswers (s : State) (agrees : Bool) (ftl : Nat) : State :=
  match s.pwr.entering with
  | none => s
  | some level =>
    let b := s.pwr.asked
    -- for SL2 and SL3 the FTL agrees only once the protected set is programmed (R261)
    if b = 2 ∧ 2 ≤ level ∧ agrees ∧ !(drained s && (partialUnits s).isEmpty) then s
    else if b = 5 ∧ agrees ∧ dieRuns s then s
    else if (agrees && !mustRefuse s b) || neverRefuses s b then
      let s := { s with pwr.stopped := s.pwr.stopped ++ [b] }
      match nextBlock level b with
      | some x => { s with pwr.asked := x }
      | none => fallAsleep s level
    else rollBack s b (blockHoldOff b ftl)

def execSleepBlockAnswer (agrees : Bool) (holdOffUs : Nat) (s : State) : Host.Outcome State Fault Refusal :=
  .next (blockAnswers s agrees holdOffUs)

/-- A block has not answered within 10 ms (R431): the FTL's remaining step time is not known then (log entry 5). -/
def execSleepAnswerTimeout (s : State) : Host.Outcome State Fault Refusal :=
  .next (if s.pwr.entering.isNone then s
    else useFree (rollBack s s.pwr.asked (blockHoldOff s.pwr.asked (freeVal s % 2 ^ 32))))

/-- After the hold-off a standing request is tried again (R432). -/
def execSleepRetry (s : State) : Host.Outcome State Fault Refusal :=
  .next (if s.pwr.retryDue then enterSleep { s with pwr.retryDue := false } else s)

/-! Waking (R434, R435). -/

/-- Events of R434 in the order of its table, and the states each wakes from. -/
def wakesFrom (event level : Nat) : Bool :=
  match event with
  | 0 | 3 | 6 | 7 => level == 1 || level == 2
  | 1 => level == 1
  | 2 => true
  | 4 => level == 3
  | 5 => level == 2
  | _ => false

/-- Requests for a deeper state than SL1 end with a wake; a PCIe transaction finds the PF in D3hot no more (log entry
57). -/
def clearDeep (event : Nat) (s : State) : State :=
  let keep (r : Nat) : Nat := if r ≤ 1 then r else 0
  { s with pwr.idleReq := keep s.pwr.idleReq, pwr.nvmeReq := keep s.pwr.nvmeReq, pwr.pciReq := keep s.pwr.pciReq
           pwr.mgmtReq := keep s.pwr.mgmtReq, host.d3hot := s.host.d3hot && event != 0 }

/-- Wake from SL2 (R433, R435): each sequencer context afresh, at PL3, with DRAM out of self-refresh and hold-up armed again; a save that fails its
CRC is a device reset. -/
def wakeRetained (s : State) (crcOk : Bool) : State :=
  let s := { s with pwr.sleep := 0, pins.clkreq := true }
  if !crcOk then raise s 8 6
  else
    let s := (List.range 8).foldl (fun s c => setDchan s c { dchan s c with state := 0 }) s
    let s := setWindow s 700 700
    { s with ctxs := [], pwr.saveArea := none, pwr.vsel := 3, pwr.clk := 3, pwr.bias := 3, pwr.level := 3, pwr.target := 3, pwr.wakeLevel := true
             power.armed := s.rst.life == .service }

/-- A wake event; one that finds a state being entered ends the entry. -/
def execWakeEvent (event : Nat) (crcOk : Bool) (s : State) : Host.Outcome State Fault Refusal :=
  let level := s.pwr.entering.getD s.pwr.sleep
  .next (if level = 0 ∨ !wakesFrom event level ∨ (event = 5 ∧ s.rst.rtcStopped) then s
    else
      let s := clearDeep event s
      if s.pwr.entering.isSome then { s with pwr.entering := none, pwr.stopped := [], pwr.asked := 0 }
      else match s.pwr.sleep with
        | 1 => { s with pwr.sleep := 0 }
        | 2 => wakeRetained s crcOk
        | _ => deviceReset { s with pwr.sleep := 0 } false)

/-! NVMe and PCI power states (R429, R430). -/

/-- Cap of an NVMe power state in mW: PS1 and PS2 are the states that limit the cap (R430, log entry 96). -/
def psCap (s : State) : Option Nat :=
  match s.pwr.ps with
  | 1 => some (od s 0x8100 0x09 * 1000)
  | 2 => some (od s 0x8100 0x0A * 1000)
  | _ => none

/-- Sleep that a power state asks for. -/
def psSleep (ps : Nat) : Nat := if ps = 3 then 1 else if ps = 4 then 2 else 0

/-- Set Features Power Management (R429, R430, R432): a lens has PS0 only. -/
def execSetFeaturesPowerManagement (a : Adm) (ps : Nat) (s : State) : Host.Outcome State Fault Refusal :=
  .next (withAdmin s a false fun s =>
    if 4 < ps ∨ (a.fn ≠ 0 ∧ ps ≠ 0) then adminDone s a stField
    else if a.fn ≠ 0 then adminDone s a stOk
    else adminDone { s with pwr.ps := ps, pwr.nvmeReq := psSleep ps } a stOk)

/-- An autonomous transition to a non-operational state (R430). -/
def execApstTransition (ps : Nat) (s : State) : Host.Outcome State Fault Refusal :=
  .next (if (ps = 3 ∨ ps = 4) ∧ s.pwr.ps < ps ∧ !hostBusy s then { s with pwr.ps := ps, pwr.nvmeReq := psSleep ps } else s)

/-- D3hot, with the link in L1.2 a request for SL2 (R429). -/
def execPciD3hot (inL12 : Bool) (s : State) : Host.Outcome State Fault Refusal :=
  .next { s with host.d3hot := true, pwr.pciReq := if inL12 then 2 else s.pwr.pciReq }

/-- The first block that would refuse a state now (R431, R432). -/
def sleepRefused (s : State) (level : Nat) : Option Nat :=
  if level = 0 then none else (sleepBlocks level).find? fun b => mustRefuse s b && !neverRefuses s b

/-- The management role asks for a state, or withdraws its request (R429); a refused request fails (R432). -/
def requestSleep (s : State) (level : Nat) : State :=
  match sleepRefused s level with
  | some b => useFree (rollBack s b (blockHoldOff b (freeVal s % 2 ^ 32)))
  | none => odSet { s with pwr.mgmtReq := level } 0x8010 0x02 0 level

def execManagementSleepRequest (level : Nat) (s : State) : Host.Outcome State Fault Refusal :=
  .next (if 3 < level then s else requestSleep s level)

/-! Sensors and the set-point (R436 to R440). -/

/-- A value in mW or m°C from the sum of 16 conversions (R436, R437): gain × volts + offset, where code 4,095 stands
for 1.2 V (log entry 42). -/
def sensorValue (s : State) (i sum : Nat) : Int :=
  (toSigned 32 (od s 0x8110 0x02 i) * sum * 12).fdiv 655200 + toSigned 32 (od s 0x8110 0x03 i)

/-- Take one input's period: its value, and its count at a rail. -/
def takeInput (s : State) (i sum : Nat) : State :=
  let s := odSet s 0x8110 0x04 i (ofSigned 32 (sensorValue s i sum))
  if sum = 0 ∨ sum = 65520 then
    let s := odBump s 0x8110 0x05 i
    if s.pwr.railSeen then s else loupe { s with pwr.railSeen := true } 436 0x81 3 [i]
  else s

/-- Values of the inputs of a kind. -/
def kindValues (s : State) (k : Nat) : List Int :=
  ((List.range 16).filter fun i => od s 0x8110 0x01 i == k).map fun i => toSigned 32 (od s 0x8110 0x04 i)

/-- The cap of the source in mW, before the power state's limit (R439, R440). -/
def sourceCap (s : State) (pcapA : Nat) : Nat :=
  let lo := od s 0x8100 0x02
  let hi := od s 0x8100 0x03
  let fixed := od s 0x8100 0x04 * 1000
  match od s 0x8100 0x01 with
  | 1 => lo * 1000 + Nat.min pcapA 65520 * (hi - lo) * 1000 / 65520
  | 2 => match s.pwr.pcapCond with
    | 0 => if s.pwr.pcapCount = 0 then s.pwr.pcapLast else s.pwr.pcapSum / s.pwr.pcapCount
    | 1 => s.pwr.pcapLast
    | _ => fixed
  | _ => fixed

/-- The cap in force: a power state lowers it (R430, R439). -/
def setCap (s : State) (pcapA : Nat) : State :=
  let raw := sourceCap s pcapA
  let s := if od s 0x8100 0x01 = 2 ∧ s.pwr.pcapCond = 0 then { s with pwr.pcapLast := raw } else s
  { s with pwr.cM := match psCap s with | some c => Nat.min raw c | none => raw, pwr.pcapSum := 0, pwr.pcapCount := 0 }

/-- A limit in kelvin as m°C. -/
def milliC (k : Nat) : Int := ((k : Int) - 273) * 1000

/-- The temperature warning begins, or ends (R251, R438). -/
def heatWarning (s : State) : State :=
  let hot := decide (milliC (od s 0x8300 0x01) < s.pwr.composite)
  let s := if hot && !s.health.hot then warnAll s 2 1 else s
  { s with health.hot := hot }

/-- Thermal critical is entered (R438). -/
def heatCritical (s : State) : State :=
  if milliC (od s 0x8300 0x02) < s.pwr.composite ∧ !s.pwr.critical then
    loupe { s with pwr.critical := true } 438 0x83 5 []
  else s

/-- The end of a 100 µs period (R436 to R439): sums of 16 conversions of each input and of PCAP_A, and the die sensors
in m°C. -/
def execAdcPeriod (sums : List Nat) (pcapA : Nat) (dieTemps : List Int) (s : State) : Host.Outcome State Fault Refusal :=
  let s := (List.range 16).foldl (fun s i => takeInput s i (sums.getD i 0)) s
  let packs := kindValues s 3
  let dieMax := match dieTemps.max? with | some t => t | none => s.pwr.dieMax
  let pack := match packs.max? with | some t => t | none => -273150
  let s := { s with pwr.pF := (kindValues s 1).sum, pwr.pM := (kindValues s 2).sum, pwr.dieMax := dieMax
                    pwr.packageMax := pack, pwr.composite := Max.max dieMax pack }
  .next (heatCritical (heatWarning (setCap s pcapA)))

/-- The temperature has been 3 °C or more below the critical limit for 1 s (R438). -/
def execThermalCriticalExit (s : State) : Host.Outcome State Fault Refusal :=
  .next (if s.pwr.composite + 3000 ≤ milliC (od s 0x8300 0x02) then { s with pwr.critical := false } else s)

/-- A sensor is past its trip limit by a margin. -/
def pastTrip (s : State) (margin : Int) : Bool :=
  decide (milliC (od s 0x8300 0x03) + margin < s.pwr.dieMax) ||
  decide (milliC (od s 0x8300 0x04) + margin < s.pwr.packageMax)

/-- A trip condition of 1 ms (R438, R534): TRIP# and a thermal-trip reset; 5 °C past the limit ends the flush at
once. -/
def execThermalTrip (s : State) : Host.Outcome State Fault Refusal :=
  .next (if !pastTrip s 0 then s
    else
      let s := raise { s with pins.trip := true } 7
      if pastTrip s 5000 ∧ s.power.hold = .flush then deviceReset s false else s)

/-- Once per second: the histogram, and the highest sample of the 10-minute interval (R249). -/
def execTemperatureSample (s : State) : Host.Outcome State Fault Refusal :=
  let t := s.pwr.composite
  let bin := (clampInt 0 63 ((t + 20000).fdiv 2000)).toNat
  let high := match s.health.maxNow with | some m => Max.max m t | none => t
  let sec := s.health.seconds + 1
  let s := { s with health.seconds := sec, health.hist := kvPut 0 bin (kvGet 0 bin s.health.hist + 1) s.health.hist }
  .next (if sec % 600 ≠ 0 then { s with health.maxNow := some high }
    else
      let i := (sec / 600 - 1) % 1008
      let v := high.fdiv 1000
      { s with health.maxNow := none
               health.ring := if i < s.health.ring.length then s.health.ring.set i v else s.health.ring ++ [v] })

/-- Every 10 minutes (R250). -/
def execHealthSave (s : State) : Host.Outcome State Fault Refusal := .next (saveHealth s)

/-! PCAP_P (R440, R592). -/

/-- The input is out of band: the last valid cap is held. -/
def outOfBand (s : State) : State :=
  { s with pwr.pcapGood := 0, pwr.pcapCond := if s.pwr.pcapCond = 0 then 1 else s.pwr.pcapCond }

/-- A rising edge ends a cycle; period and high time count 10 ns. -/
def execPcapPRisingEdge (period high : Nat) (s : State) : Host.Outcome State Fault Refusal :=
  let lo := od s 0x8100 0x02
  let hi := od s 0x8100 0x03
  .next (if period < 1000 ∨ 100000 < period then outOfBand s
    else if s.pwr.pcapCond = 0 then
      { s with pwr.pcapGood := s.pwr.pcapGood + 1, pwr.pcapCount := s.pwr.pcapCount + 1
               pwr.pcapSum := s.pwr.pcapSum + lo * 1000 + Nat.min high period * (hi - lo) * 1000 / period }
    else { s with pwr.pcapGood := s.pwr.pcapGood + 1 })

/-- 1 ms without a rising edge. -/
def execPcapPTimeout (s : State) : Host.Outcome State Fault Refusal := .next (outOfBand s)

/-- 10 ms out of band without a break. -/
def execPcapPFallback (s : State) : Host.Outcome State Fault Refusal :=
  .next (if s.pwr.pcapCond ≠ 1 ∨ s.pwr.pcapGood ≠ 0 then s
    else loupe (odBump { s with pwr.pcapCond := 2 } 0x8100 0x07) 440 0x81 4 [])

/-- 16 valid cycles in a row. -/
def execPcapPRestore (s : State) : Host.Outcome State Fault Refusal :=
  .next (if s.pwr.pcapCond = 0 ∨ s.pwr.pcapGood < 16 then s
    else loupe { s with pwr.pcapCond := 0, pwr.pcapSum := 0, pwr.pcapCount := 0 } 440 0x81 2 [])

end Sys2Proof.Machine
end

