-- ==== Sys2Proof/Machine/Boot.lean ====
section
/-! DEFINITION. Reset sources, the release counter, the boot stages, block-level resets, self-test and the Loupe commands
(R531 to R567, R573 to R576). -/

namespace Sys2Proof.Machine

/-! Reset sources (R532 to R537, R590). -/

def execPowerOn (s : State) : Host.Outcome State Fault Refusal := .next (raise s 0)
def execCoreBrownOut (s : State) : Host.Outcome State Fault Refusal := .next (raise s 1)
def execAonBrownOut (s : State) : Host.Outcome State Fault Refusal := .next (raise s 2)

/-- PERST# low past its filter: the PCIe lanes go to electrical idle (R534, R590). -/
def execPerstAssert (s : State) : Host.Outcome State Fault Refusal :=
  .next (raise { s with pins.pcieIdle := true, host.bifurcated := od s 0x1000 0x03 == 1 } 3)

/-- Release a source that a level holds. -/
def releaseSource (s : State) (b : Nat) : State :=
  { s with rst.asserted := if s.rst.asserted.testBit b then s.rst.asserted - 2 ^ b else s.rst.asserted }

def execPerstDeassert (s : State) : Host.Outcome State Fault Refusal := .next (releaseSource s 3)

/-- A pulse under 10 µs is ignored and counted (R573). -/
def execPerstGlitch (s : State) : Host.Outcome State Fault Refusal := .next (odBump s 0xB000 0x04)

/-- A supply has been within range for its time (R532): AON ends power-on and its brown-out, VDD and VDDS the core
brown-out. -/
def execSupplyWithinRange (supply : Nat) (s : State) : Host.Outcome State Fault Refusal :=
  .next (if supply = 0 then releaseSource (releaseSource s 0) 2 else releaseSource s 1)

/-- Every sensor has been 10 °C below its trip limit for 100 ms (R532, R534). -/
def execThermalTripRelease (s : State) : Host.Outcome State Fault Refusal :=
  .next { releaseSource s 7 with pins.trip := false }

/-- The image of the running flush is written and not sealed. -/
def flushWritten (s : State) : Bool := s.power.images.any fun i => i.seq == s.power.imageSeq && !i.sealed

/-- The flush's seal is programmed, and the reset asserts (R534). -/
def execPreResetFlushSeal (s : State) : Host.Outcome State Fault Refusal :=
  .next (if s.power.hold = .flush ∧ flushWritten s then deviceReset (sealImage s) false else s)

/-- No seal within 50 ms of the source: the reset asserts anyway (R534). -/
def execPreResetFlushLimit (s : State) : Host.Outcome State Fault Refusal :=
  .next (if s.power.hold = .flush then deviceReset s false else s)

/-- The watchdog runs from stage 3 onward, and neither in the boot halt nor in the maintenance state (R537). -/
def execWatchdogExpiry (s : State) : Host.Outcome State Fault Refusal :=
  .next (if s.rst.life = .stage3 ∨ s.rst.life = .service then raise s 4 else s)

/-- The boot timer runs until stage 3 starts (R537). -/
def execBootTimerExpiry (s : State) : Host.Outcome State Fault Refusal :=
  .next (match s.rst.life with
    | .stage0 | .stage1 | .stage2 | .qspiRelease => raise s 8 7
    | _ => s)

def execManagementReset (s : State) : Host.Outcome State Fault Refusal := .next (raise s 6)

/-- The FTL firmware asserts (R541). -/
def execFtlFirmwareAssertion (s : State) : Host.Outcome State Fault Refusal :=
  .next (if s.rst.life = .inReset then s else raise s 8 8)

/-- A Korla core checks (R541). -/
def execKorlaCoreMachineCheck (s : State) : Host.Outcome State Fault Refusal :=
  .next (if s.rst.life = .inReset then s else raise s 8 9)

/-! The reset controller (R538 to R540, R574, R576). -/

/-- The release counter reaches 1,024: the device leaves reset and latches its straps (R539, R540, R543, R574). -/
def execReleaseCountDone (straps : Nat) (s : State) : Host.Outcome State Fault Refusal :=
  .next (if s.rst.life ≠ .inReset ∨ s.rst.asserted ≠ 0 ∨ s.rst.testHold then s
    else
      let n := field 27 24 s.rst.cause
      let s := { s with rst.cause := if n < 15 then s.rst.cause + 2 ^ 24 else s.rst.cause, rst.straps := straps % 256 }
      { s with rst.life := if bootSel s = 3 then .qspiRelease else .stage0 })

def execRefclkLoss (s : State) : Host.Outcome State Fault Refusal := .next { s with rst.ringOsc := true }
def execRefclkRestore (s : State) : Host.Outcome State Fault Refusal := .next { s with rst.ringOsc := false }

/-- TEST_EN or SCAN_EN holds the release counter at 0, and sets no cause bit (R576). -/
def execTestModeHold (high : Bool) (s : State) : Host.Outcome State Fault Refusal :=
  .next { s with rst.testHold := high }

/-! Boot stages (R118, R407, R494, R495, R543 to R548, R553, R569, R571, R589, R595). -/

/-- The boot halt (R548). -/
def bootHalt (s : State) (stage : Nat) : State :=
  { s with rst.life := .halt stage, pins.alert := true, pins.led0Blink := true, pins.i3cOn := true
           pins.mirrorIdle := true, pins.wpLow := true }

/-- Partitions of logic BIST whose failure halts every later boot (R552). -/
def haltPartitions : List Nat := [0, 1, 2, 3, 4, 5, 6, 9, 10, 28, 30]

/-- Effect of a failed logic partition at a boot, with its event (R552, R553). -/
def partitionOut (s : State) (p : Nat) : State :=
  let s := loupe s 553 0xA2 6 [p]
  match p with
  | 7 => { s with bist.decodersOut := List.range 16 }
  | 8 => { s with ciph.badLanes := (List.range 8).foldl (fun l x => addTo x l) s.ciph.badLanes }
  | 11 => setEng (setEng s 0 { eng s 0 with phase := 0 }) 1 { eng s 1 with phase := 0 }
  | 31 => { s with bist.traceOn := false }
  | _ =>
    if 12 ≤ p ∧ p ≤ 27 then
      (List.range 4).foldl (fun s i => setChanState s (4 * (p - 12) + i) 3) s
    else s

def failedPartitions (s : State) : List Nat := (List.range 32).filter fun p => s.rst.logicFailed.testBit p

/-- The FTL slot to try first: the one chosen, or with BOOT_SEL 0b10 the other (R543). -/
def firstSlot (s : State) : Nat := if bootSel s = 2 then 1 - s.ciph.chosen else s.ciph.chosen

/-- What stage 1 reads from the firmware slots. -/
def readSlots (s : State) (f : BootFacts) : State :=
  let put (i : Nat) (ok : Bool) (v : Nat) : FwSlot := { s.ciph.slots.getD i {} with valid := ok, secVersion := v }
  { s with ciph.slots := [put 0 f.ftlValid0 f.ftlSecVersion0, put 1 f.ftlValid1 f.ftlSecVersion1] }

/-- The slot that boots (R419, R421, R546). -/
def slotBooted (s : State) : Option Nat :=
  [firstSlot s, 1 - firstSlot s].find? fun i => (storedStatus s i).isNone

/-- The DRAM rates of R493. -/
def dramRates : List Nat := [10667, 9600, 8533, 7500, 6400, 3200]

/-- DRAM is trained, with an event for each step down (R494, R495). -/
def trainDram (s : State) (f : BootFacts) : State :=
  let down := dramRates.filter fun r => decide (f.dramRate < r) && decide (r ≤ od s 0x9000 0x02)
  let s := down.foldl (fun s r => loupe s 494 0x90 4 [r]) s
  let s := { s with dram.rate := f.dramRate, dram.ranks := f.dramRanks, dram.density := f.dramDensity
                    pins.dramReset := false }
  if f.needsRfm then loupe (odSet s 0x9000 0x0D 0 1) 495 0x90 4 [] else s

/-- Interface of a quad by its supply in mV (R571): 0 NV-LPDDR4, 1 NV-DDR3. -/
def quadInterface (mv : Nat) : Option Nat :=
  if 570 ≤ mv ∧ mv ≤ 630 then some 0 else if 1140 ≤ mv ∧ mv ≤ 1260 then some 1 else none

/-- A die stands out of service from this boot (R118, R571). -/
def bootDieOut (s : State) (d : Nat) : State :=
  if (die s d).service = 2 then s else setDie s d { die s d with st := .out, service := 1, phase := 0 }

/-- A quad's supply is measured (R571). -/
def readQuad (s : State) (q mv : Nat) : State :=
  match quadInterface mv with
  | some i => if i = 1 then odSet s 0xB000 0x02 0 (setBit q (od s 0xB000 0x02)) else s
  | none => loupe (((List.range 128).map (q * 128 + ·)).foldl bootDieOut s) 571 0xB0 5 [q]

/-- First field of a parameter page that lies outside its range (R118). -/
def badField (s : State) (p : ParamPage) (mv : Nat) : Option Nat :=
  if !p.signatureOk then some 0
  else if p.pageBytes ≠ 16384 then some 1
  else if p.spareBytes < 4 * ((chan s (dieChan p.die)).hdr.parityBytes + 64) then some 2
  else if p.pagesPerBlock ≠ 1024 then some 3
  else if p.bitsPerCell ≠ 4 then some 4
  else if p.planes ≠ 4 then some 5
  else if p.blocks < 512 then some 6
  else if p.lunsPerTarget < 1 ∨ 4 < p.lunsPerTarget then some 7
  else match quadInterface mv with
    | some 0 => if p.nvLpddr4 then none else some 8
    | some _ => if p.nvDdr3 then none else some 8
    | none => none

/-- A parameter page is read (R118). -/
def readPage (mvs : List Nat) (s : State) (p : ParamPage) : State :=
  match badField s p (mvs.getD (dieChan p.die / 4) 0) with
  | some k => loupe (bootDieOut s p.die) 118 0x30 5 [dieChan p.die, p.die, k]
  | none =>
    let n := Nat.min p.blocks 8192
    let bad := p.bad.filterMap fun r => if r.1 < n ∧ r.2 ≠ 0 then some (r.1, Nat.min r.2 (n - r.1)) else none
    let s := setDie s p.die { die s p.die with blocks := n, good := n - (bad.map (·.2)).sum, bad := bad }
    if 8192 < p.blocks then loupe s 118 0x30 3 [dieChan p.die, p.die, 6] else s

/-- Row 0 holds no valid copy: the factory defaults are in force (R546). -/
def factoryDefaults (s : State) : State :=
  let put (m : Kv Nat) (e : Nat × Nat) : Kv Nat := odPutKey e.1 e.2 m
  loupe { s with dict.durable := [], dict.od := s.health.savedOd.foldl put []
                 ciph.stored := none, ciph.records := [] } 546 0xA0 5 [0]

/-- The loop program of an engine is taken from the configuration (R212, R449). -/
def bootLoop (s : State) (k : Nat) : State :=
  let v := od s 0x8210 0x01 k
  if v = 0 then s
  else if loopImageOk s k v then setEng s k (loadImage (eng s k) v)
  else loupe s 212 0x82 4 [k]

/-- The measurements of boot stages 0 and 1 (R407, log entry 50). -/
def measureBoot (s : State) (f : BootFacts) : State :=
  let fw := s.ciph.slots.getD s.ciph.activeSlot {}
  let s := extend (extend s 0 Config.romDigest) 1 f.stage1Digest
  let s := extend s 2 f.ftlDigest
  let s := extend s 3 (Config.sha384 8 (fw.secVersion + s.ciph.otpMin * 2 ^ 32))
  let s := (List.range 64).foldl (fun s c => extend s 4 (chan s c).hdr.digest) s
  let s := extend s 5 (Config.sha384 544 (ptable s))
  let s := extend (extend s 6 (od s 0x8210 0x06 0)) 6 (od s 0x8210 0x06 1)
  let s := extend s 7 (Config.sha384 52 (od s 0x2100 0x06 + Config.sha384 816 (configBlock s) * 2 ^ 32))
  extend s 11 (Config.sha384 2 (s.ciph.activeSlot + bootSel s * 256))

/-- Stage 1 after its halting conditions. -/
def stage1Run (s : State) (f : BootFacts) (slot : Nat) : State :=
  let s := if slot ≠ firstSlot s then loupe s 421 0x71 6 [firstSlot s] else s
  let slots := s.ciph.slots.set slot { s.ciph.slots.getD slot {} with digest := f.ftlDigest }
  let s := { s with ciph.activeSlot := slot, ciph.slots := slots, pins.ceHigh := false }
  let s := { s with rst.rtcStopped := !f.crystalOk, pins.midRange := f.badFzq ++ f.badDzq.map (16 + ·) }
  let s := if f.crystalOk then s else loupe s 589 0xB0 5 []
  let s := if f.qspiQuad then s else loupe s 595 0xB0 3 []
  let s := f.badDzq.foldl (fun s c => loupe s 569 0xB0 5 [16 + c]) (trainDram s f)
  let s := (List.range 16).foldl (fun s q => readQuad s q (f.quadMv.getD q 0)) s
  let s := f.silent.foldl (fun s d => loupe (bootDieOut s d) 118 0x30 5 [dieChan d, d, 0]) s
  let s := f.badFzq.foldl (fun s q => loupe s 569 0xB0 5 [q]) (f.pages.foldl (readPage f.quadMv) s)
  let s := odSet s 0x3000 0x02 0 f.spareBytes
  let s := f.noScript.foldl (fun s c =>
      let s := setChanState s c 3
      loupe (setChan s c { chan s c with scripted := false }) 546 0x32 5 [c]) s
  let s := if f.row0Valid then s else factoryDefaults s
  let s := buildPools (bootLoop (bootLoop s 0) 1)
  hostTrains { measureBoot s f with host.cfgServed := true, rst.life := .stage1 }

/-- Stages 0 and 1 (R407, R543, R544, R546). -/
def execStage1Loader (f : BootFacts) (s : State) : Host.Outcome State Fault Refusal :=
  .next (if s.rst.life ≠ .stage0 then s
    else
      let s := { s with pins.pcieIdle := false }
      if !f.stage1Valid then bootHalt s 0
      else
        let s := readSlots { s with pins.i3cOn := true } f
        let s := (failedPartitions s).foldl partitionOut s
        if (failedPartitions s).any haltPartitions.contains ∨ 3 ≤ s.rst.bootFailures ∨ 3 ≤ s.ciph.alarmResets ∨
            !f.dramConfigOk ∨ f.dramRate = 0 then bootHalt s 1
        else match slotBooted s with
          | none => bootHalt s 1
          | some slot => stage1Run s f slot)

/-- The record that stage 2 chains to, and whether it came from retained memory (R411). -/
def chainFrom (s : State) (f : SealFacts) : Option (BootRec × Bool) :=
  let a := if f.retainedOk then s.ciph.retained else none
  let b := (s.ciph.records.take (s.ciph.records.length - f.row0Bad)).getLast?
  match a, b with
  | some x, some y => if y.sequence < x.sequence then some (x, true) else some (y, false)
  | some x, none => some (x, true)
  | none, some y => some (y, false)
  | none, none => none

/-- The retained record is one that row 0 lacks (R412). -/
def rowLacks (s : State) (f : SealFacts) : Option BootRec :=
  match s.ciph.retained with
  | some r => if f.retainedOk && !(s.ciph.records.any fun x => x.sequence == r.sequence) then some r else none
  | none => none

/-- The measurements of stage 2 that a boot record holds (R407, log entry 50). -/
def measureSealed (s : State) : State :=
  let who := od s 0x5000 0x01 + od s 0x5000 0x05 * 2 ^ 8 + casPos s * 2 ^ 392
  let s := extend (extend s 8 (Config.sha384 8 Config.debugState)) 9 (Config.sha384 50 who)
  extend s 10 (match s.ciph.slot1 with | some c => Config.sha384 0 c | none => 0)

/-- The boot record of this boot (R409, R411). -/
def newRecord (s : State) (prev : Option (BootRec × Bool)) : BootRec :=
  let flags := (match prev with | none => 1 | some p => if p.2 then 2 else 0) + Config.debugState % 2 * 4
  let b : BootRec := { flags := flags, sequence := (match prev with | some p => p.1.sequence + 1 | none => 1)
                       causes := s.rst.cause, seconds := s.health.seconds
                       secVersion := (s.ciph.slots.getD s.ciph.activeSlot {}).secVersion
                       epoch := od s 0x2100 0x06
                       previous := (match prev with | some p => Config.sha384 1024 p.1.value | none => 0)
                       ms := s.ciph.ms.take 12, signature := 0 }
  { b with signature := Config.ecdsaSign (Config.sha384 928 b.body) }

/-- Stage 2 (R393, R394, R405, R407, R409 to R411, R540). -/
def stage2Run (s : State) (f : SealFacts) : State :=
  let s := f.badLanes.foldl (fun s l =>
    loupe { s with ciph.badLanes := addTo l s.ciph.badLanes } 394 0x70 5 [l]) s
  let s := measureSealed { s with ciph.root := if f.rootKwOk then s.ciph.stored else none
                                  ciph.erased := s.ciph.stored.isSome && !f.rootKwOk, ciph.loaded := [517, 519] }
  let prev := chainFrom s f
  let b := newRecord s prev
  let s := extend s 15 b.previous
  useDraw { s with ciph.lacking := rowLacks s f, ciph.fresh := some b, ciph.retained := some b
                   rst.captured := s.rst.cause, rst.cause := 0, ciph.alarmResets := 0, pins.hbOut := true
                   rst.life := .stage2 }

/-- A failed derivation, SHA-384 or ECDSA unit halts the boot (R394, R546); without entropy no record can be signed
(R393), and the boot timer runs on. -/
def execStage2Sealed (f : SealFacts) (s : State) : Host.Outcome State Fault Refusal :=
  .next (if s.rst.life ≠ .stage1 then s
    else if !f.unitsOk then bootHalt s 2
    else if !f.entropyOk then loupe { s with ciph.drbgOk := false } 393 0x70 6 []
    else stage2Run { s with ciph.drbgOk := true, ciph.drbgUsed := 0 } f)

/-- Stage 3 starts (R542, R544, R551): OD 0xA000:09 is a measured time (log entry 5). -/
def execStage3Ftl (s : State) : Host.Outcome State Fault Refusal :=
  .next (if s.rst.life ≠ .stage2 then s
    else
      let maint := s.rst.maintain || bootSel s == 1
      let s := odSet s 0xA000 0x09 0 (freeVal s % 2 ^ 32)
      useFree { s with rst.life := .stage3, pins.ioApplied := true, pins.mirrorIdle := maint, pins.clkreq := true })

/-- Once per second each strap is compared with its latched value (R574). -/
def execStrapCheck (straps : Nat) (s : State) : Host.Outcome State Fault Refusal :=
  .next (if s.rst.life = .inReset then s
    else
      ((List.range 8).filter fun i => straps.testBit i != s.rst.straps.testBit i &&
          !(od s 0xB000 0x07).testBit i).foldl (fun s i =>
        loupe (odSet s 0xB000 0x07 0 (setBit i (od s 0xB000 0x07))) 574 0xB0 3 [i]) s)

/-! Block-level resets (R549, R550). -/

/-- No operation of a channel runs, is queued or is suspended. -/
def chanIdle (s : State) (c : Nat) : Bool :=
  (chan s c).state == 3 || (chanDies c).all fun d =>
    ((die s d).st == .idle || (die s d).st == .out) && (die s d).queue.isEmpty && (die s d).reading.isEmpty &&
    (die s d).erase.isNone

/-- Number of blocks of a kind. -/
def blockCount (kind : Nat) : Nat :=
  match kind with
  | 1 => 64
  | 2 | 3 | 4 => 16
  | 5 => 2
  | 6 | 8 | 9 => 1
  | 7 => 3
  | _ => 0

/-- A block is idle in the sense of its row. No codeword or request stays in a decoder or placement engine between two
commands. -/
def blockIdle (s : State) (kind i : Nat) : Bool :=
  match kind with
  | 1 => chanIdle s i
  | 2 => s.ciph.badLanes.contains i
  | 3 | 4 => true
  | 5 => (eng s i).phase == 0 || (eng s i).phase == 4
  | 6 => pairPhase s == 0 || s.pair.detached
  | 7 => od s 0x5110 0x01 (i + 1) == 0 || od s 0x5110 0x01 (i + 1) == 3
  | 8 => !s.bist.traceOn
  | _ => !s.loupe.flushing

/-- Status of a write to OD 0xA000:03: 0x31 for a code outside the table, 0x40 for a block that is not idle. -/
def blockResetStatus (s : State) (code : Nat) : Nat :=
  let kind := code / 256
  let i := code % 256
  if blockCount kind ≤ i then 0x31 else if blockIdle s kind i then 0 else 0x40

/-- A channel's logic afresh: it is out of service. -/
def freshChan (c : Chan) : Chan :=
  { c with bus := [], ce := none, holder := none, ptrHigh := 0, ptrLow := 0, phyRegs := [], faulted := false }

/-- A cascade link afresh. -/
def freshMember (m : Member) : Member := { serial := m.serial }

/-- The Mirror link afresh: its SPDM session ends with it. -/
def freshLink (p : Pair) : Pair :=
  { p with linkUp := false, session := false, missed := 0, txSeq := 1, rxSeq := 0, unacked := [], resendAsked := none
           retraining := false, out := p.out.filter fun f => f.port != 0 }

/-- Reset a block (R549, R550). -/
def blockReset (s : State) (kind i : Nat) : State :=
  match kind with
  | 1 =>
    let s := (chanDies i).foldl (fun s d => setCtx s d {}) (setChan s i (freshChan (chan s i)))
    if (chan s i).state = 3 then s else setChanState s i 3
  | 2 => setLane s i {}
  | 3 => { s with sched.softPtr := 0 }
  | 4 => { s with sched.placePtrs := [0, 0, 0] }
  | 5 =>
    let e := eng s i
    setEng s i { phase := 0, code := e.code, image := e.image, lastD := e.lastD, tickNo := e.tickNo, ticks := e.ticks }
  | 6 => { s with pair := freshLink s.pair }
  | 7 => setMember s (i + 1) (freshMember (member s (i + 1)))
  | 9 => { s with loupe.live := [] }
  | _ => s

/-- The block reset of a row: refused where the block is not idle or does not exist. -/
def blockResetIf (s : State) (kind i : Nat) : State :=
  if blockResetStatus s (kind * 256 + i) = 0 ∧ i < 256 then blockReset s kind i else s

def execBlockResetFlashChannel (i : Nat) (s : State) : Host.Outcome State Fault Refusal := .next (blockResetIf s 1 i)
def execBlockResetCipherLane (i : Nat) (s : State) : Host.Outcome State Fault Refusal := .next (blockResetIf s 2 i)
def execBlockResetSoftDecoder (i : Nat) (s : State) : Host.Outcome State Fault Refusal := .next (blockResetIf s 3 i)
def execBlockResetPlacementEngine (i : Nat) (s : State) : Host.Outcome State Fault Refusal := .next (blockResetIf s 4 i)
def execBlockResetLoopEngine (i : Nat) (s : State) : Host.Outcome State Fault Refusal := .next (blockResetIf s 5 i)
def execBlockResetMirrorLink (s : State) : Host.Outcome State Fault Refusal := .next (blockResetIf s 6 0)
def execBlockResetCascadePort (i : Nat) (s : State) : Host.Outcome State Fault Refusal := .next (blockResetIf s 7 i)
def execBlockResetTracePort (s : State) : Host.Outcome State Fault Refusal := .next (blockResetIf s 8 0)
def execBlockResetLoupe (s : State) : Host.Outcome State Fault Refusal := .next (blockResetIf s 9 0)

/-! Maintenance and BIST (R547, R551 to R557). -/

def execMaintenanceRequest (value : Nat) (s : State) : Host.Outcome State Fault Refusal :=
  .next (if value ≤ 1 then { s with rst.maintain := value == 1 } else s)

/-- The device is in the boot halt. -/
def inHalt (s : State) : Bool :=
  match s.rst.life with
  | .halt _ => true
  | _ => false

/-- A write of 0 in the boot halt (R547). -/
def clearFailures (s : State) : State := if inHalt s then { s with rst.bootFailures := 0 } else s

def execBootFailureClear (s : State) : Host.Outcome State Fault Refusal := .next (clearFailures s)

/-- Logic BIST starts, in the maintenance state only (R552). -/
def startLogic (s : State) : State :=
  if s.rst.life = .maintenance then { s with rst.logicRunning := true } else s

def execLogicBistStart (s : State) : Host.Outcome State Fault Refusal := .next (startLogic s)

/-- The signatures of the 32 partitions and of memory partitions 128 to 135 are compared; the device resets with cause
management reset (R552, R554, R556). -/
def execLogicBistDone (signatures : List Nat) (s : State) : Host.Outcome State Fault Refusal :=
  .next (if !s.rst.logicRunning ∨ s.rst.life ≠ .maintenance then s
    else
      let sig (p : Nat) : Nat := signatures.getD p 0
      let bad := (List.range 32).filter fun p => sig p != Config.goldenLogic p
      let mem := (List.range 8).filter fun p => sig (32 + p) != Config.goldenMemory (128 + p)
      let s := mem.foldl (fun s p => loupe s 556 0xA2 5 [128 + p]) s
      let s := { s with rst.logicRunning := false, rst.logicFailed := bad.foldl (fun m p => m + 2 ^ p) 0
                        rst.logicSigs := (List.range 32).map sig
                        rst.memSigs := (List.range 8).map fun p => sig (32 + p)
                        rst.logicBoot := (match newestRecord s with | some b => b.sequence | none => 0) }
      raise s 6)

/-- Start an online pass while the device serves (R554). -/
def startPass (s : State) : State :=
  if s.rst.life = .service ∧ !s.bist.running then { s with bist.running := true, bist.next := 0 } else s

def execOnlinePassStart (s : State) : Host.Outcome State Fault Refusal := .next (startPass s)

/-- Buffers of a tier that overlap a staging segment of 1 MiB. -/
def segBuffers (t : Tier) (p seg : Nat) : List Nat := overlapping t (bufSize p) (sramBase + seg * 1048576) 1048576

/-- A buffer of the segment is handed out. -/
def segBusy (s : State) (seg : Nat) : Bool :=
  (List.range 6).any fun p => (segBuffers (pool s p).sram p seg).any fun b => kvGet 0 b (pool s p).sram.allocated != 0

/-- Buffers that memory BIST has passed come back to their pools (R508). -/
def segReturn (s : State) (seg : Nat) : State :=
  let back := s.bist.taken.filter fun a => decide ((a - sramBase) / 1048576 = seg)
  let s := { s with bist.taken := s.bist.taken.filter fun a => !back.contains a }
  (List.range 6).foldl (fun s p =>
    let t := (pool s p).sram
    let bs := t.removed.filter fun b => back.contains (t.base + b * bufSize p)
    setPool s p { pool s p with sram := { t with removed := t.removed.filter fun b => !bs.contains b
                                                 stack := bs.filter (fun b => decide (b < t.fresh)) ++ t.stack } }) s

/-- A partition passes or fails (R556). -/
def partitionDone (s : State) (p : Nat) (ok : Bool) : State :=
  if ok then
    let s := { s with bist.failed := s.bist.failed.filter fun x => x != p }
    if p < 96 then segReturn s p else s
  else
    let s := loupe { s with bist.failed := addTo p s.bist.failed } 556 0xA2 5 [p]
    if p < 96 then removeStaging s (p * 1048576 + sramBase) 1048576
    else if p < 112 then { s with bist.decodersOut := addTo (p - 96) s.bist.decodersOut }
    else { s with bist.enginesOut := addTo (p - 112) s.bist.enginesOut }

/-- A self-test ends: its code and the failing segment go to the log (R557). -/
def testEnds (s : State) (code segment : Nat) : State :=
  { s with bist.selfTest := 0, bist.selfTestLanes := [], bist.selfTestLog := (code, segment) :: s.bist.selfTestLog }

/-- The lanes that were free and failed their vectors leave service (R394, R557). -/
def vectorsDone (s : State) : State :=
  s.bist.selfTestLanes.foldl (fun s l =>
    if s.ciph.badLanes.contains l ∨ (lane s l).run.isSome then s
    else loupe { s with ciph.badLanes := addTo l s.ciph.badLanes } 394 0x70 5 [l]) s

/-- The online pass ends; a self-test goes on to its vectors and, when extended, to its scrub (R557). -/
def passEnds (s : State) : State :=
  let s := { s with bist.running := false }
  if s.bist.selfTest = 0 then s
  else if s.bist.failed ≠ [] then testEnds s s.bist.selfTest 1
  else
    let s := vectorsDone s
    if s.bist.selfTestLanes ≠ [] then testEnds s s.bist.selfTest 2
    else if s.bist.selfTest = 1 then testEnds s 1 0
    else { s with bist.selfTest := 3 }

/-- One online step (R555, R556): a staging segment that stays in use is skipped. -/
def execMemoryBistStep (signature : Nat) (s : State) : Host.Outcome State Fault Refusal :=
  .next (if !s.bist.running ∨ s.power.hold ≠ .running then s
    else
      let p := s.bist.next
      let s := if p < 96 ∧ segBusy s p then odBump s 0xA200 0x07
        else
          let s := odBump { s with bist.sigs := kvPut 0 p signature s.bist.sigs } 0xA200 0x06
          partitionDone s p (signature == Config.goldenMemory p)
      let s := { s with bist.next := p + 1 }
      if 128 ≤ p + 1 then passEnds s else s)

/-- Device Self-test (R557): a lens's fails, and one runs at a time (status of log entry 13). -/
def selfTest (s : State) (a : Adm) (code : Nat) (failedLanes : List Nat) : State :=
  withAdmin s a false fun s =>
    if a.fn ≠ 0 then adminDone s a stField
    else if s.bist.selfTest ≠ 0 then adminDone s a 0x11D
    else
      let s := { s with bist.selfTest := code, bist.selfTestLanes := failedLanes }
      adminDone { s with bist.running := true, bist.next := if s.bist.running then s.bist.next else 0 } a stOk

def execDeviceSelfTestShort (a : Adm) (failedLanes : List Nat) (s : State) : Host.Outcome State Fault Refusal :=
  .next (selfTest s a 1 failedLanes)
def execDeviceSelfTestExtended (a : Adm) (failedLanes : List Nat) (s : State) : Host.Outcome State Fault Refusal :=
  .next (selfTest s a 2 failedLanes)

/-! Loupe (R561 to R565). -/

/-- A periodic trigger's snapshot (R561). -/
def execLoupeTriggerPeriod (trigger : Nat) (s : State) : Host.Outcome State Fault Refusal :=
  .next (if od s 0xA300 0x01 trigger ≠ 1 ∨ od s 0xA300 0x08 trigger = 0 ∨ 64 ≤ trigger ∨ s.rst.life = .inReset then s
    else loupeEntry s 561 0xA0 0 [] (some trigger))

/-- A wanted flush is written (R565). -/
def execLoupeFlush (s : State) : Host.Outcome State Fault Refusal :=
  .next (if s.loupe.flushing then loupeFlush s else s)

/-- The live buffer is emptied (R562). -/
def execLoupeEmpty (s : State) : Host.Outcome State Fault Refusal := .next { s with loupe.live := [] }

/-- The freeze ends (R564). -/
def execLoupeResume (s : State) : Host.Outcome State Fault Refusal := .next { s with loupe.frozen := false }

/-- A management read of OD 0xA310:03 releases ALERT# (R563), which the boot halt holds (R548). -/
def releaseAlert (s : State) : State := if inHalt s then s else { s with pins.alert := false }

def execAlertReleaseRead (s : State) : Host.Outcome State Fault Refusal := .next (releaseAlert s)

end Sys2Proof.Machine
end

