-- ==== Sys2Proof/Machine/Dict.lean ====
section
/-! DEFINITION. The dictionary's requests: roles and rights, reads, describes and staging (R453 to R469, R479 to R483,
R488). -/

namespace Sys2Proof.Machine

/-! Requesters and roles (R457, R479, R485). -/

def Requester.rank : Requester → Nat
  | .lens _ => 0 | .pf => 1 | .hostRelay _ => 1 | .mgmt _ => 2 | .twin => 3

/-- Requester number within its rank (R457, R479, R485). -/
def Requester.number : Requester → Nat
  | .lens n => n | .pf => 0 | .hostRelay p => p | .mgmt e => e | .twin => 0

/-- Port over which a relayed requester's answers go back: 0 the Mirror link, 1 the link to the master. -/
def Requester.port : Requester → Option Nat
  | .hostRelay 2 | .mgmt 4 | .twin => some 0
  | .hostRelay _ | .mgmt 3 => some 1
  | _ => none

/-- Queue the answer of a request (R482); a relayed one goes back in a frame of kind 0x30. -/
def answer (s : State) (who : Requester) (r : OdReq) (status : Nat) (length value : Nat := 0) : State :=
  let s := { s with dict.answers := s.dict.answers ++ [{ who := who, obj := r.obj, elem := r.elem, inst := r.inst
                                                         status := status, length := length, value := value }] }
  match Requester.port who with
  | some p => sendFrame s p 0x30 [2, r.obj, r.elem, r.inst, status, length, value]
  | none => s

/-- Complete a Dictionary Read or Write (R480, R483). -/
def dictDone (s : State) (a : Adm) (status dw0 dw1 : Nat) (payload : Payload) (bytes : Nat := 0) : State :=
  post s a.fn 0 a.cid (curGen s a.fn) status dw0 dw1 payload 0xFFFFFFFF a.dptr bytes a.cqAddr

/-! Who is served, and when (R412, R484, R545, R548, R551). -/

/-- The request reaches the dictionary: a host's needs a controller that takes commands, and the management network
answers from stage 1 on. -/
def reaches (s : State) (who : Requester) : Bool :=
  match who with
  | .pf => accepts s 0
  | .lens n => accepts s n
  | .mgmt 0 => s.pins.i3cOn && !s.mgmt.hdr.contains 0
  | .mgmt 1 => s.pins.i3cOn && !s.mgmt.hdr.contains 1
  | _ => match s.rst.life with
    | .inReset | .stage0 | .qspiRelease => false
    | _ => s.pins.i3cOn || s.rst.life == .service

/-- A read of an object is served: in the boot halt only to management and of four objects, in the maintenance state
only to management (R548, R551). -/
def readServed (s : State) (who : Requester) (obj : Nat) : Bool :=
  match s.rst.life with
  | .service => true
  | .halt _ => Requester.rank who == 2 && [0x0000, 0xA000, 0xA200, 0xA310].contains obj
  | _ => Requester.rank who == 2

/-- A write or commit of an element is served: elsewhere than in service only those that R548, R551 and R552 name
(R412). -/
def writeServed (s : State) (who : Requester) (obj elem : Nat) : Bool :=
  match s.rst.life with
  | .service => true
  | .halt _ => Requester.rank who == 2 && obj == 0xA000 && (elem == 4 || elem == 2)
  | .maintenance => Requester.rank who == 2 &&
      ((obj == 0xA000 && (elem == 4 || elem == 2 || elem == 5)) || (obj == 0xA200 && elem == 1))
  | _ => false

/-! Staging sets (R466). -/

def staging (s : State) (who : Requester) : Staging := (s.dict.sets.find? fun t => t.who == who).getD { who := who }

def setStaging (s : State) (t : Staging) : State :=
  if s.dict.sets.any fun x => x.who == t.who then
    { s with dict.sets := s.dict.sets.map fun x => if x.who = t.who then t else x }
  else { s with dict.sets := s.dict.sets ++ [t] }

/-- Replace n bytes from byte offset off of a value. -/
def putBytes (off n v x : Nat) : Nat := v - bytesAt off n v * 2 ^ (8 * off) + x % 2 ^ (8 * n) * 2 ^ (8 * off)

/-- Add the piece [lo, hi) to pieces that are disjoint and rising. -/
def addPiece (lo hi : Nat) : List (Nat × Nat) → List (Nat × Nat)
  | [] => [(lo, hi)]
  | (a, b) :: t =>
    if hi < a then (lo, hi) :: (a, b) :: t
    else if b < lo then (a, b) :: addPiece lo hi t
    else addPiece (Nat.min lo a) (Nat.max hi b) t

/-- Bytes that the writes of an entry cover, each once (R466). -/
def Staged.bytes (e : Staged) : Nat := (e.cover.map fun p => p.2 - p.1).sum

def Staging.bytes (t : Staging) : Nat := (t.entries.map Staged.bytes).sum

/-- The value that an entry gives its element: bytes that no write covers keep the value in force (R456, R466). -/
def Staged.over (e : Staged) (now : Nat) : Nat :=
  e.cover.foldl (fun v p => putBytes p.1 (p.2 - p.1) v (bytesAt p.1 (p.2 - p.1) e.value)) now

/-- The value that a set holds for an element, else the value in force. -/
def stagedView (s : State) (t : Staging) (obj elem inst : Nat) : Nat :=
  match t.entries.find? fun e => e.key == odKey obj elem inst with
  | some e => e.over (odView s obj elem inst)
  | none => odView s obj elem inst

/-- Put a write into a set: an integer replaces, octets accumulate (R466). -/
def stagePut (t : Staging) (key off len v : Nat) : Staging :=
  let piece : Nat × Nat := (off, off + len)
  match t.entries.find? fun e => e.key == key with
  | some e =>
    let e' := { e with value := putBytes off len e.value v, cover := addPiece piece.1 piece.2 e.cover }
    { t with entries := t.entries.map fun x => if x.key = key then e' else x }
  | none => { t with entries := t.entries ++ [{ key := key, value := v % 2 ^ (8 * len) * 2 ^ (8 * off), cover := [piece] }] }

/-- The set has room: 256 entries and 2 MiB of covered bytes (R466). -/
def stageRoom (t : Staging) : Bool := t.entries.length ≤ 256 && Staging.bytes t ≤ 2097152

/-! Reads and describes (R459, R460, R464, R468). -/

/-- The role may read the element (R458 to R460): a tenant only what every role may read, without a kind or for its own
lens; the twin whatever some role may. -/
def mayRead (who : Requester) (e : OdElem) (inst : Nat) : Bool :=
  match who with
  | .lens n => e.rd == 15 && (e.ikind == 0 || (e.ikind == 1 && inst == n))
  | .twin => e.rd != 0
  | _ => e.rd.testBit (Requester.rank who)

/-- The value in force, with the elements that report the requester's own set and last commit (R492). -/
def viewFor (s : State) (who : Requester) (obj elem inst : Nat) : Nat :=
  if obj = 0xF010 then
    match elem with
    | 0 => (staging s who).last
    | 2 => (staging s who).entries.length
    | 3 => Staging.bytes (staging s who)
    | _ => odView s obj elem inst
  else odView s obj elem inst

/-- The bytes of an element that a read asks for, or none where they do not fit its type: a length of 0 asks for all
from the offset on (log entry 51). -/
def readPiece (e : OdElem) (r : OdReq) : Option (Nat × Nat) :=
  if e.octets then
    if e.size < r.offset + r.length then none
    else some (r.offset, if r.length = 0 then e.size - r.offset else r.length)
  else if r.offset ≠ 0 ∨ (r.length ≠ 0 ∧ r.length ≠ e.size) then none
  else some (0, e.size)

/-- Serve a read: the answer and its status, with the read's own effects (R458, R468, R563). -/
def readOd (s : State) (who : Requester) (r : OdReq) (staged : Bool) : State × Nat × Nat × Nat :=
  let st := odAddressIn s r.obj r.elem r.inst
  match odFind r.obj r.elem with
  | none => (s, st, 0, 0)
  | some e =>
    if st ≠ 0 then (s, st, 0, 0)
    else if !readServed s who r.obj then (s, 0x40, 0, 0)
    else if !mayRead who e r.inst then (s, 0x20, 0, 0)
    else match readPiece e r with
      | none => (s, 0x30, 0, 0)
      | some (off, len) =>
        let v := if staged then stagedView s (staging s who) r.obj r.elem r.inst else viewFor s who r.obj r.elem r.inst
        let s := if r.obj = 0xA310 ∧ r.elem = 3 ∧ Requester.rank who = 2 then releaseAlert s else s
        let s := if r.obj = 0x3120 ∧ r.elem = 3 then useFree s else s
        (s, 0, len, bytesAt off len v)

/-- The 48-byte descriptor of an element (R464). -/
def descriptor (e : OdElem) (inst : Nat) : Nat :=
  atByte 0 2 e.obj + atByte 2 1 e.elem + atByte 3 1 e.ty + atByte 4 4 e.size + atByte 8 1 e.rd + atByte 9 1 e.wr +
  atByte 10 1 e.persist + atByte 11 1 e.flags + atByte 12 1 e.ikind + atByte 14 2 (instRange e).2 +
  atByte 16 8 (ofSigned 64 e.lo) + atByte 24 8 (ofSigned 64 e.hi) + atByte 32 8 (odDflt e.obj e.elem inst)

/-- Serve a describe: the addressing checks alone (R464). -/
def describeOd (s : State) (who : Requester) (r : OdReq) : State × Nat × Nat × Nat :=
  let st := odAddressIn s r.obj r.elem r.inst
  match odFind r.obj r.elem with
  | none => (s, st, 0, 0)
  | some e =>
    if st ≠ 0 then (s, st, 0, 0)
    else if !readServed s who r.obj then (s, 0x40, 0, 0)
    else (s, 0, 48, descriptor e r.inst)

/-! Targets (R479, R481). -/

/-- Where a target names: none for an unknown one, the controller itself, or a port to relay over. -/
inductive Target where
  | here | relay (port : Nat) | absent | unknown
deriving DecidableEq, Repr

/-- The target of a request; a relayed request is for the controller that receives it. -/
def targetOf (s : State) (who : Requester) (t : Nat) : Target :=
  if t = 0 ∨ (Requester.port who).isSome then .here
  else if t = 1 then (if s.pair.linkUp && s.pair.session then .relay 0 else .absent)
  else if 4 ≤ t ∧ t ≤ 7 ∧ casPos s = 0 then
    let p := t - 4
    if p = 0 then .here else if od s 0x5110 0x01 p = 2 then .relay p else .absent
  else .unknown

/-- Operation code of an entry (R481). -/
def DictOp.code : DictOp → Nat
  | .read _ => 1 | .write _ _ => 2 | .describe _ => 3 | .readStaged _ => 4 | .other code _ => code
def DictOp.req : DictOp → OdReq
  | .read r => r | .write r _ => r | .describe r => r | .readStaged r => r | .other _ r => r
def DictOp.value : DictOp → Nat
  | .write _ v => v
  | _ => 0

/-- Relay a request with the role of its origin in a frame of kind 0x30 (R479): its answer comes with no row of its own
(log entry 52). -/
def relay (s : State) (who : Requester) (port : Nat) (o : DictOp) : State :=
  let r := DictOp.req o
  sendFrame s port 0x30 [1, Requester.rank who, DictOp.code o, r.obj, r.elem, r.inst, r.offset, r.length,
    DictOp.value o]

/-! The checks of a write (R467). -/

/-- OD 0x6300's values meet R364, read through a set. -/
def logRangeOk (view : Nat → Nat) : Bool :=
  let len := view 5
  let buf := 64 * ceilDiv (64 + ceilDiv len 32768) 64
  view 2 % 4096 == 0 && view 3 % 4096 == 0 && view 4 % 2097152 == 0 && len % 2097152 == 0 && len != 0 &&
  decide (len ≤ 2 ^ 44) && (decide (view 2 + buf ≤ view 3) || decide (view 3 + buf ≤ view 2))

/-- The reserved bytes of the 32 items of a Loupe trigger are 0 (R9): byte 3 and bytes 6 and 7 of each 8. -/
def itemsReservedZero (v : Nat) : Bool :=
  (List.range 32).all fun i => bytesAt (8 * i + 3) 1 v == 0 && bytesAt (8 * i + 6) 2 v == 0

/-- The smallest count of unused spares of a die in service. -/
def leastSpares (s : State) : Nat :=
  s.dies.foldl (fun m e => if e.2.service = 0 then Nat.min m (spares s e.1) else m) (rowsS s + 4160 - rowsR s)

/-- The rules of a value beyond its element's range (R106, R133, R150, R170, R202, R254, R256, R263, R364, R422, R452,
R462, R530, R549, R567, R602). view reads other elements as the requester's set would leave them. -/
def ruleOk (s : State) (view : Nat → Nat → Nat → Nat) (obj elem inst v : Nat) : Bool :=
  match obj, elem with
  | 0x2100, 0x05 => v ≤ sealedHead s
  | 0x2200, 0x01 => view 0x2200 0x04 0 != 0 && v % view 0x2200 0x04 0 == 0
  | 0x2200, 0x04 => v == 1 || v == 2 || v == 4 || v == 8
  | 0x2200, 0x05 => v ≤ view 0x2200 0x01 0 / view 0x2200 0x04 0 * cellsPerRow / 1920
  | 0x3100, 0x01 => (List.range 64).all fun c => !(chan s c).scripted || decide ((chan s c).hdr.tprogQlc ≤ v)
  | 0x3100, 0x04 => view 0x3100 0x03 0 ≤ v
  | 0x3200, 0x04 => Nat.land (od s 0x3200 0x04) v == od s 0x3200 0x04
  | 0x3200, 0x05 => od s 0x3200 0x05 inst ≤ v
  | 0x4010, 0x05 => v < leastSpares s
  | 0x5100, 0x03 => v % 2 == 1
  | 0x6300, 0x01 => v == 0 || logRangeOk fun k => view 0x6300 k inst
  | 0x6300, 0x02 => v % 4096 == 0
  | 0x6300, 0x03 => v % 4096 == 0
  | 0x6300, 0x04 => v % 2097152 == 0
  | 0x6300, 0x05 => v % 2097152 == 0 && v != 0 && decide (v ≤ 2 ^ 44)
  | 0x7100, 0x02 => s.ciph.otpMin < v
  | 0x8000, 0x02 => v ≤ view 0x8000 0x03 0
  | 0x8100, 0x03 => view 0x8100 0x02 0 < v
  | 0x8300, 0x02 => view 0x8300 0x01 0 < v
  | 0x8400, 0x01 => v % 64 == 0 && decide (energyReq s v ≤ od s 0x8400 0x02)
  | 0x9000, 0x02 => dramRates.contains v
  | 0x9000, 0x05 => v == 0 || decide (100 ≤ v)
  | 0x9200, 0x06 => view 0x9200 0x07 inst < v
  | 0x9200, 0x07 => view 0x9200 0x08 inst < v
  | 0xA000, 0x03 => blockResetStatus s v != 0x31
  | 0xA300, 0x07 => itemsReservedZero (view 0xA300 0x07 inst)
  | 0xA300, 0x08 => v == 0 || decide (10 ≤ v)
  | 0xB100, 0x01 => !(decide (16 ≤ inst) && decide (inst ≤ 19))
  | _, _ => true

/-- An integer value lies in its element's range. -/
def inRange (e : OdElem) (v : Nat) : Bool := e.octets || (decide (e.lo ≤ e.value v) && decide (e.value v ≤ e.hi))

/-- The role may write the element, and any condition on its access holds (R458 to R461, R488). -/
def mayWrite (s : State) (who : Requester) (secured : Bool) (e : OdElem) (v : Nat) : Bool :=
  let commitElem := e.obj == 0xF010
  let roleOk := match who with
    | .lens _ => false
    | .twin => commitElem || ((e.pairWide || (e.obj == 0x3200 && decide (e.elem ≤ 2))) && pairRole s == 2)
    | _ => e.wr.testBit (Requester.rank who)
  let manual := !(e.obj == 0x3100 && decide (0x0A ≤ e.elem)) || s.loop.mode == 0
  let pairCtl := !(e.obj == 0x5000 && e.elem == 0x0A && decide (4 ≤ v)) || Requester.rank who == 2
  let session := Requester.rank who != 2 || secured || (od s 0xF030 0x03 == 0 && !(e.obj == 0xF030))
  roleOk && manual && pairCtl && session

/-- A TDISP lock freezes the element (R370). -/
def frozen (s : State) (e : OdElem) (inst : Nat) : Bool :=
  if e.obj = 0x6300 then tdLocked (fnc s inst)
  else if e.obj = 0x7020 then s.host.fns.any fun f => f.1 != 0 && tdLocked f.2 && f.2.attached.contains inst
  else false

/-- A unit that refuses the write itself outside its state (R552). -/
def writeBusy (s : State) (e : OdElem) (v : Nat) : Bool :=
  e.obj == 0xA200 && e.elem == 0x01 && v == 1 && s.rst.life != .maintenance

/-- The checks of R467 in their order, and the set that the write would leave. -/
def stageCheck (s : State) (who : Requester) (r : OdReq) (v : Nat) (secured : Bool) : Nat × Staging :=
  let t := staging s who
  let st := odAddressIn s r.obj r.elem r.inst
  match odFind r.obj r.elem with
  | none => (st, t)
  | some e =>
    let t' := stagePut t (odKey r.obj r.elem r.inst) r.offset r.length v
    if st ≠ 0 then (st, t)
    else if e.wr = 0 then (0x22, t)
    else if !mayWrite s who secured e v then (0x20, t)
    else if (if e.octets then decide (e.size < r.offset + r.length) else decide (r.length ≠ e.size ∨ r.offset ≠ 0)) then
      (0x30, t)
    else if !inRange e v || !ruleOk s (stagedView s t') r.obj r.elem r.inst v then (0x31, t)
    else if frozen s e r.inst then (0x20, t)
    else if !writeServed s who r.obj r.elem || writeBusy s e v || !stageRoom t' then (0x40, t)
    else (0, t')

/-- Stage a write (R466, R467). -/
def stageWrite (s : State) (who : Requester) (r : OdReq) (v : Nat) (secured : Bool) : State × Nat :=
  match stageCheck s who r v secured with
  | (0, t) => (setStaging s t, 0)
  | (st, _) => (s, st)

/-- The requester may write OD 0xF010:00 (R459, R488). -/
def mayAct (s : State) (who : Requester) (secured : Bool) : Bool :=
  match who with
  | .lens _ => false
  | .mgmt _ => secured || od s 0xF030 0x03 == 0
  | _ => true

/-- Discard the set (R470); a tenant's right is none (R459), nor is management's outside a session that R488 asks for. -/
def discardSet (s : State) (who : Requester) (secured : Bool) : State × Nat :=
  if mayAct s who secured then (dropSet s who, 0) else (s, 0x20)

/-! The rows. -/

/-- Serve one read or describe, here or over a relay, and complete the command that carries it. -/
def dictRequest (s : State) (who : Requester) (o : DictOp) (a : Option Adm)
    (serve : State → State × Nat × Nat × Nat) : State :=
  let r := DictOp.req o
  let reply (s : State) (st len v : Nat) : State :=
    let s := answer s who r st len v
    match a with
    | some a =>
      dictDone s a stOk 0 0 (.words [r.obj, r.elem, DictOp.code o, r.inst, r.target, st, len, r.offset, v]) (16 + len)
    | none => s
  if !reaches s who then s
  else if Requester.rank who = 0 ∧ r.target ≠ 0 then reply s 0x20 0 0
  else match targetOf s who r.target with
    | .here =>
      let (s, st, len, v) := serve s
      reply s st len v
    | .relay p => relay s who p o
    | .absent => reply s 0x40 0 0
    | .unknown => reply s 0x31 0 0

def execDictRead (who : Requester) (r : OdReq) (a : Option Adm) (s : State) : Host.Outcome State Fault Refusal :=
  .next (dictRequest s who (.read r) a fun s => readOd s who r false)

def execDictReadStaged (who : Requester) (r : OdReq) (a : Option Adm) (s : State) : Host.Outcome State Fault Refusal :=
  .next (dictRequest s who (.readStaged r) a fun s => readOd s who r true)

def execDictDescribe (who : Requester) (r : OdReq) (a : Option Adm) (s : State) : Host.Outcome State Fault Refusal :=
  .next (dictRequest s who (.describe r) a fun s => describeOd s who r)

/-- A write of 2 to OD 0xF010:00 (R470). -/
def execDiscard (who : Requester) (secured : Bool) (s : State) : Host.Outcome State Fault Refusal :=
  let r : OdReq := { obj := 0xF010, elem := 0, inst := 0, target := 0, offset := 0, length := 1 }
  .next (if !reaches s who then s
    else
      let (s, st) := discardSet s who secured
      answer s who r st)

/-- 60 s without a request from a management endpoint (R469). -/
def execStagingSetExpiry (endpoint : Nat) (s : State) : Host.Outcome State Fault Refusal :=
  .next (dropSet s (.mgmt endpoint))

end Sys2Proof.Machine
end

