-- ==== Sys2Proof/Machine/Commit.lean ====
section
/-! DEFINITION. Dictionary writes and commits: the checks that tie objects together, the commit group, and what a commit
puts in force (R107 to R110, R120, R133, R151, R159, R170, R187, R204, R212, R213, R238, R243, R315 to R326, R353, R354,
R466 to R478, R483, R520, R571, R603). -/

namespace Sys2Proof.Machine

/-! Candidate values. -/

/-- Elements whose committed value is a request to a unit, and is not stored. -/
def actElem (obj elem : Nat) : Bool :=
  match obj, elem with
  | 0x4100, 0x02 | 0x4101, 0x01 | 0x5000, 0x0A | 0x5100, 0x04 | 0x6210, 0x05 | 0x6300, 0x06 | 0x7000, 0x07
  | 0x7020, 0x04 | 0x7100, 0x02 | 0x8010, 0x02 | 0x8210, 0x03 | 0xA000, 0x02 | 0xA000, 0x03 | 0xA000, 0x04
  | 0xA000, 0x05 | 0xA200, 0x01 | 0xA200, 0x04 | 0xA310, 0x08 | 0xA310, 0x09 => true
  | _, _ => false

/-- The value that a staged entry gives its element (R456). -/
def entryValue (s : State) (e : Staged) : Nat := e.over (odView s (keyObj e.key) (keyElem e.key) (keyInst e.key))

/-- Put the stored values of entries in force. -/
def putEntries (s : State) (es : List Staged) : State :=
  es.foldl (fun s e =>
    if actElem (keyObj e.key) (keyElem e.key) then s
    else { s with dict.od := odPutKey e.key (entryValue s e) s.dict.od }) s

/-- The die script load that entries start, in a state that holds their values: image and channel mask (R213). -/
def scriptLoad (c : State) (es : List Staged) : Option (Nat × Nat) :=
  if (es.any fun e => e.key == odKey 0x3200 0x02 0) && od c 0x3200 0x02 != 0 then
    some (od c 0x3200 0x01, od c 0x3200 0x02)
  else none

/-- The load declares rows or parity bytes that differ from those in use on a target (R107). -/
def geometryDiffers (s : State) (image mask : Nat) : Bool :=
  (maskChans mask).any fun c =>
    (chan s c).hdr.rows != bytesAt 32 2 image || (chan s c).hdr.parityBytes != bytesAt 34 2 image

/-- The configuration as entries leave it. -/
def candidate (s : State) (es : List Staged) : State :=
  let c := putEntries s es
  match scriptLoad c es with
  | some (v, m) => if geometryDiffers s v m then setGeometry c v m else c
  | none => c

/-- Commits that wait for their epoch records, in order (R477, R603). -/
def waitingCommits (s : State) : List Answering :=
  ((s.dict.sets.flatMap (·.answering)).filter fun a => a.epoch != 0).mergeSort fun a b => a.epoch ≤ b.epoch

/-- The configuration that the commits before it leave, in force or waiting (R474). -/
def ahead (s : State) : State := (waitingCommits s).foldl (fun s a => candidate s a.waiting) s

/-- An entry's element is placement-relevant, or pair-wide (R107, R478). -/
def keyPlacement (k : Nat) : Bool :=
  match odFind (keyObj k) (keyElem k) with
  | some e => e.placement
  | none => false
def keyPairWide (k : Nat) : Bool :=
  match odFind (keyObj k) (keyElem k) with
  | some e => e.pairWide
  | none => false
def scriptKey (k : Nat) : Bool := k == odKey 0x3200 0x01 0 || k == odKey 0x3200 0x02 0

/-- The load of a set of entries changes the geometry. -/
def loadsGeometry (s : State) (es : List Staged) : Bool :=
  match scriptLoad (putEntries s es) es with
  | some (v, m) => geometryDiffers s v m
  | none => false

/-- A placement table without its fold priorities, and without the check over them (R158). -/
def foldless (t : Nat) : Nat := (List.range 8).foldl (fun t c => putBytes (49 + 64 * c) 1 t 0) (putBytes 12 4 t 0)

/-- A placement-relevant element takes a value other than the one in force (R107); a table that differs in its fold
priorities alone changes only timing (R158). -/
def valueChanges (s : State) (k v : Nat) : Bool :=
  let now := odView s (keyObj k) (keyElem k) (keyInst k)
  keyPlacement k && (if k = odKey 0x2210 0x01 0 then foldless v != foldless now else v != now)

/-- Some placement-relevant element changes (R107). -/
def changesPlacement (s : State) (es : List Staged) : Bool :=
  loadsGeometry s es || es.any fun e => valueChanges s e.key (entryValue s e)

/-! Units that cannot accept a value now (R471). -/

/-- Returns to phase 0 within the last 24 hours (R244). -/
def recentReturns (s : State) (d : Nat) : Nat :=
  ((die s d).returns.filter fun t => decide (s.health.seconds < t + 86400)).length

/-- Answer to a die's return request (R243, R244): a die in service has nothing to return from. -/
def dieReturnStatus (s : State) (d : Nat) : Nat :=
  let dd := die s d
  if (chan s (dieChan d)).faulted then 0x40
  else if dd.service = 0 then 0
  else if 1 ≤ dd.phase ∧ dd.phase ≤ 3 then 0x40
  else if 3 ≤ recentReturns s d then 0x41 else 0

/-- Answer to a channel's return request: that of its dies together. -/
def channelReturnStatus (s : State) (ch : Nat) : Nat :=
  let sts := (chanDies ch).map fun d => dieReturnStatus s d
  if sts.contains 0x40 then 0x40 else if sts.contains 0x41 then 0x41 else 0

/-- Answer to a write of OD 0x5000:0A (R315, R325, R326). -/
def pairControlStatus (s : State) (v : Nat) : Nat :=
  match v with
  | 3 => if pairRole s = 1 ∧ pairPhase s = 4 ∧ !s.pair.handing then 0 else 0x40
  | 4 => if s.pair.fenced ∧ od s 0x5000 0x0B = 1 then 0 else 0x40
  | 5 => if s.pair.fenced ∨ s.pair.detached then 0 else 0x40
  | _ => 0

/-- 0 where the unit behind an element takes the value now, else the status of the refusal (R471). -/
def unitStatus (s : State) (obj elem inst v : Nat) : Nat :=
  match obj, elem with
  | 0x4100, 0x02 => if v = 1 then dieReturnStatus s inst else 0
  | 0x4101, 0x01 => if v = 1 then channelReturnStatus s inst else 0
  | 0x5000, 0x0A => pairControlStatus s v
  | 0x6300, 0x06 => if v = 1 ∧ (fnc s inst).swapping then 0x40 else 0
  | 0x7020, 0x04 =>
    if v ≠ 1 ∨ pairRole s = 2 then 0
    else if (match ns? s inst with | some n => n.rot.isSome | none => false) then 0x41
    else if rotationBusy s inst then 0x40 else 0
  | 0x8010, 0x02 => if (sleepRefused s v).isSome then 0x40 else 0
  | 0x8210, 0x03 => if v = 1 ∧ ((eng s inst).phase = 1 ∨ (eng s inst).phase = 2) then 0x40 else 0
  | 0xA000, 0x03 => blockResetStatus s v
  | 0xA200, 0x01 => if v = 1 ∧ s.rst.life ≠ .maintenance then 0x40 else 0
  | _, _ => 0

/-- The status of the units behind a set of entries. -/
def unitsStatus (s : State) (es : List Staged) : Nat :=
  let sts := es.map fun e => unitStatus s (keyObj e.key) (keyElem e.key) (keyInst e.key) (entryValue s e)
  if sts.contains 0x40 then 0x40 else if sts.contains 0x41 then 0x41 else 0

/-! The rules that tie objects together (R470). -/

/-- Elements of an object whose rule names a second element. -/
def tied : Nat → List Nat
  | 0x2200 => [1, 4, 5] | 0x3100 => [1, 4] | 0x6300 => [1] | 0x8000 => [2] | 0x8100 => [3] | 0x8300 => [2]
  | 0x8400 => [1] | 0x9200 => [6, 7] | _ => []

/-- Each staged value still passes its checks, and so do the elements tied to it. -/
def valuesOk (s c : State) (who : Requester) (t : Staging) : Bool :=
  t.entries.all fun e =>
    let o := keyObj e.key
    let i := keyInst e.key
    (match odFind o (keyElem e.key) with
      | some x => inRange x (entryValue s e) && mayWrite s who true x (entryValue s e) &&
          ruleOk s (stagedView s t) o (keyElem e.key) i (entryValue s e) && !frozen s x i
      | none => false) &&
    (tied o).all fun k => ruleOk c (odView c) o k i (odView c o k i)

/-- The first condition of R151 that a change of the row reservations does not meet. -/
def rowsUnmet (s c : State) : Option Nat :=
  if rowsR c = rowsR s ∧ rowsT c = rowsT s ∧ rowsS c = rowsS s ∧ ringsN c = ringsN s then none
  else
    let lo := rowsR s - rowsT s - rowsS s
    let hi := rowsR c - rowsT c - rowsS c
    if s.zones.any fun e => e.2.st.active then some 1
    else if s.rings.any fun e => !e.2.cells.isEmpty then some 2
    else if s.nss.any fun n => (n.zones ++ n.poolRows).any fun z => decide (zoneCount c ≤ z) then some 3
    else if s.dies.any fun e => (List.range (hi - lo)).any fun i =>
        let b := goodBlock e.2 (lo + i)
        e.2.taken.contains b && !e.2.returned.contains b then some 4
    else if rowsR c < rowsS c + rowsT c + 72 then some 5
    else none

/-- A changed placement table is well formed and leaves the classes in use as they are (R159). -/
def tableOk (s c : State) (es : List Staged) : Bool :=
  (es.all fun e => e.key != odKey 0x2210 0x01 0 || ptableOk (entryValue s e)) &&
  (ptable c == ptable s || s.nss.all fun n =>
    let a := classEntry (ptable s) n.pclass
    let b := classEntry (ptable c) n.pclass
    classGroups a == classGroups b && classOrder a == classOrder b && classFlags a == classFlags b)

/-- The tiers fit their memories (R520). -/
def tiersOk (c : State) : Bool :=
  let sum (elem : Nat) : Nat := (List.range 6).foldl (fun a p => a + od c 0x9200 elem p * bufSize p) 0
  decide (sum 2 ≤ 100663296) &&
  decide (3 * dramCapacity c ≤ 4 * (dramCapacity c - (sum 3 + Config.copyBytes + 4096 * od c 0x9100 0x0B)))

/-- Objects that the contract tests read (R187, R353, R427). -/
def contractObjs : List Nat := [0x3100, 0x3110, 0x6200, 0x6210, 0x8000]

/-- The object named where a commit fails a contract test (R187, R353, R354): a lens staged in the contract class fails
its own tests, or a contract group in use fails one that it met before. -/
def contractFails (s c : State) (es : List Staged) : Option Nat :=
  let objs := (es.map fun e => keyObj e.key).filter fun o => contractObjs.contains o
  let lenses := (es.filter fun e => keyObj e.key == 0x6200 || keyObj e.key == 0x6210).map fun e => keyInst e.key
  let own := lenses.any fun l => od c 0x6210 0x02 l == 0 && !lensContractOk c l
  let others := !objs.isEmpty && (contractLenses c).any fun l => (lensGroups c l).any fun g =>
    !groupTests c g && !(isContract s g && !groupTests s g)
  if own || others then objs.min? else none

/-- A change of S in the preserve state of a pair leaves every die of both twins above the reserve (R238): the lead tests
it, and the write in the twin role is taken as it comes (R478). -/
def preserveOk (s c : State) (twin : Bool) (twinSpares : Nat) : Bool :=
  !s.adm.preserve || rowsS c == rowsS s || pairRole s == 0 || twin ||
  (pairRole s == 1 && decide (3 ≤ pairPhase s) && decide (od s 0x4010 0x05 < leastSpares c) &&
    decide (od s 0x4010 0x05 + rowsS s < twinSpares + rowsS c))

/-- The layout and declared values of a die script image (R170, R204, R205). -/
def scriptLayoutOk (c : State) (v : Nat) : Bool :=
  let n := bytesAt 6 2 v
  let within (x lo hi : Nat) : Bool := decide (lo ≤ x ∧ x ≤ hi)
  let slot := od c 0x3100 0x01
  bytesAt 0 4 v == 0x52435344 && bytesAt 4 2 v == 1 && within n 16 2048 && decide (bytesAt 12 1 v ≤ 3) &&
  bytesAt 13 3 v == 0 && within (bytesAt 32 2 v) 512 8192 && within (bytesAt 34 2 v) 128 1024 &&
  bytesAt 34 2 v % 64 == 0 && decide (bytesAt 40 2 v ≤ slot) &&
  decide (ceilDiv (bytesAt 42 2 v) slot + 1 ≤ bytesAt 46 2 v) && decide (bytesAt 48 1 v ≤ 1) &&
  decide (bytesAt 49 1 v ≤ 1) && decide (bytesAt 50 2 v ≤ if bytesAt 48 1 v = 0 then 1600 else 4800) &&
  bytesAt 52 12 v == 0 && (List.range 14).all fun i => bytesAt (64 + 2 * i) 2 v != 0xFFFF

/-- The image's key, version and signature (R212). -/
def scriptSigned (s : State) (v : Nat) : Bool :=
  let b := 96 + 4 * bytesAt 6 2 v
  keyAccepts s (bytesAt 12 1 v) (bytesAt 8 4 v) (bytesAt b 96 v) (bytesAt (b + 96) 96 v)
    (Config.sha384 (b + 96) (bytesAt 0 (b + 96) v))

/-- The image suits its target channels: the smallest die, and the interface of the quad (R120, R571). -/
def scriptFits (s : State) (v mask : Nat) : Bool :=
  (maskChans mask).all fun ch =>
    ((chanDies ch).all fun d => (die s d).service != 0 || decide (bytesAt 32 2 v ≤ (die s d).blocks)) &&
    bytesAt 48 1 v == (if (od s 0xB000 0x02).testBit (ch / 16) then 0 else 1)

/-- Every rule that a load meets before any channel is touched (R213). -/
def scriptOk (s c : State) (v mask : Nat) : Bool := scriptLayoutOk c v && scriptSigned s v && scriptFits s v mask

/-- The images that a set of entries loads are accepted (R213, R449). -/
def imagesOk (s c : State) (es : List Staged) : Bool :=
  (match scriptLoad c es with
    | some (v, m) => scriptOk s c v m
    | none => true) &&
  es.all fun e => keyObj e.key != 0x8210 || keyElem e.key != 0x01 || loopImageOk s (keyInst e.key) (entryValue s e)

/-- Record why a commit is refused, where a rule asks for it (R151, R212). -/
def refusalEvents (s c : State) (es : List Staged) : State :=
  let s := match rowsUnmet s c with
    | some k => loupe s 151 0x22 3 [k]
    | none => s
  let s := match scriptLoad c es with
    | some (v, _) => if scriptSigned s v then s else loupe s 212 0x32 4 []
    | none => s
  es.foldl (fun s e =>
    if keyObj e.key = 0x8210 ∧ keyElem e.key = 0x01 ∧ !loopImageOk s (keyInst e.key) (entryValue s e) then
      loupe s 212 0x82 4 [keyInst e.key] else s) s

/-- The epoch that a placement commit would take, none where it cannot (R92, R108). -/
def nextEpoch (s : State) : Option Nat :=
  let k := (waitingCommits s).length
  let e := od s 0x2100 0x06 + k + 1
  if s.adm.spent ∨ 0xFFFFFFFF < e ∨ 2 ^ 64 - 1 ≤ s.adm.nextAsn + k then none else some e

/-! What a commit starts. -/

/-- Begin a die's probation (R243). -/
def dieReturn (s : State) (d : Nat) : State :=
  let dd := die s d
  if dieReturnStatus s d ≠ 0 ∨ dd.service = 0 then s
  else
    let s := setDie s d { dd with service := 2, phase := 1, st := .idle, cleanFrames := 0, verified := [] }
    let s := startReinit s d 8
    if (chan s (dieChan d)).state = 3 then setChanState s (dieChan d) 2 else s

/-- Begin the probation of every die of a channel (R243). -/
def channelReturn (s : State) (ch : Nat) : State :=
  if channelReturnStatus s ch ≠ 0 then s
  else
    let s := if (chan s ch).state = 3 then setChanState s ch 2 else s
    (chanDies ch).foldl dieReturn s

/-- Attach the twin (R317): the link trains again, and the attach follows. -/
def pairAttach (s : State) : State :=
  if pairPhase s ≠ 0 then s
  else { s with pair.detached := false, pair.linkUp := false, pair.session := false }

/-- Detach the twin (R326): the lead separates, and a follower asks its lead to. -/
def pairDetach (s : State) : State :=
  if pairPhase s = 0 then s
  else if pairRole s = 1 then separate s
  else if pairRole s = 2 then sendFrame s 0 0x04 [3, 0] else s

/-- Hand the lead role over (R325): new commands wait before check 7. -/
def startHandover (s : State) : State := { s with pair.handing := true, adm.holdAll := true }

/-- Discard the history above the fork point and attach as follower (R315). The fork point is its own where it promoted
itself, and the lead's otherwise, which comes with the attach (R318). -/
def discardHistory (s : State) : State :=
  let s := if s.pair.promoted then discardAbove s (od s 0x5000 0x07) else s
  let s := odSave (odSave s 0x5000 0x0B 0 0) 0x5000 0x01 0 2
  if s.pair.linkUp then meetAsFollower s (od s 0x5000 0x04) false else s

/-- Become an unpaired controller under an NQN of its own serial (R315, R316). -/
def clearPair (s : State) : State :=
  let s := odSave (odSave (odSave (odSave (setPhase s 0) 0x5000 0x0B 0 0) 0x5000 0x01 0 0) 0x5000 0x04 0 0) 0x1010 0x02 0 0
  let s := setAna { s with pair.fenced := false, pair.detached := false, pair.waiting := false, pair.wasLead := false
                           pair.promoted := false, pair.newTwin := false, pair.linkUp := false, pair.session := false } 1
  endBootWait s

/-- The pair control element (R341). -/
def pairControl (s : State) (v : Nat) : State :=
  if pairControlStatus s v ≠ 0 then s
  else match v with
    | 1 => pairAttach s
    | 2 => pairDetach s
    | 3 => startHandover s
    | 4 => discardHistory s
    | 5 => clearPair s
    | _ => s

/-- A write log that is switched on starts empty (R363). -/
def freshLog (s : State) (l : Nat) : State :=
  setFn s l { fnc s l with logActive := 0, logA := [], logB := [], flagsA := 0, flagsB := 0, seqA := 0, seqB := 0
                           swapping := false }

/-- The designation of a contract group takes effect: joining, or ended (R173). -/
def designate (s : State) (g v : Nat) : State :=
  if v = 1 then (if (grp s g).state = 0 then setGrp s g { grp s g with state := 1, causes := 0, d := dOf s g } else s)
  else setGrp s g { grp s g with state := 0, causes := 0, causeInFrame := false }

/-- What the value of one element starts. before holds the values that stood. -/
def startOf (before s : State) (obj elem inst v : Nat) : State :=
  match obj, elem with
  | 0x2230, 0x01 => cacheTrim s
  | 0x3100, 0x02 => { s with sched.mask := v }
  | 0x3110, 0x01 => designate s inst v
  | 0x4100, 0x02 => if v = 1 then dieReturn s inst else s
  | 0x4101, 0x01 => if v = 1 then channelReturn s inst else s
  | 0x5000, 0x0A => pairControl s v
  | 0x5100, 0x04 => removeMember s v
  | 0x6210, 0x05 => setPause s inst v
  | 0x6300, 0x01 => if v = 1 ∧ od before 0x6300 0x01 inst = 0 then freshLog s inst else s
  | 0x6300, 0x06 => if v = 1 then requestSwap s inst else s
  | 0x7020, 0x04 => if v = 1 then startRotation s inst else s
  | 0x7100, 0x02 => raiseMin s v
  | 0x8010, 0x02 => requestSleep s v
  | 0x8210, 0x01 => loadLoop s inst v
  | 0x8210, 0x03 => if v = 1 then returnEngine s inst else s
  | 0xA000, 0x03 => blockReset s (v / 256) (v % 256)
  | 0xA000, 0x04 => clearFailures s
  | 0xA000, 0x05 => { s with rst.maintain := v == 1 }
  | 0xA200, 0x01 => if v = 1 then startLogic s else s
  | 0xA200, 0x04 => if v = 1 then startPass s else s
  | 0xA310, 0x08 => if v = 1 then { s with loupe.live := [] } else s
  | 0xA310, 0x09 => { s with loupe.frozen := false }
  | _, _ => s

/-- Look again at what depends on values just put in force. -/
def settleValues (s : State) : State :=
  updateWindow (updateGroups (retag s) ((List.range 128).filter fun g => isContract s g))

/-- Put entries in force and start what they start (R470). -/
def applyEntries (s : State) (es : List Staged) : State :=
  let values := es.map fun e => (e, entryValue s e)
  let geo := loadsGeometry s es
  let put := putEntries s es
  let t := values.foldl (fun (t : State) (p : Staged × Nat) =>
    startOf s t (keyObj p.1.key) (keyElem p.1.key) (keyInst p.1.key) p.2) put
  let t := match scriptLoad put es with
    | some (v, m) => startLoad (if geo then setGeometry t v m else t) v m
    | none => t
  settleValues t

/-- The values of entries that row 0 keeps (R463). -/
def savedValues (s : State) (es : List Staged) : List (Nat × Nat) :=
  es.filterMap fun e =>
    match odFind (keyObj e.key) (keyElem e.key) with
    | some x => if x.persist ≠ 0 ∧ !actElem x.obj x.elem then some (e.key, entryValue s e) else none
    | none => none

def saveKeys (s : State) (l : List (Nat × Nat)) : State :=
  l.foldl (fun s e => { s with dict.durable := odPutKey e.1 e.2 s.dict.durable }) s

/-! One commit. -/

/-- A commit taken within its group. -/
structure Taken where
  q : CommitReq
  status : Nat
  keys : List Nat := []
  saved : List (Nat × Nat) := []
  waiting : List Staged := []
  epoch : Nat := 0
  forwarded : Bool := false
  /-- object of R354, where the contract tests fail -/
  contract : Nat := 0
  reset : Bool := false
deriving DecidableEq, Repr

/-- May the requester commit at all (R459, R488). -/
def mayCommit (s : State) (q : CommitReq) : Bool := mayAct s q.who q.secured

/-- A later commit's values stand over those that still wait for an earlier one's record. -/
def dropWaiting (s : State) (keys : List Nat) : State :=
  let cut (a : Answering) : Answering := { a with waiting := a.waiting.filter fun e => !keys.contains e.key }
  { s with dict.sets := s.dict.sets.map fun t => { t with answering := t.answering.map cut } }

/-- The values of entries that wait for an epoch record, where the commit takes one: the placement-relevant ones, and a
load that changes the geometry (R107, R110). -/
def epochValues (s : State) (es : List Staged) : List (Nat × Nat) :=
  let geo := loadsGeometry s es
  if !changesPlacement s es then []
  else (es.filter fun e => keyPlacement e.key || (geo && scriptKey e.key)).map fun e => (e.key, entryValue s e)

/-- The twin's configuration with the values that wait for the lead's epoch records. -/
def twinAhead (s : State) : State :=
  { s with dict.od := s.dict.waitEpoch.flatten.foldl (fun od e => odPutKey e.1 e.2 od) s.dict.od }

/-- The twin's values wait for the lead's epoch record (R110, R478). -/
def twinCommit (s : State) (q : CommitReq) (es : List Staged) : State × Taken :=
  let batch := epochValues (twinAhead s) es
  let s := if batch.isEmpty then s else { s with dict.waitEpoch := s.dict.waitEpoch ++ [batch] }
  let s := applyEntries s (es.filter fun e => !batch.any fun b => b.1 == e.key)
  (odBump (dropSet s q.who) 0xF010 0x01, { q := q, status := 0, keys := es.map (·.key) })

/-- Send the entries of a set over a link as writes, and then the commit (R478, R479). -/
def sendSet (s : State) (port rank : Nat) (es : List Staged) : State :=
  let s := es.foldl (fun s e => e.cover.foldl (fun s p =>
    sendFrame s port 0x30 [1, rank, 2, keyObj e.key, keyElem e.key, keyInst e.key, p.1, p.2 - p.1,
      bytesAt p.1 (p.2 - p.1) e.value]) s) s
  sendFrame s port 0x30 [1, rank, 2, 0xF010, 0x00, 0, 0, 1, 1]

/-- Check and apply one requester's set (R470, R471, R478), all or nothing. -/
def commitOne (s : State) (q : CommitReq) : State × Taken :=
  let t := staging s q.who
  let es := t.entries
  let a := ahead s
  let c := candidate a es
  let refuse (st : Nat) : State × Taken := (s, { q := q, status := st })
  if !mayCommit s q then refuse 0x20
  else if es.any fun e => !writeServed s q.who (keyObj e.key) (keyElem e.key) then refuse 0x40
  else if es.isEmpty then
    if s.rst.life = .service ∨ Requester.rank q.who = 2 then (s, { q := q, status := 0 }) else refuse 0x40
  else
    let geo := loadsGeometry a es
    let wide (e : Staged) : Bool := keyPairWide e.key || (geo && scriptKey e.key)
    if q.who ≠ .twin ∧ pairRole s = 2 ∧ es.any wide then
      if !es.all wide then refuse 0x50
      else if pairPhase s < 3 then refuse 0x40
      else (sendSet s 0 (Requester.rank q.who) es, { q := q, status := 0, forwarded := true })
    else
      let u := unitsStatus a es
      let fails := contractFails a c es
      let place := q.who ≠ .twin && changesPlacement a es
      if u ≠ 0 then refuse u
      else if !valuesOk a c q.who t || (rowsUnmet a c).isSome || !tableOk a c es || !preserveOk a c (q.who == .twin) q.twinSpares ||
          (es.any (fun e => keyObj e.key == 0x9200 || keyObj e.key == 0x9100) && !tiersOk c) || !imagesOk a c es ||
          (place && (nextEpoch s).isNone) then
        (refusalEvents s c es, { q := q, status := 0x50 })
      else match fails with
        | some o => (s, { q := q, status := 0x50, contract := o })
        | none =>
          let reset := es.any fun e => e.key == odKey 0xA000 0x02 0 && entryValue s e == 1
          if q.who = .twin then twinCommit s q es
          else if place then
            (dropSet s q.who, { q := q, status := 0, keys := es.map (·.key), saved := savedValues a es, waiting := es
                                epoch := (nextEpoch s).getD 0, reset := reset })
          else
            let s := applyEntries (dropWaiting s (es.map (·.key))) es
            let twin := es.filter wide
            let s := if pairRole s = 1 ∧ s.pair.linkUp ∧ !twin.isEmpty then sendSet s 0 3 twin else s
            (odBump (dropSet s q.who) 0xF010 0x01,
              { q := q, status := 0, keys := es.map (·.key), saved := savedValues a es, reset := reset })

/-! Answers (R475, R476, R483). -/

/-- The value of a commit's answer: status, epoch and up to 16 superseded elements (R476). -/
def commitValue (s : State) (status : Nat) (sup : List Nat) : Nat :=
  let item (k : Nat) : Nat := keyObj k + keyElem k * 2 ^ 16 + keyInst k * 2 ^ 32
  status + od s 0x2100 0x06 * 2 ^ 32 + pack 64 ((sup.take 16).map item) * 2 ^ 64

def commitEntry : OdReq := { obj := 0xF010, elem := 0, inst := 0, target := 0, offset := 0, length := 1 }

/-- Answer a commit and remember its status for OD 0xF010:00; the duration of OD 0xF010:04 is a free value. -/
def commitAnswer (s : State) (who : Requester) (status : Nat) (sup : List Nat) : State :=
  let s := setStaging s { staging s who with last := status }
  let s := useFree (odSet s 0xF010 0x04 0 (freeVal s % 2 ^ 32))
  answer s who commitEntry status (8 + 8 * Nat.min 16 sup.length) (commitValue s status sup)

/-- The commit's durable writes are outstanding. -/
def isPending (t : Taken) : Bool := t.forwarded || t.epoch != 0 || !t.saved.isEmpty

/-- Keep a commit until its row 0 copy is durable, with the rest of its request list. -/
def keepAnswer (s : State) (t : Taken) (sup : List Nat) (count : Nat) (rest : List DictOp) : State :=
  let a : Answering := { q := t.q, status := if sup.isEmpty then 0 else 0x21, superseded := sup, saved := t.saved
                         waiting := t.waiting, epoch := t.epoch, forwarded := t.forwarded, count := count, rest := rest }
  let g := staging s t.q.who
  setStaging s { g with answering := g.answering ++ [a] }

/-- Complete the Dictionary Write of a processed list (R483). -/
def listDone (s : State) (q : CommitReq) (count status obj : Nat) : State :=
  match q.a with
  | some a => dictDone s a stOk (count % 65536 + status * 65536) obj .none
  | none => s

/-- Complete the Dictionary Write whose commit fails the contract tests (R83, R354). -/
def contractDone (s : State) (q : CommitReq) (obj : Nat) : State :=
  match q.a with
  | some a => dictDone s a stContract obj 0 .none
  | none => s

/-- The entries of a request list in order, up to the first that fails or a commit whose durable writes are outstanding
(R482, R483). -/
def runList (q : CommitReq) : List DictOp → Nat → State → State
  | [], n, s => listDone s q n 0 0
  | o :: rest, n, s =>
    let r := DictOp.req o
    let next (s : State) (st : Nat) : State := if st = 0 then runList q rest (n + 1) s else listDone s q n st r.obj
    let said (p : State × Nat × Nat × Nat) : State := next (answer p.1 q.who r p.2.1 p.2.2.1 p.2.2.2) p.2.1
    if Requester.rank q.who = 0 ∧ r.target ≠ 0 then next (answer s q.who r 0x20) 0x20
    else if !(DictOp.code o == 1 || DictOp.code o == 2 || DictOp.code o == 3 || DictOp.code o == 4) then
      next (answer s q.who r 0x31) 0x31
    else match targetOf s q.who r.target with
      | .relay p => next (relay s q.who p o) 0
      | .absent => next (answer s q.who r 0x40) 0x40
      | .unknown => next (answer s q.who r 0x31) 0x31
      | .here =>
        match o with
        | .read r => said (readOd s q.who r false)
        | .readStaged r => said (readOd s q.who r true)
        | .describe r => said (describeOd s q.who r)
        | .other _ r => next (answer s q.who r 0x31) 0x31
        | .write r v =>
          if r.obj = 0xF010 ∧ r.elem = 0 ∧ v = 1 then
            let p := commitOne s q
            let t := p.2
            if t.contract ≠ 0 then contractDone (commitAnswer p.1 q.who t.status []) q t.contract
            else if t.status = 0 && isPending t then keepAnswer p.1 t [] n rest
            else
              let s := next (commitAnswer p.1 q.who t.status []) t.status
              if t.reset then raise s 6 else s
          else if r.obj = 0xF010 ∧ r.elem = 0 ∧ v = 2 then
            let p := discardSet s q.who q.secured
            next (answer p.1 q.who r p.2) p.2
          else
            let p := stageWrite s q.who r v q.secured
            next (answer p.1 q.who r p.2) p.2

/-! The rows. -/

/-- Bytes of a request list (R481). -/
def entryBytes (ops : List DictOp) : Nat :=
  (ops.map fun o => match o with
    | .write r _ => 16 + 8 * ceilDiv r.length 8
    | _ => 16).sum

/-- Bytes of a request list in an MCTP message (R487). -/
def listBytes (ops : List DictOp) : Nat := 7 + entryBytes ops

/-- An entry runs past the data buffer (R483). -/
def overruns (q : CommitReq) (ops : List DictOp) : Bool :=
  match q.limit with
  | some n => decide (n < entryBytes ops)
  | none => false

/-- A list of more than 256 entries, of none, or with an entry past its data buffer is malformed (R481, R483); an MCTP message above 16 KiB is discarded and
counted (R487). -/
def execDictWrite (q : CommitReq) (ops : List DictOp) (s : State) : Host.Outcome State Fault Refusal :=
  .next (if !reaches s q.who then s
    else if Requester.rank q.who = 2 ∧ 16384 < listBytes ops then odBump s 0xF030 0x04
    else if ops.isEmpty ∨ 256 < ops.length ∨ overruns q ops then
      match q.a with
      | some a => dictDone s a stField 0 0 .none
      | none => s
    else runList q ops 0 s)

/-- The order of a commit group: ascending rank, and within a rank the rotation over requester numbers (R40, R474). -/
def groupOrder (s : State) : Nat → List CommitReq → State × List CommitReq
  | 0, _ => (s, [])
  | fuel + 1, l =>
    match (l.map fun q => Requester.rank q.who).min? with
    | none => (s, [])
    | some k =>
      let same := l.filter fun q => Requester.rank q.who == k
      match rotPick (s.dict.rankPtr.getD k 0) (same.map fun q => Requester.number q.who) with
      | none => (s, [])
      | some n =>
        let s := { s with dict.rankPtr := s.dict.rankPtr.set k (n + 1) }
        match same.find? fun q => Requester.number q.who == n with
        | none => (s, [])
        | some q =>
          let p := groupOrder s fuel (l.erase q)
          (p.1, q :: p.2)

/-- The keys of a commit that later commits of its group replaced (R475). -/
def supersededBy (t : Taken) (later : List Taken) : List Nat :=
  t.keys.filter fun k => later.any fun u => u.keys.contains k

/-- Answer the commits of a group in the order taken. -/
def answerGroup : List Taken → State → State
  | [], s => s
  | t :: later, s =>
    let sup := if t.status = 0 then supersededBy t later else []
    let s := if sup.isEmpty then s else odBump s 0xF010 0x05 0 sup.length
    let st := if sup.isEmpty then t.status else 0x21
    let s := if t.contract ≠ 0 then contractDone (commitAnswer s t.q.who t.status []) t.q t.contract
      else if t.status = 0 && isPending t then keepAnswer s t sup 0 []
      else
        let s := commitAnswer s t.q.who st sup
        let ok := st = 0 ∨ st = 0x21
        listDone s t.q (if ok then 1 else 0) (if ok then 0 else st) (if ok then 0 else 0xF010)
    answerGroup later s

/-- The commits of one fabric cycle (R473 to R477). -/
def execCommit (group : List CommitReq) (s : State) : Host.Outcome State Fault Refusal :=
  let here := group.filter fun q => reaches s q.who
  let o := groupOrder s here.length here
  let r := o.2.foldl (fun (p : State × List Taken) q =>
    let x := commitOne p.1 q
    (x.1, p.2 ++ [x.2])) (o.1, [])
  let s := answerGroup r.2 r.1
  .next (if r.2.any (·.reset) then raise s 6 else s)

/-- The epoch record of a commit whose row 0 copy is durable: its values, the lead's write to the follower, the new epoch
and the record (R107, R152, R238, R478, R603). -/
def commitEpoch (s : State) (a : Answering) : State :=
  let before := s
  let s := saveKeys s a.saved
  let s := if pairRole s = 1 ∧ s.pair.linkUp then
      sendSet s 0 3 (a.waiting.filter fun e => keyPairWide e.key || (loadsGeometry s a.waiting && scriptKey e.key)) else s
  let s := { s with dict.epochs := kvPut [] a.epoch (epochValues s a.waiting) s.dict.epochs }
  let s := applyEntries s a.waiting
  let s := epochRecord (odSave s 0x2100 0x06 0 a.epoch)
  odBump (leavePreserve before (reformat before s)) 0xF010 0x01

/-- A requester's oldest commit is durable, or the lead has answered it (R472, R478, R603). A commit whose epoch record
finds only the last ASN left is refused (R92; log entry 120). -/
def execCommitDurable (who : Requester) (leadStatus : Nat) (s : State) : Host.Outcome State Fault Refusal :=
  let g := staging s who
  .next (match g.answering with
    | [] => s
    | a :: more =>
      if a.epoch ≠ 0 ∧ a.epoch ≠ od s 0x2100 0x06 + 1 then s
      else
        let last := a.epoch ≠ 0 ∧ (s.adm.spent ∨ 2 ^ 64 - 1 ≤ s.adm.nextAsn)
        let st := if a.forwarded then leadStatus else if last then 0x50 else a.status
        let ok := st = 0 ∨ st = 0x21
        let s := if ok then { s with dict.copy := 1 - s.dict.copy } else s
        let s := setStaging s { g with answering := more }
        let s := if a.forwarded then (if ok then dropSet s who else s)
          else if last then s
          else if a.epoch ≠ 0 then commitEpoch s a
          else saveKeys s a.saved
        let s := commitAnswer s who st a.superseded
        if ok then runList a.q a.rest (a.count + 1) s else listDone s a.q a.count st 0xF010)

/-- Write an image and its target channels, and commit (R213). -/
def execDieScriptLoad (q : CommitReq) (image channels : Nat) (s : State) : Host.Outcome State Fault Refusal :=
  let img : OdReq := { obj := 0x3200, elem := 1, inst := 0, target := 0, offset := 0, length := 8480 }
  let chs : OdReq := { obj := 0x3200, elem := 2, inst := 0, target := 0, offset := 0, length := 8 }
  .next (if !reaches s q.who then s
    else runList q [.write img image, .write chs channels, .write commitEntry 1] 0 s)

def execDieReturn (d : Nat) (s : State) : Host.Outcome State Fault Refusal :=
  .next (if s.rst.life = .service then dieReturn s d else s)

def execChannelReturn (ch : Nat) (s : State) : Host.Outcome State Fault Refusal :=
  .next (if s.rst.life = .service then channelReturn s ch else s)

/-- A committed write of OD 0x5000:0A in service, or while a fenced twin waits at its restart (R315, R316). -/
def pairWrite (s : State) (v : Nat) : State :=
  if s.rst.life = .service ∨ s.pair.bootWait then pairControl s v else s

def execPairAttach (s : State) : Host.Outcome State Fault Refusal := .next (pairWrite s 1)

def execPairDetach (s : State) : Host.Outcome State Fault Refusal := .next (pairWrite s 2)

def execHandover (s : State) : Host.Outcome State Fault Refusal := .next (pairWrite s 3)

def execDiscardHistoryAndAttach (s : State) : Host.Outcome State Fault Refusal := .next (pairWrite s 4)

def execClearPairing (s : State) : Host.Outcome State Fault Refusal := .next (pairWrite s 5)

end Sys2Proof.Machine
end

