-- ==== Sys2Proof/Machine/Admin.lean ====
section
/-! DEFINITION. The admin commands: Namespace Management and Attachment, Format NVM, Sanitize, Abort, Set Features FDP,
the log pages and Asynchronous Event Request (R49 to R51, R59, R64, R78 to R81, R83 to R87, R101 to R103, R156 to R160,
R252, R253, R329, R333, R342, R343, R353, R357, R370, R378, R396, R401, R402, R566, R607). -/

namespace Sys2Proof.Machine

/-! Status codes of NVM Express (log entry 13). -/

def stSequence : Nat := 0x00C
def stFormat : Nat := 0x10A
def stInsufficient : Nat := 0x115
def stNoNsid : Nat := 0x116
def stHandleList : Nat := 0x02A
def stAttached : Nat := 0x118
def stNotAttached : Nat := 0x11A
def stCtrlList : Nat := 0x11C

/-! Operations that the lead, a follower and cascade members share. -/

/-- Operation codes of the frames between controllers: NVMe opcodes, with 0x10D for a create. -/
def codeCreate : Nat := 0x10D
def codeDelete : Nat := 0x0D
def codeFormat : Nat := 0x80
def codeSanitize : Nat := 0x84

/-- Hold an admin command in the device. -/
def admCmd (s : State) (a : Adm) (code nsid : Nat) (st : Stage) : State × Cmd :=
  let c : IoCmd := { fn := a.fn, sq := 0, cid := a.cid, nsid := nsid, slba := 0, nlb := 0, cross := 0, dptr := 0
                     cqAddr := a.cqAddr, pasid := 0xFFFFFFFF, badField := false, selectAll := false, dspec := none
                     ilbrt := 0, lbat := 0, lbatm := 0, piRemap := false, host := 0 }
  let k : Cmd := { id := s.host.nextId, op := .other code, io := c, gen := curGen s a.fn, stage := st }
  (holdCmd { s with host.nextId := s.host.nextId + 1 } k, k)

/-- Forward an admin operation to a cascade member under a master tag (R329, R333). -/
def forwardAdmin (s : State) (k : Cmd) (pos : Nat) (body : List Nat) : State :=
  let tag := s.casc.nextTag
  let m := member s pos
  let s := setMember s pos { m with sent := m.sent ++ [(tag, k.id)] }
  sendFrame (odBump { s with casc.nextTag := tag + 1 } 0x5110 0x03 pos) pos 0x41 (tag :: body)

/-- A follower hands a host's command to its lead (R157); without its lead it cannot serve it. -/
def askLead (s : State) (a : Adm) (code nsid : Nat) (body : List Nat) : State :=
  if pairPhase s < 3 then adminDone s a stAnaInaccessible
  else
    let (s, k) := admCmd s a code nsid .order
    sendFrame s 0 0x04 ([11, code, k.id, nsid] ++ body)

/-- The follower's own command that the lead has answered. -/
def askedCmd (s : State) (code : Nat) : Option Cmd :=
  s.host.cmds.find? fun k => k.op == .other code && k.stage == .order

/-- Complete the follower's own command with the lead's status. -/
def leadAnswer (s : State) (code status dw0 : Nat) : State :=
  match askedCmd s code with
  | some k => finishCmd s { k with status := status, dw0 := dw0 }
  | none => s

/-- A member's answer to its master. -/
def answerMaster (s : State) (tag status : Nat) : State := sendFrame s 1 0x40 [tag, status, 0, 0, sealedHead s]

/-- Refuse an admin command; one that waits for a step names the time left of it (R83, log entry 106). -/
def refuseAdmin (s : State) (a : Adm) (st : Nat) : State :=
  if st = stStep then adminDone (useFree s) a st (stepWait s) else adminDone s a st

/-- A step that cannot be abandoned holds a row of the namespace (R83). -/
def nsStep (s : State) (n : Ns) : Bool := (n.zones ++ n.poolRows).any fun z => zoneStep s z

/-! Namespace Management create (R49, R50, R78, R156 to R160, R329). -/

/-- The fields of a create. -/
structure CreateReq where
  zoned : Bool
  size : Nat
  lbaf : Nat
  pit : Nat
  parity : Nat
  pclass : Nat
  activeQuota : Nat
  openQuota : Nat
  handles : List Nat
deriving DecidableEq, Repr

def CreateReq.active (c : CreateReq) : Nat := if !c.zoned then 0 else if c.activeQuota = 0 then 256 else c.activeQuota
def CreateReq.opens (c : CreateReq) : Nat := if !c.zoned then 0 else if c.openQuota = 0 then CreateReq.active c else c.openQuota
/-- A conventional create that names no size has 1 TiB (R78; log entry 122). -/
def CreateReq.sized (c : CreateReq) : CreateReq :=
  if !c.zoned ∧ c.size = 0 then { c with size := 2 ^ 40 / blockBytes c.lbaf } else c
/-- The placement handle list (R80): that of the create while FDP is on, else handle 0 alone (log entry 90). -/
def CreateReq.place (s : State) (c : CreateReq) : List Nat :=
  if s.host.fdp ∧ !c.zoned ∧ c.handles ≠ [] then c.handles else [0]
def CreateReq.bytes (c : CreateReq) : Nat := c.size * blockBytes c.lbaf
/-- Zones of a zoned namespace, and pool rows of a conventional one (R160). -/
def CreateReq.need (c : CreateReq) : Nat :=
  if c.zoned then c.size / zszeOf c.lbaf else ceilDiv (9 * CreateReq.bytes c) (8 * 4096 * capUnits (c.parity + 1))

/-- The fields are in range (R49, R50). -/
def fieldsOk (c : CreateReq) (reservedZero : Bool) : Bool :=
  reservedZero && decide (c.parity ≤ 1) && decide (c.pclass ≤ 7) && c.size != 0 &&
  (if c.zoned then decide (c.activeQuota ≤ 8192) && decide (CreateReq.opens c ≤ CreateReq.active c) && c.size % zszeOf c.lbaf == 0
   else c.activeQuota == 0 && c.openQuota == 0)

/-- The LBA format and protection information go together (R48): only a format with metadata carries any. -/
def formatOk (lbaf pit : Nat) : Bool := decide (lbaf ≤ 4) && decide (pit ≤ 3) && (pit == 0 || metaBytes lbaf != 0)

/-- A placement handle list names reclaim unit handles, each once (log entry 90). -/
def handlesOk (l : List Nat) : Bool := l.all (fun h => decide (h < 64)) && l.eraseDups.length == l.length

/-- The first rows, in an order, that are unassigned and allowed. -/
def pickRows (s : State) (order : Nat → Nat) (allowed : Nat → Bool) : Nat → Nat → Nat → List Nat
  | _, _, 0 => []
  | 0, _, _ => []
  | fuel + 1, i, need + 1 =>
    let z := order i
    if allowed z && !rowUsed s z then z :: pickRows s order allowed fuel (i + 1) need
    else pickRows s order allowed fuel (i + 1) (need + 1)

/-- Zones for a zoned namespace (R156): of the groups of its class, interleaved or packed. -/
def pickZones (s : State) (pclass need : Nat) : List Nat :=
  let e := classEntry (ptable s) pclass
  let rows := zoneRows s
  let order (i : Nat) : Nat := if classOrder e = 0 then i else i % rows * 128 + i / rows
  let allowed (z : Nat) : Bool := (classGroups e).testBit (groupOf z) && (classFlags e != 1 || isContract s (groupOf z))
  pickRows s order allowed (zoneCount s) 0 need

/-- Rows for a conventional pool (R160): the highest unassigned ones. -/
def pickPool (s : State) (need : Nat) : List Nat :=
  pickRows s (fun i => zoneCount s - 1 - i) (fun _ => true) (zoneCount s) 0 need

/-- Extents over positions in ascending order, as first namespace zone, count and position (R329). -/
def splitExtents : List (Nat × Nat) → Nat → Nat → List (Nat × Nat × Nat)
  | [], _, _ => []
  | (p, free) :: more, first, need =>
    let k := Nat.min free need
    if k = 0 then splitExtents more first need else (first, k, p) :: splitExtents more (first + k) (need - k)

/-- Cascade positions that a create may use beside the master, with the rows they report free. -/
def createPositions (s : State) (memberFree : List Nat) : List (Nat × Nat) :=
  ([1, 2, 3].filter fun p => casPos s = 0 ∧ od s 0x5110 0x01 p = 2 ∧ (od s 0x5100 0x03).testBit p).map fun p =>
    (p, memberFree.getD (p - 1) 0)

/-- The rows of a create and its extents, or the status of its refusal. -/
def planCreate (s : State) (c : CreateReq) (reservedZero : Bool) (memberFree : List Nat) :
    Nat × List Nat × List (Nat × Nat × Nat) :=
  let sum (f : Ns → Nat) : Nat := s.nss.foldl (fun a n => a + f n) 0
  let conv (n : Ns) : Nat := if n.zoned then 0 else n.size * blockBytes n.lbaf
  if s.adm.preserve then (stPreserve, [], [])
  else if !fieldsOk c reservedZero then (stField, [], [])
  else if !formatOk c.lbaf c.pit then (stFormat, [], [])
  else if !handlesOk (CreateReq.place s c) then (stHandleList, [], [])
  else if 4096 ≤ s.nss.length then (stNoNsid, [], [])
  else if !s.ciph.drbgOk then (stInternal, [], [])
  else if c.zoned then
    if 8192 < sum (·.activeQuota) + CreateReq.active c ∨ 8192 < sum (·.openQuota) + CreateReq.opens c then (stInsufficient, [], [])
    else
      let zs := pickZones s c.pclass (CreateReq.need c)
      let es := splitExtents ((0, zs.length) :: createPositions s memberFree) 0 (CreateReq.need c)
      if (es.map fun e => e.2.1).sum < CreateReq.need c then (stInsufficient, [], []) else (stOk, zs, es)
  else if 8 * 2 ^ 40 < sum conv + CreateReq.bytes c then (stInsufficient, [], [])
  else
    let rows := pickPool s (CreateReq.need c)
    if rows.length < CreateReq.need c then (stInsufficient, [], []) else (stOk, rows, [])

/-- The lowest NSID that no namespace has (log entry 60). -/
def freeNsid (s : State) : Nat :=
  ((List.range 4097).find? fun i => i != 0 && (ns? s i).isNone).getD 0

/-- The controller's first namespace draws its data-key root (R378); in a pair the root came with the forming. -/
def ensureRoot (s : State) : State :=
  if s.ciph.stored.isSome then s
  else
    let r := draw s % 2 ^ 256
    { useDraw s with ciph.root := some r, ciph.stored := some r }

/-- Add a namespace with its rows; its salt is drawn here (R396). -/
def addNs (s : State) (c : CreateReq) (nsid : Nat) (rows : List Nat) (idx : List Nat)
    (extents : List (Nat × Nat × Nat)) : State :=
  let s := ensureRoot s
  let root := s.ciph.root.getD 0
  let n : Ns := { nsid := nsid, zoned := c.zoned, size := c.size, lbaf := c.lbaf, pit := c.pit, parity := c.parity
                  placement := CreateReq.place s c, pclass := c.pclass, activeQuota := CreateReq.active c, openQuota := CreateReq.opens c
                  zones := if c.zoned then rows else [], idx := idx
                  poolRows := if c.zoned then [] else rows, salt := drawSalt s root nsid 1, extents := extents
                  anaGroup := groupOfExtents s extents }
  { useDraws s (saltDraws s root nsid 1) with nss := s.nss ++ [n] }

/-- What the lead sends of a new namespace (R157, R396). -/
def assignment (n : Ns) : List Nat :=
  [n.nsid, if n.zoned then 1 else 0, n.size, n.lbaf, n.pit, n.parity, n.pclass, n.activeQuota, n.openQuota, n.gen, n.salt,
   n.zones.length] ++ n.zones ++ [n.placement.length] ++ n.placement ++ [n.extents.length] ++
  (n.extents.flatMap fun e => [e.1, e.2.1, e.2.2]) ++ n.poolRows

/-- Create a namespace here, with its extents on members, and answer. -/
def createNs (s : State) (c : CreateReq) (reservedZero : Bool) (memberFree : List Nat) (a : Option Adm) : State :=
  let say (s : State) (st nsid : Nat) : State := match a with
    | some a => adminDone s a st nsid
    | none => tellFollower s [codeCreate, st]
  let p := planCreate s c reservedZero memberFree
  if p.1 ≠ stOk then say s p.1 0
  else
    let nsid := freeNsid s
    let far := p.2.2.filter fun e => e.2.2 != 0
    let s := addNs s c nsid p.2.1 [] (if far.isEmpty then [] else p.2.2)
    let s := match ns? s nsid with
      | some n => tellFollower s ([codeCreate, 0] ++ assignment n)
      | none => s
    match a with
    | none => s
    | some b =>
      if far.isEmpty then say s stOk nsid
      else
        let (s, k) := admCmd s b codeCreate nsid .ending
        let s := setCmd s { k with dw0 := nsid }
        far.foldl (fun s e => forwardAdmin s k e.2.2 [codeCreate, nsid, e.1, e.2.1, c.size, c.lbaf, c.pit, c.parity, c.pclass,
          c.activeQuota, c.openQuota]) s

/-- The follower takes the lead's assignment (R157). -/
def takeNs (s : State) (d : NsDesc) : State :=
  let n : Ns := { nsid := d.nsid, zoned := d.zoned, size := d.size, lbaf := d.lbaf, pit := d.pit, parity := d.parity
                  placement := d.handles, pclass := d.pclass, activeQuota := d.activeQuota, openQuota := d.openQuota, zones := d.zones
                  poolRows := d.poolRows, gen := d.gen, salt := d.salt, extents := d.extents
                  anaGroup := groupOfExtents s d.extents }
  { s with nss := (s.nss.filter fun m => m.nsid != d.nsid) ++ [n] }

/-- A member takes an extent of its master's namespace (R329), and its twin takes the assignment (R157, R339, log entry 129). -/
def takeExtent (s : State) (c : CreateReq) (tag first count nsid : Nat) : State :=
  let zs := pickZones s c.pclass count
  if s.adm.preserve then answerMaster s tag stPreserve
  else if zs.length < count then answerMaster s tag stInsufficient
  else
    let s := addNs s c nsid zs ((List.range count).map (first + ·)) []
    let s := match (if pairRole s = 1 then ns? s nsid else none) with
      | some n => tellFollower s ([codeCreate, 0] ++ assignment n)
      | none => s
    answerMaster s tag stOk

def execNamespaceCreate (src : AdmSrc) (zoned : Bool) (size : Nat) (format : NsFormat) (parity : Nat)
    (place : NsPlace) (activeQuota openQuota : Nat) (reservedZero : Bool) (memberFree : List Nat) (s : State) : Host.Outcome State Fault Refusal :=
  let c := CreateReq.sized { zoned := zoned, size := size, lbaf := format.lbaf, pit := format.pit, parity := parity
                             pclass := place.pclass, activeQuota := activeQuota, openQuota := openQuota
                             handles := place.handles }
  .next (match src with
    | .host a => withAdmin s a true fun s =>
      if pairRole s = 2 then
        askLead s a codeCreate 0
          ([if zoned then 1 else 0, c.size, c.lbaf, c.pit, parity, c.pclass, activeQuota, openQuota] ++ c.handles)
      else createNs s c reservedZero memberFree (some a)
    | .follower => if pairRole s = 1 ∧ s.pair.linkUp then createNs s c reservedZero memberFree none else s
    | .lead st d _ =>
      if pairRole s ≠ 2 then s
      else match d with
        | some d => leadAnswer (takeNs s d) codeCreate st d.nsid
        | none => leadAnswer s codeCreate st 0
    | .master tag first count nsid => if casPos s = 0 then s else takeExtent s c tag first count nsid)

/-! Format NVM and deletion (R84, R401, R607). -/

/-- A command that has passed check 2 and waits before check 7 (R607): at an admission point here, or at the lead's. -/
def waitsForPoint (s : State) (c : Cmd) : Bool :=
  (c.stage == .point || s.pair.asked.contains c.id) && c.asns.isEmpty

/-- End a command that waits before check 7, here and where it waits for the lead's answer. -/
def endWaiting (s : State) (c : Cmd) (st : Nat) : State :=
  let s := { s with pair.asked := s.pair.asked.filter fun i => i != c.id }
  endCmd s { c with status := st } .none

/-- Begin a Format or deletion: commands at the admission points end where it is a deletion, parts go to the members that
hold extents, and the operation follows the commands that hold ASNs. -/
def beginEnd (s : State) (n : Ns) (e : NsEnd) (k : Option Cmd) (body : List Nat) : State :=
  let s := setNs s { n with ending := some { e with cmd := (k.map (·.id)).getD 0 } }
  let s := if e.delete then
      (s.host.cmds.filter fun c => c.io.nsid == n.nsid && waitsForPoint s c).foldl (fun s c => endWaiting s c stNamespace) s else s
  let s := match k with
    | some k => (remotePositions s n).foldl (fun s p => forwardAdmin s k p body) s
    | none => s
  settleNs s n.nsid

/-- The status that refuses a Format or deletion. -/
def endStatus (s : State) (n : Ns) (e : NsEnd) : Nat :=
  if !e.delete && s.adm.preserve then stPreserve
  else if !formatOk e.lbaf e.pit then stFormat
  else if n.ending.isSome then stFormatting
  else if nsStep s n then stStep
  else if e.newKey && !s.ciph.drbgOk then stInternal else stOk

/-- A Format or deletion from any of its sources. -/
def endNs (src : AdmSrc) (nsid : Nat) (e : NsEnd) (s : State) : State :=
  let code := if e.delete then codeDelete else codeFormat
  let body := [code, nsid, e.lbaf, e.pit, if e.erase then 1 else 0, if e.newKey then 1 else 0]
  match src with
  | .host a => withAdmin s a true fun s =>
    match ns? s nsid with
    | none => adminDone s a stNamespace
    | some n =>
      if pairRole s = 2 then askLead s a code nsid body
      else
        let st := endStatus s n e
        if st ≠ stOk then refuseAdmin s a st
        else
          let (s, k) := admCmd s a code nsid .ending
          beginEnd s n e (some k) body
  | .follower =>
    if pairRole s ≠ 1 ∨ !s.pair.linkUp then s
    else match ns? s nsid with
      | none => tellFollower s [code, stNamespace, nsid]
      | some n =>
        let st := endStatus s n e
        if st ≠ stOk then tellFollower s [code, st, nsid] else beginEnd s n e none body
  | .lead st _ salts =>
    if pairRole s ≠ 2 then s
    else if st ≠ stOk then leadAnswer s code st 0
    else match ns? s nsid with
      | none => leadAnswer s code st 0
      | some n => beginEnd s n { e with salt := salts.head? } (askedCmd s code) body
  | .master tag _ _ _ =>
    if casPos s = 0 then s
    else match ns? s nsid with
      | none => answerMaster s tag stNamespace
      | some n =>
        let st := endStatus s n e
        if st ≠ stOk then answerMaster s tag st
        else
          let (s, k) := admCmd s { fn := 0, cid := 0, dptr := 0, cqAddr := 0 } code nsid .ending
          let k := { k with origin := 2, tag := tag }
          beginEnd (setCmd s k) n e (some k) []

def execNamespaceDelete (src : AdmSrc) (nsid : Nat) (s : State) : Host.Outcome State Fault Refusal :=
  .next (endNs src nsid { cmd := 0, delete := true, lbaf := 0, pit := 0, erase := false, newKey := false, salt := none } s)

def execFormatNvmNoSecureErase (src : AdmSrc) (nsid : Nat) (format : NsFormat) (s : State) : Host.Outcome State Fault Refusal :=
  .next (endNs src nsid { cmd := 0, delete := false, lbaf := format.lbaf, pit := format.pit, erase := false, newKey := false, salt := none } s)

def execFormatNvmUserDataErase (src : AdmSrc) (nsid : Nat) (format : NsFormat) (s : State) : Host.Outcome State Fault Refusal :=
  .next (endNs src nsid { cmd := 0, delete := false, lbaf := format.lbaf, pit := format.pit, erase := true, newKey := true, salt := none } s)

def execFormatNvmCryptoErase (src : AdmSrc) (nsid : Nat) (format : NsFormat) (s : State) : Host.Outcome State Fault Refusal :=
  .next (endNs src nsid { cmd := 0, delete := false, lbaf := format.lbaf, pit := format.pit, erase := false, newKey := true, salt := none } s)

/-! Sanitize (R402). -/

/-- Draw the new root and mark it pending; the switch follows the commands that hold ASNs. -/
def beginSanitize (s : State) (erase : Bool) : State :=
  let s := { useDraw s with ciph.pendingRoot := some (draw s % 2 ^ 256), ciph.pendingErase := erase
                            host.sanitizeStatus := 2 }
  settleSanitize ((s.host.cmds.filter fun c => waitsForPoint s c).foldl (fun s c => endWaiting s c stSanitizing) s)

/-- The status that refuses a Sanitize. -/
def sanitizeRefused (s : State) (erase : Bool) : Nat :=
  if erase && s.adm.preserve then stPreserve
  else if s.host.sanitizeStatus = 2 then stSanitizing
  else if s.nss.any fun n => nsStep s n then stStep
  else if !s.ciph.drbgOk then stInternal else stOk

def sanitize (src : AdmSrc) (erase : Bool) (s : State) : State :=
  let body := [codeSanitize, 0, if erase then 1 else 0]
  let st := sanitizeRefused s erase
  match src with
  | .host a => withAdmin s a true fun s =>
    if pairRole s = 2 then askLead s a codeSanitize 0 body
    else if st ≠ stOk then refuseAdmin s a st
    else
      let far := ([1, 2, 3].filter fun p => s.nss.any fun n => n.extents.any fun e => e.2.2 == p && p != casPos s)
      if far.isEmpty then beginSanitize (adminDone s a stOk) erase
      else
        let (s, k) := admCmd s a codeSanitize 0 .ending
        beginSanitize (far.foldl (fun s p => forwardAdmin s k p body) s) erase
  | .follower =>
    if pairRole s ≠ 1 ∨ !s.pair.linkUp then s
    else if st ≠ stOk then tellFollower s [codeSanitize, st] else beginSanitize s erase
  | .lead st _ salts =>
    if pairRole s ≠ 2 then s
    else if st ≠ stOk then leadAnswer s codeSanitize st 0
    else
      let s := (s.host.cmds.filter fun c => waitsForPoint s c).foldl (fun s c => endWaiting s c stSanitizing) s
      let s := newSalts salts s.nss (emptyAll erase s)
      leadAnswer { setCache s [] with host.sanitizeStatus := 1 } codeSanitize st 0
  | .master tag _ _ _ =>
    if casPos s = 0 then s
    else if st ≠ stOk then answerMaster s tag st else beginSanitize (answerMaster s tag stOk) erase

def execSanitizeBlockErase (src : AdmSrc) (s : State) : Host.Outcome State Fault Refusal := .next (sanitize src true s)

def execSanitizeCryptoErase (src : AdmSrc) (s : State) : Host.Outcome State Fault Refusal := .next (sanitize src false s)

/-- Overwrite is not supported (R3). -/
def execSanitizeOverwrite (a : Adm) (s : State) : Host.Outcome State Fault Refusal :=
  .next (withAdmin s a true fun s => adminDone s a stField)

/-! Namespace Attachment (R342, R343, R353, R354, R370). -/

/-- Attach a namespace to every controller of a list. -/
def attachAll (s : State) (nsid : Nat) (fns : List Nat) : State :=
  fns.foldl (fun s f => setFn s f { fnc s f with attached := addTo nsid (fnc s f).attached }) s

/-- The status of an attachment to one controller of a list. The tests of R353 see the whole list attached. -/
def attachStatus (s : State) (nsid : Nat) (fns : List Nat) (fn : Nat) : Nat :=
  let f := fnc s fn
  if 512 < fn then stCtrlList
  else if f.attached.contains nsid then stAttached
  else if fn ≠ 0 ∧ tdLocked f then stFrozen
  else if 256 ≤ f.attached.length then stAttachLimit
  else if od s 0x6210 0x02 fn = 0 ∧ !lensContractOk (attachAll s nsid fns) fn then stAttachLimit
  else stOk

def detachStatus (s : State) (nsid fn : Nat) : Nat :=
  let f := fnc s fn
  if 512 < fn then stCtrlList
  else if !f.attached.contains nsid then stNotAttached
  else if fn ≠ 0 ∧ tdLocked f then stFrozen else stOk

/-- The first controller of a list that refuses, with its status. -/
def firstRefused (status : Nat → Nat) (fns : List Nat) : Option (Nat × Nat) :=
  (fns.find? fun f => status f != stOk).map fun f => (f, status f)

/-- A refusal by the contract test names the lens in a severity-3 event (R354). -/
def execNamespaceAttach (a : Adm) (nsid : Nat) (fns : List Nat) (s : State) : Host.Outcome State Fault Refusal :=
  .next (withAdmin s a true fun s =>
    if (ns? s nsid).isNone then adminDone s a stNamespace
    else match firstRefused (attachStatus s nsid fns) fns with
      | some (f, st) =>
        let s := if st = stAttachLimit ∧ (fnc s f).attached.length < 256 then loupe s 354 0x62 3 [f] else s
        adminDone s a st
      | none => adminDone (lensContractEvents (attachAll s nsid fns)) a stOk)

def execNamespaceDetach (a : Adm) (nsid : Nat) (fns : List Nat) (s : State) : Host.Outcome State Fault Refusal :=
  .next (withAdmin s a true fun s =>
    if (ns? s nsid).isNone then adminDone s a stNamespace
    else match firstRefused (detachStatus s nsid) fns with
      | some (_, st) => adminDone s a st
      | none =>
        let s := fns.foldl (fun s f =>
          setFn s f { fnc s f with attached := (fnc s f).attached.filter fun x => x != nsid }) s
        adminDone (lensContractEvents s) a stOk)

/-! Abort, features, events. -/

/-- Completion entry address of the command in a slot. -/
def slotAddr (x : Option Slot) : Nat := (x.map fun y => y.io.cqAddr).getD 0

/-- The request of a command for the lead's admission point is still to be sent (R42): the frame names the command by its
queue index, function, operation and identifier. -/
def unsentAsk (s : State) (k : Cmd) : Option Frame :=
  s.pair.txq.find? fun f => f.kind == 0x10 && f.body == [k.index, k.io.fn, k.gen] ++ ioFields k.op k.io

/-- Abort a command before it reaches check 7 (R59): in its slot, granted, at an admission point, or before its request
has left for the lead. One whose request has left may have passed check 7 already (log entry 123). -/
def execAbort (a : Adm) (sq cid : Nat) (s : State) : Host.Outcome State Fault Refusal :=
  .next (withAdmin s a false fun s =>
    let f := fnc s a.fn
    let same (c : IoCmd) : Bool := c.fn == a.fn && c.sq == sq && c.cid == cid
    let ended (s : State) (cqAddr : Nat) : State :=
      adminDone (post s a.fn sq cid (curGen s a.fn) stAbort 0 0 .none 0xFFFFFFFF 0 0 cqAddr) a stOk
    if sq = 0 ∧ f.aers.any fun x => x.1 == cid then
      let at_ := (f.aers.find? fun x => x.1 == cid).getD (0, 0)
      ended (setFn s a.fn { f with aers := f.aers.filter fun x => x.1 != cid }) at_.2
    else if f.rd.any fun x => same x.io then ended (setFn s a.fn { f with rd := none }) (slotAddr f.rd)
    else if f.wr.any fun x => same x.io then ended (setFn s a.fn { f with wr := none }) (slotAddr f.wr)
    else match s.host.granted.find? fun g => same g.io with
      | some g => ended { s with host.granted := s.host.granted.filter fun x => !same x.io } g.io.cqAddr
      | none => match s.host.cmds.find? fun k => k.origin == 0 && same k.io with
        | some k =>
          if k.stage = .point ∧ k.asns.isEmpty then
            adminDone (finishCmd s { k with status := stAbort }) a stOk
          else match (if k.asns.isEmpty then unsentAsk s k else none) with
            | some f =>
              let s := { s with pair.txq := s.pair.txq.erase f, pair.asked := s.pair.asked.filter fun i => i != k.id }
              adminDone (finishCmd s { k with status := stAbort }) a stOk
            | none => adminDone s a stOk 1
        | none => adminDone s a stOk 1)

/-- Set Features FDP switches FDP for the endurance group, while it holds no namespace; FDP Events enables event types of
a handle (R79, R81). The one endurance group is number 1 (R247). -/
def execSetFeaturesFdp (a : Adm) (group : Nat) (enable : Bool) (events : Option (Nat × Nat)) (s : State) :
    Host.Outcome State Fault Refusal :=
  .next (withAdmin s a true fun s =>
    if group ≠ 1 then adminDone s a stField
    else match events with
    | some (h, types) => adminDone { s with host.fdpEnabled := kvPut 0 h types s.host.fdpEnabled } a stOk
    | none =>
      if !s.nss.isEmpty then adminDone s a stSequence else adminDone { s with host.fdp := enable } a stOk)

/-- An Asynchronous Event Request is held, or takes the oldest event that waits (R85). -/
def execAsynchronousEventRequest (a : Adm) (s : State) : Host.Outcome State Fault Refusal :=
  .next (withAdmin s a false fun s =>
    let f := fnc s a.fn
    match f.events with
    | (t, i) :: rest => adminDone (setFn s a.fn { f with events := rest }) a stOk (t + i * 256)
    | [] => setFn s a.fn { f with aers := f.aers ++ [(a.cid, a.cqAddr)] })

/-! Log pages. Each is a status and what it holds, so that NVMe-MI can carry it too (R484). -/

/-- A slot of zeroes (R102). -/
def zeroRec : LedgerRec :=
  { asn := 0, epoch := 0, rtype := 0, flags := 0, status := 0, zone := 0, nsid := 0, lba := 0, blocks := 0, fn := 0
    queue := 0, cid := 0, stateAfter := 0, opcode := 0, action := 0, generation := 0, cascade := 0, wpAfter := 0
    dataCheck := 0, body := 0 }

/-- A lens may read what concerns a zone of a namespace attached to it (R103). -/
def zoneSeen (s : State) (reader : Nat) (attached : List Nat) (z : Nat) : Bool :=
  reader == 0 || match nsOfZone s z with
    | some n => attached.contains n.nsid
    | none => false

/-- A record as a reader sees it (R103). -/
def seenRec (s : State) (reader : Nat) (attached : List Nat) (r : LedgerRec) : LedgerRec :=
  if reader = 0 then r
  else if 4 ≤ r.rtype ∨ zoneSeen s reader attached r.zone then
    (if r.fn = reader then r else { r with fn := 0xFFFF, queue := 0xFFFF, cid := 0xFFFF })
  else zeroRec

/-- Log page 0xC0, from a slot on, as 64-byte slots (R94 to R98, R101 to R103). reader is 0 for the PF and the management
role, and attached are a lens's namespaces. -/
def ledgerPage (s : State) (reader : Nat) (attached : List Nat) (remap : Bool) (first count : Nat) : Nat × Payload :=
  let slots (slot : Nat → Nat) : Nat × Payload := (stOk, .slots ((List.range count).map fun i => slot (first + i)))
  if remap then
    if first < s.adm.remapFloor then (stField, .none)
    else slots fun n => match s.adm.remaps.find? fun r => r.index == n with
      | some r => if zoneSeen s reader attached r.zone then remapImage r else 0
      | none => 0
  else if first < s.adm.floor then (stField, .none)
  else slots fun n => match s.adm.recs.find? fun l => l.r.asn == n && decide (n ≤ sealedHead s) with
    | some l => recImage (seenRec s reader attached l.r)
    | none => 0

/-- A member answers its master's read of its ledger: the slots, and then the completion (R334). -/
def answerLedger (s : State) (tag : Nat) (p : Nat × Payload) : State :=
  let s := match p.2 with
    | .slots l => sendFrame s 1 0x21 ([tag, 0, 0] ++ l)
    | _ => s
  answerMaster s tag p.1

/-- A position of a cascade whose ledger the master reads (R101, R334): its link is up, on probation or in service. -/
def positionRead (s : State) (position : Nat) : Bool :=
  let st := od s 0x5110 0x01 position
  casPos s == 0 && (member s position).linkUp && (st == 1 || st == 2)

/-- The Admission Ledger log (R101, R334). A position other than 0 is read from the member over its link, with the reader
and its namespaces; fetched is the master's tag and those namespaces at the member. -/
def execAdmissionLedgerLog (a : Adm) (position : Nat) (remap offsetType1 : Bool) (range : LogRange)
    (fetched : Option (Nat × List Nat)) (s : State) : Host.Outcome State Fault Refusal :=
  let first := if offsetType1 then range.offset else range.offset / 64
  .next (match fetched with
    | some (tag, attached) =>
      if casPos s = 0 ∨ !(member s 1).linkUp ∨ !inService s then s
      else answerLedger s tag (ledgerPage s a.fn attached remap first (range.length / 64))
    | none => withAdmin s a false fun s =>
      if range.length % 64 ≠ 0 ∨ (!offsetType1 ∧ range.offset % 64 ≠ 0) ∨ 2097152 < range.length then adminDone s a stField
      else if position ≠ 0 ∧ !positionRead s position then adminDone s a stField
      else if position ≠ 0 then
        let (s, k) := admCmd s a 0x02 0 .ending
        forwardAdmin s k position
          ([0x02, if remap then 1 else 0, first, range.length / 64, a.fn] ++ if a.fn = 0 then [] else (fnc s a.fn).attached)
      else
        let (st, p) := ledgerPage s a.fn (fnc s a.fn).attached remap first (range.length / 64)
        adminDone s a st 0 p range.length)

/-- Lay fields of their own widths in bytes one after another (R6): the length and the value. -/
def layFields (l : List (Nat × Nat)) : Nat × Nat :=
  l.foldl (fun p f => (p.1 + f.1, p.2 + atByte p.1 f.1 f.2)) (0, 0)

/-- Log page 0xC1 (R253): the elements of OD 0x4200 and OD 0x4000, then those of OD 0x4020 of every die. -/
def mediaPage (s : State) : Payload :=
  let elems (o i : Nat) : List (Nat × Nat) :=
    ((odRange o).filter fun e => e.obj == o).map fun e => (e.size, odView s o e.elem i)
  let p := layFields (elems 0x4200 0 ++ elems 0x4000 0 ++ (List.range 2048).flatMap fun d => elems 0x4020 d)
  .image p.1 p.2

/-- A page of the PF alone: a lens receives Invalid Log Page. -/
def pfLog (s : State) (a : Adm) (st : Nat) (p : Payload) (bytes : Nat := 0) : State :=
  withAdmin s a false fun s => if a.fn ≠ 0 then adminDone s a stLogPage else adminDone s a st 0 p bytes

def execMediaHealthLog (a : Adm) (s : State) : Host.Outcome State Fault Refusal :=
  .next (pfLog s a stOk (mediaPage s) (Payload.bytes (mediaPage s)))

/-- Groups that hold zones of a lens's namespaces. -/
def zoneGroups (s : State) (l : Nat) : List Nat :=
  let zs := (s.nss.filter fun n => (fnc s l).attached.contains n.nsid).flatMap (·.zones)
  (List.range 128).filter fun g => zs.any fun z => groupOf z == g

/-- Log page 0xC2 (R357). -/
def contractPage (s : State) (l : Nat) : Payload :=
  let gs := zoneGroups s l
  let entry (g : Nat) : Nat := atByte 0 2 g + atByte 2 1 (grp s g).state + atByte 3 1 (grp s g).causes +
    atByte 4 4 (Nat.min 0xFFFFFFFF (kvGet 0 g (fnc s l).overBudget))
  .image (16 + 8 * gs.length) (atByte 0 1 (contractState s l) + atByte 2 2 gs.length + atByte 4 1 (fnc s l).gen +
    pack 64 (gs.map entry) * 2 ^ 128)

/-- A lens reads its own page, and the PF that of any lens. -/
def execLensContractLog (a : Adm) (lens : Nat) (s : State) : Host.Outcome State Fault Refusal :=
  .next (withAdmin s a false fun s =>
    let l := if a.fn = 0 then lens else a.fn
    adminDone s a stOk 0 (contractPage s l) (Payload.bytes (contractPage s l)))

/-- A 24-byte item (R560): a read that failed has no value bytes. -/
def itemImage (i : Nat × Nat × Nat × Nat × Nat) : Nat :=
  let e := odFind i.1 i.2.1
  let size := Nat.min 16 ((e.map (·.size)).getD 0)
  let valid := if i.2.2.2.1 = 0 then size else 0
  atByte 0 2 i.1 + atByte 2 1 i.2.1 + atByte 3 1 ((e.map (·.ty)).getD 0) + atByte 4 2 i.2.2.1 + atByte 6 1 i.2.2.2.1 +
  atByte 7 1 valid + atByte 8 valid i.2.2.2.2

/-- A Loupe slot of 1,024 bytes (R559). The time is a free value (log entry 67), and a detail value takes 8 bytes (log
entry 124). -/
def entryImage (e : LEntry) : Nat :=
  atByte 0 8 e.seq + atByte 8 8 (Config.eventTime e.seq) + atByte 16 8 e.bootSeq +
  atByte 24 2 (eventCode e.subject e.rule) + atByte 26 1 e.sev + atByte 27 1 e.trigger +
  atByte 28 1 ((if e.flushed then 1 else 0) + if e.copy then 2 else 0) + atByte 29 1 e.items.length +
  atByte 30 2 (8 * e.detail.length) + atByte 32 8 e.nextAsn + atByte 40 4 e.epoch + atByte 44 4 e.dropped +
  atByte 64 192 (pack 64 e.detail) + atByte 256 768 (pack 192 (e.items.map itemImage))

/-- The events that the device records, as rule, object range and severity (R558): the event catalogue. -/
def eventTable : List (Nat × Nat × Nat) := [
  (14, 0x10, 6), (85, 0x42, 7), (105, 0x21, 4), (118, 0x30, 3), (118, 0x30, 5), (151, 0x22, 3), (194, 0x31, 6),
  (200, 0x31, 5), (212, 0x32, 4), (212, 0x82, 4), (220, 0x40, 6), (225, 0x10, 1), (225, 0x10, 4), (225, 0x31, 1)] ++ [
  (225, 0x31, 5), (225, 0x32, 5), (546, 0xA0, 5), (561, 0xA0, 0)] ++ [
  (225, 0x40, 1), (225, 0x40, 4), (225, 0x40, 5), (225, 0x50, 1), (225, 0x50, 5), (225, 0x51, 1), (225, 0x90, 1),
  (225, 0x91, 1), (225, 0x91, 5), (237, 0x40, 7), (238, 0x42, 5), (244, 0x41, 5), (258, 0x84, 5), (421, 0x50, 4), (264, 0x84, 4)] ++ [
  (285, 0x84, 7), (295, 0x50, 5), (297, 0x50, 4), (308, 0x50, 5), (315, 0x50, 7), (317, 0x50, 2), (327, 0x51, 5),
  (335, 0x51, 5), (336, 0x51, 5), (339, 0x50, 5), (345, 0x61, 5), (354, 0x62, 3), (383, 0x70, 6), (393, 0x70, 6)] ++ [
  (394, 0x70, 5), (403, 0x70, 6), (403, 0x70, 7), (421, 0x71, 6), (432, 0x80, 2), (436, 0x81, 3), (438, 0x83, 5),
  (440, 0x81, 2), (440, 0x81, 4), (443, 0x82, 3), (447, 0x82, 5), (451, 0x82, 5), (494, 0x90, 4), (495, 0x90, 4)] ++ [
  (504, 0x91, 4), (504, 0x91, 5), (504, 0x91, 6), (504, 0x91, 7), (504, 0x92, 5), (507, 0x91, 6), (509, 0x91, 4),
  (518, 0x90, 5), (518, 0x90, 7), (524, 0x92, 6), (525, 0x92, 5), (528, 0x92, 3), (529, 0x92, 4), (529, 0x92, 6)] ++ [
  (546, 0x32, 5), (553, 0xA2, 6), (556, 0xA2, 5), (569, 0xB0, 5), (571, 0xB0, 5), (574, 0xB0, 3), (579, 0xB0, 5),
  (589, 0xB0, 5), (595, 0xB0, 3), (598, 0x32, 4)]

/-- Log page 0xC3 from a source (R566). -/
def loupePage (s : State) (source offset length : Nat) : Nat × Payload :=
  let slots (l : List LEntry) : Nat × Payload :=
    if offset % 1024 ≠ 0 ∨ length % 1024 ≠ 0 then (stField, .none)
    else (stOk, .image length (pack 8192 ((List.range (length / 1024)).map fun i => match l[offset / 1024 + i]? with
      | some e => entryImage e
      | none => 0)))
  if 2097152 < length then (stField, .none)
  else match source with
  | 0 => slots s.loupe.live
  | 1 => slots s.loupe.kept
  | 2 => slots s.loupe.flash.reverse
  | 3 =>
    if offset % 64 ≠ 0 ∨ length % 64 ≠ 0 then (stField, .none)
    else (stOk, .image length (pack 512 ((List.range (length / 64)).map fun i => match eventTable[offset / 64 + i]? with
      | some (r, o, sev) => atByte 0 2 (eventCode o r) + atByte 2 1 sev + atByte 4 60 (Config.eventName (eventCode o r))
      | none => 0)))
  | _ => (stField, .none)

def execLoupeLog (a : Adm) (source offset length : Nat) (s : State) : Host.Outcome State Fault Refusal :=
  let p := loupePage s source offset length
  .next (pfLog s a p.1 p.2 length)

/-- The SMART/Health log (R251, R252): for a lens its own counts, and 0 in the fields of the device. -/
def smartPage (s : State) (reader : Nat) : List Nat :=
  let all := s.host.fns.map (·.2)
  let own := if reader = 0 then all else [fnc s reader]
  let sum (f : Fn → Nat) : Nat := (own.map f).sum
  let common := [critWarn s reader, (s.pwr.composite.fdiv 1000 + 273).toNat, availableSpare s, od s 0x4010 0x06,
    percentUsed s, sum (·.readUnits), sum (·.writeUnits), sum (·.commands), sum (·.mediaErrors)]
  if reader = 0 then common ++ [s.health.seconds / 3600, s.power.unsafeShutdowns, s.health.critical]
  else common ++ [0, 0, 0]

/-- A read without Retain Asynchronous Event drops the waiting events of the page. -/
def dropEvents (s : State) (fn etype : Nat) (retain : Bool) : State :=
  if retain then s else setFn s fn { fnc s fn with events := (fnc s fn).events.filter fun e => e.1 != etype }

def execSmartHealthLog (a : Adm) (retainEvent : Bool) (s : State) : Host.Outcome State Fault Refusal :=
  .next (withAdmin s a false fun s =>
    let page := smartPage s a.fn
    let s := dropEvents s a.fn 1 retainEvent
    let s := if retainEvent then s else setFn s a.fn { fnc s a.fn with reliability := false }
    adminDone s a stOk 0 (.words page) 512)

/-- The Changed Zone List of a namespace (R64); it is emptied unless the event is retained. -/
def execChangedZoneListLog (a : Adm) (nsid : Nat) (retainEvent : Bool) (s : State) : Host.Outcome State Fault Refusal :=
  .next (withAdmin s a false fun s =>
    let f := fnc s a.fn
    let l := (f.changed.filter fun e => e.1 == nsid).map (·.2)
    let s := if retainEvent then s
      else dropEvents (setFn s a.fn { f with changed := f.changed.filter fun e => e.1 != nsid }) a.fn 2 false
    adminDone s a stOk 0 (.words (l.length :: l)) 4096)

/-- The FDP logs (R79, R81): 0 statistics, 1 reclaim unit handle usage, 2 events, 3 the one configuration: its index,
8 reclaim groups, 64 handles of type Initially Isolated (1), the nominal reclaim unit sizes in single and double parity, and no time limit. -/
def fdpPage (s : State) (which : Nat) : Option (List Nat) :=
  match which with
  | 0 => some [s.host.fdpHost, s.host.fdpMedia, s.host.fdpErased]
  | 1 => some (64 :: (List.range 64).map fun h =>
      if s.nss.any fun n => n.handles.any fun e => e.1 % 64 == h then 1 else 0)
  | 3 => some [0, 8, 64, 1, 960 * 2 ^ 20, 896 * 2 ^ 20, 0]
  | 2 => some (s.host.fdpEvents.length :: s.host.fdpEvents.flatMap fun e => [e.1, e.2.1, e.2.2])
  | _ => none

def execFdpLogs (a : Adm) (which : Nat) (s : State) : Host.Outcome State Fault Refusal :=
  .next (withAdmin s a false fun s => match fdpPage s which with
    | some l => adminDone s a stOk 0 (.words l)
    | none => adminDone s a stField)

/-- The Telemetry logs (R566): the retained memory as data area 1 and the live buffer as data area 2, with the count of
controller-initiated reports. -/
def execTelemetryLog (a : Adm) (hostInitiated : Bool) (s : State) : Host.Outcome State Fault Refusal :=
  let areas := s.loupe.kept.map entryImage ++ s.loupe.live.map entryImage
  .next (pfLog s a stOk (.words ([if hostInitiated then 7 else 8, s.loupe.telemetry, s.loupe.kept.length,
    s.loupe.live.length] ++ areas)))

end Sys2Proof.Machine
end

