-- ==== Sys2Proof/Machine/Identify.lean ====
section
/-! DEFINITION. What the device reports of itself: PCI identity, the Identify data and the Supported Log Pages log (R3, R4,
R47, R48, R51, R52, R54, R55, R63, R79, R101, R163, R247, R314). The fields stand in the order of their docstrings, and
fields of NVM Express that no rule states are left out (log entry 125). -/

namespace Sys2Proof.Machine

/-! PCI identity (R4). -/

def vendorId : Nat := 0x1F3B
/-- Device ID of the physical function and of a virtual function. -/
def deviceId (fn : Nat) : Nat := if fn = 0 then 0x0640 else 0x0641
/-- NVM Express. -/
def classCode : Nat := 0x010802

/-- Bytes 11:0 of a function's configuration header (R4), with the fields that no rule states as 0; nothing answers until
configuration space is served (R545). -/
def configHeader (s : State) (fn : Nat) : Option Nat :=
  if s.host.cfgServed then some (atByte 0 2 vendorId + atByte 2 2 (deviceId fn) + atByte 9 3 classCode) else none

/-! Capacity of Namespace Management (R163). -/

/-- Rows drawn into conventional pools. -/
def poolDrawn (s : State) : Nat := (s.nss.map fun n => n.poolRows.length).sum
/-- Exported zoned capacity in bytes, at the row data capacity of single parity. -/
def zonedBytes (s : State) : Nat := (zoneCount s - poolDrawn s) * (4096 * capUnits 1)
/-- The part of it in rows that no namespace holds. -/
def unassignedBytes (s : State) : Nat := (zoneCount s - rowsUsed s) * (4096 * capUnits 1)

/-! Identify. -/

/-- Optional admin commands: Format NVM, firmware, Namespace Management, Device Self-test, Virtualization Management. -/
def optionalAdmin : Nat := 2 ^ 1 + 2 ^ 2 + 2 ^ 3 + 2 ^ 4 + 2 ^ 7
/-- Optional I/O commands (R52): Compare, Dataset Management, Write Zeroes, Reservations, Verify; the bits of Write
Uncorrectable and Copy read 0. -/
def optionalIo : Nat := 2 ^ 0 + 2 ^ 2 + 2 ^ 3 + 2 ^ 5 + 2 ^ 7
/-- Sanitize: crypto erase and block erase, and no overwrite (R3, R402). -/
def sanitizeCaps : Nat := 2 ^ 0 + 2 ^ 1
/-- Controller attributes: endurance groups and FDP (R79, R247). -/
def controllerAttributes : Nat := 2 ^ 4 + 2 ^ 19

/-- Identify Controller: vendor, maximum transfer size, controller, optional admin and I/O commands, volatile write cache
(R54), sanitize, ANA transition time and group limits (R314), namespaces, endurance groups, attributes, total and
unallocated capacity, and the RTD3 Entry Latency in µs (R286). -/
def identifyController (s : State) : List Nat :=
  [vendorId, 9, odView s 0x1010 0x01 0, optionalAdmin, optionalIo, 0, sanitizeCaps, 2, 15, 15, 4096, 1, controllerAttributes,
   zonedBytes s, unassignedBytes s, 500000]

/-- Identify Namespace: size, LBA format, metadata only in extended LBAs and the types of protection information (R48),
the namespace's type, endurance group, ANA group, placement handles, then metadata size and log2 data size of each of the
five formats. -/
def identifyNamespace (n : Ns) : List Nat :=
  [n.size, n.lbaf, 1, 7, n.pit, 1, n.anaGroup, n.placement.length] ++
  (List.range 5).flatMap fun f => [metaBytes f, (blockBytes f).log2]

/-- Identify Zoned Namespace: Variable Zone Capacity (R47), Read Across Zone Boundaries and Zone Random Write Area (R51,
R52), Maximum Active and Open Resources (R51), the two recommended limits (R63), then zone size and descriptor extension
size of each of the five formats. -/
def identifyZoned (n : Ns) : List Nat :=
  [0, 1, 0, n.activeQuota - 1, n.openQuota - 1, 0, 0] ++ (List.range 5).flatMap fun f => [zszeOf f, 0]

/-- Identify Zoned Controller: the Zone Append Size Limit (R51). -/
def identifyZonedController : List Nat := [9]

/-- Identify with its CNS: 0 namespace, 1 controller, 5 zoned namespace, 6 zoned controller. -/
def identifyPage (s : State) (cns nsid : Nat) : Nat × Payload :=
  match cns, ns? s nsid with
  | 0, some n => (stOk, .words (identifyNamespace n))
  | 5, some n => if n.zoned then (stOk, .words (identifyZoned n)) else (stField, .none)
  | 0, none => (stNamespace, .none)
  | 5, none => (stNamespace, .none)
  | 1, _ => (stOk, .words (identifyController s))
  | 6, _ => (stOk, .words identifyZonedController)
  | _, _ => (stField, .none)

/-- The log pages: SMART/Health, Telemetry, the FDP logs, Changed Zone List and the vendor pages. -/
def supportedPages : List Nat := [0x00, 0x02, 0x07, 0x08, 0x20, 0x21, 0x22, 0x23, 0xBF, 0xC0, 0xC1, 0xC2, 0xC3]

/-- The Supported Log Pages log: each page with bit 0 for support and bit 1 for Offset Type, which log page 0xC0 has
(R101). -/
def supportedLogs : Payload := .words (supportedPages.flatMap fun p => [p, if p = 0xC0 then 3 else 1])

end Sys2Proof.Machine
end

