-- ==== Sys2Proof/Machine/Links.lean ====
section
/-! DEFINITION. The host link's FLIT faults, the retraining of flash channels, and the management network: MCTP control,
NVMe-MI and the I3C buses (R223, R225, R484 to R488, R594, R598). -/

namespace Sys2Proof.Machine

/-- A FLIT fails its check: its replay cures it, or the link recovers and trains again (R223, R225). Port 1 is the upper x8
of a bifurcated link. -/
def execFlitCheckFailure (port : Nat) (replayOk : Bool) (s : State) : Host.Outcome State Fault Refusal :=
  .next (if !s.host.cfgServed ∨ (port ≠ 0 ∧ !s.host.bifurcated) then s
    else if replayOk then loupe (odBump s 0x4000 0x0B) 225 0x10 1 [port]
    else loupe (hostTrains (odBump (odBump s 0x4000 0x0C) 0x1020 0x02 port)) 225 0x10 4 [port])

/-- A periodic retraining takes a channel out of service while it runs; it returns at the rate found (R243, R598). The
TRAIN entry runs on its idle dies meanwhile. -/
def execPeriodicChannelRetraining (ch rate : Nat) (done : Bool) (s : State) : Host.Outcome State Fault Refusal :=
  let st := (chan s ch).state
  .next (if !done then 
      if st = 0 ∧ s.rst.life = .service then
        ((chanDies ch).filter fun d => (die s d).st == .idle).foldl (fun s d => startReinit s d 13) (setChanState s ch 2)
      else s
    else if st = 2 ∧ chanQuiet s ch then
      let s := ((chanDies ch).filter fun d => (ctx s d).entry == some 13).foldl (fun s d => endEntry s d 0) s
      nextLoad (setChanState (rateFound s ch rate) ch 0)
    else s)

/-! MCTP control messages (R484), with the codes of MCTP (log entry 61). -/

/-- A binding carries messages: an I3C bus once stage 1 has turned it on, the PCIe binding once configuration space is
served. A bus in HDR mode is ignored (R594). -/
def mctpUp (s : State) (b : Nat) : Bool :=
  if b = 2 then s.host.cfgServed else s.pins.i3cOn && !s.mgmt.hdr.contains b

/-- Queue a response of a message type on a binding. -/
def mctpOut (s : State) (b kind : Nat) (words : List Nat) : State :=
  { s with mgmt.out := s.mgmt.out ++ [{ binding := b, kind := kind, words := words }] }

/-- The device raises in-band interrupts on an I3C bus: a response waits there (R594). -/
def interrupting (s : State) (b : Nat) : Bool := s.mgmt.out.any fun m => m.binding == b

/-- Answer an MCTP control command. -/
def mctpControl (s : State) (b command : Nat) (words : List Nat) : State :=
  if mctpUp s b then mctpOut s b 0x00 (command :: words) else s

/-- The endpoint takes its ID, and the binding's staging set is discarded (R469, R484). The null and broadcast IDs are
invalid. -/
def execSetEndpointId (b eid : Nat) (s : State) : Host.Outcome State Fault Refusal :=
  .next (if !mctpUp s b then s
    else if eid = 0 ∨ eid = 0xFF then mctpOut s b 0x00 [0x01, 0x02]
    else
      let s := { s with mgmt.eids := kvPut 0 b eid s.mgmt.eids }
      mctpOut (dropSet s (.mgmt b)) b 0x00 [0x01, 0x00, 0x00, eid, 0])

def execGetEndpointId (b : Nat) (s : State) : Host.Outcome State Fault Refusal :=
  .next (mctpControl s b 0x02 [0x00, kvGet 0 b s.mgmt.eids, 0x00, 0x00])

def execGetMctpVersionSupport (b : Nat) (s : State) : Host.Outcome State Fault Refusal :=
  .next (mctpControl s b 0x04 [0x00, 1, 0xF1F3F100])

def execGetMessageTypeSupport (b : Nat) (s : State) : Host.Outcome State Fault Refusal :=
  .next (mctpControl s b 0x05 [0x00, 5, 0x00, 0x04, 0x05, 0x06, 0x7E])

def execGetVendorDefinedMessageSupport (b : Nat) (s : State) : Host.Outcome State Fault Refusal :=
  .next (mctpControl s b 0x06 [0x00, 0xFF, 0x00, 0x1F3B, 0x0000])

/-- The words of a payload, in an NVMe-MI response. -/
def payloadWords : Payload → List Nat
  | .words l => l
  | .slots l => l
  | .image b v => [b, v]
  | _ => []

/-- A log page in the management role. -/
def miPage (s : State) (b st : Nat) (p : Payload) : State :=
  if inService s then mctpOut s b 0x04 (st :: payloadWords p) else mctpOut s b 0x04 [stNotReady]

/-- An Admin command in NVMe-MI acts in the management role, with the staging set of its endpoint (R484). -/
def execNvmeMiMessage (b : Nat) (m : MiCmd) (s : State) : Host.Outcome State Fault Refusal :=
  .next (if !mctpUp s b then s
    else match m with
      | .ledgerLog position remap first count =>
        if position = 0 then
          let p := ledgerPage s 0 [] remap first count
          miPage s b p.1 p.2
        else if !positionRead s position then miPage s b stField .none
        else sendFrame s position 0x41 [0, 0x02, if remap then 1 else 0, first, count, 0]
      | .mediaHealth => miPage s b stOk (mediaPage s)
      | .contractLog lens => miPage s b stOk (contractPage s lens)
      | .loupeLog source slot count =>
        let p := loupePage s source (if source = 3 then 64 * slot else 1024 * slot)
          (if source = 3 then 64 * count else 1024 * count)
        miPage s b p.1 p.2
      | .smart => miPage s b stOk (.words (smartPage s 0))
      | .identify cns nsid =>
        let p := identifyPage s cns nsid
        miPage s b p.1 p.2
      | .supportedLogPages => miPage s b stOk supportedLogs
      | .dictWrite ops secured twinSpares =>
        if ops.isEmpty ∨ 256 < ops.length then mctpOut s b 0x04 [stField]
        else if reaches s (.mgmt b) then
          runList { who := .mgmt b, secured := secured, a := none, twinSpares := twinSpares } ops 0 s
        else s
      | .dictRead op => match op with
        | .read r => dictRequest s (.mgmt b) op none fun s => readOd s (.mgmt b) r false
        | .readStaged r => dictRequest s (.mgmt b) op none fun s => readOd s (.mgmt b) r true
        | .describe r => dictRequest s (.mgmt b) op none fun s => describeOd s (.mgmt b) r
        | .write r _ | .other _ r => answer s (.mgmt b) r 0x31)

/-! The I3C buses (R486, R594). -/

/-- The static address on both buses (R486). -/
def staticAddress (s : State) : Nat := 0x60 + field 7 5 s.rst.straps

/-- A device without a dynamic address takes one. -/
def assignAddress (s : State) (bus address : Nat) : State :=
  if !mctpUp s bus ∨ kvGet 0 bus s.mgmt.addrs ≠ 0 then s
  else { s with mgmt.addrs := kvPut 0 bus address s.mgmt.addrs }

/-- SETDASA to the device's static address; one to another address is not for it. -/
def execSetdasa (bus static address : Nat) (s : State) : Host.Outcome State Fault Refusal :=
  .next (if static = staticAddress s then assignAddress s bus address else s)

/-- ENTDAA with the provisional ID, whose manufacturer field is 0x1F3B. -/
def execEntdaa (bus address : Nat) (s : State) : Host.Outcome State Fault Refusal := .next (assignAddress s bus address)

/-- Reset a bus interface: it follows the bus afresh, without a dynamic address. -/
def resetBus (s : State) (bus : Nat) : State :=
  { s with mgmt.hdr := s.mgmt.hdr.filter fun b => b != bus, mgmt.addrs := kvPut 0 bus 0 s.mgmt.addrs }

def execTargetResetPattern (bus : Nat) (s : State) : Host.Outcome State Fault Refusal := .next (resetBus s bus)

/-- SCL is held low for 30 ms: the device lets SDA go and resets its interface. -/
def execSmbusSclTimeout (bus : Nat) (s : State) : Host.Outcome State Fault Refusal := .next (resetBus s bus)

/-- The bus enters an HDR mode: the device ignores it. -/
def execHdrEntry (bus : Nat) (s : State) : Host.Outcome State Fault Refusal :=
  .next { s with mgmt.hdr := addTo bus s.mgmt.hdr }

def execHdrExitPattern (bus : Nat) (s : State) : Host.Outcome State Fault Refusal :=
  .next { s with mgmt.hdr := s.mgmt.hdr.filter fun b => b != bus }

end Sys2Proof.Machine
end

