-- ==== Sys2Proof/Machine/Dispatch.lean ====
section
/-! DEFINITION. The dispatch: one arm per command. -/

namespace Sys2Proof.Machine

open Sys2Proof

def exec (i : Instr) (s : State) : Host.Outcome State Fault Refusal :=
  match i with
  | .submissionQueueDoorbell fn bell => Sys2Proof.Machine.execSubmissionQueueDoorbell fn bell s
  | .submissionEntryFetched op c => Sys2Proof.Machine.execSubmissionEntryFetched op c s
  | .tokenRefill => Sys2Proof.Machine.execTokenRefill s
  | .lensSubmissionGrant => Sys2Proof.Machine.execLensSubmissionGrant s
  | .flush c => Sys2Proof.Machine.execFlush c s
  | .write c => Sys2Proof.Machine.execWrite c s
  | .read c => Sys2Proof.Machine.execRead c s
  | .compare c data => Sys2Proof.Machine.execCompare c data s
  | .writeZeroes c => Sys2Proof.Machine.execWriteZeroes c s
  | .datasetManagement c deallocate ranges => Sys2Proof.Machine.execDatasetManagement c deallocate ranges s
  | .verify c => Sys2Proof.Machine.execVerify c s
  | .reservationRegister c action crkey nrkey => Sys2Proof.Machine.execReservationRegister c action crkey nrkey s
  | .reservationReport c => Sys2Proof.Machine.execReservationReport c s
  | .reservationAcquire c action crkey prkey rtype => Sys2Proof.Machine.execReservationAcquire c action crkey prkey rtype s
  | .reservationRelease c action crkey rtype => Sys2Proof.Machine.execReservationRelease c action crkey rtype s
  | .zoneAppend c => Sys2Proof.Machine.execZoneAppend c s
  | .openZone c => Sys2Proof.Machine.execOpenZone c s
  | .closeZone c => Sys2Proof.Machine.execCloseZone c s
  | .finishZone c => Sys2Proof.Machine.execFinishZone c s
  | .resetZone c => Sys2Proof.Machine.execResetZone c s
  | .offlineZone c => Sys2Proof.Machine.execOfflineZone c s
  | .setZoneDescriptorExtension c => Sys2Proof.Machine.execSetZoneDescriptorExtension c s
  | .reportZones c option part limit => Sys2Proof.Machine.execReportZones c option part limit s
  | .extendedReportZones c => Sys2Proof.Machine.execExtendedReportZones c s
  | .unsupportedIoCommand c opcode => Sys2Proof.Machine.execUnsupportedIoCommand c opcode s
  | .asnSequencerPick => Sys2Proof.Machine.execAsnSequencerPick s
  | .admissionHoldRelease ring row => Sys2Proof.Machine.execAdmissionHoldRelease ring row s
  | .writeDataFetch id data metadata staging fifo => Sys2Proof.Machine.execWriteDataFetch id data metadata staging fifo s
  | .postWriteCompletion id => Sys2Proof.Machine.execPostWriteCompletion id s
  | .ledgerRowProgram => Sys2Proof.Machine.execLedgerRowProgram s
  | .remapRecordProgram => Sys2Proof.Machine.execRemapRecordProgram s
  | .journalPageProgram => Sys2Proof.Machine.execJournalPageProgram s
  | .checkpointBegin => Sys2Proof.Machine.execCheckpointBegin s
  | .checkpointEnd => Sys2Proof.Machine.execCheckpointEnd s
  | .resetStepUnmap id zone => Sys2Proof.Machine.execResetStepUnmap id zone s
  | .dieReadIssue rid unit remain => Sys2Proof.Machine.execDieReadIssue rid unit remain s
  | .dieReadDone rid unit die d remain => Sys2Proof.Machine.execDieReadDone rid unit die d remain s
  | .readRetryStep rid unit t => Sys2Proof.Machine.execReadRetryStep rid unit t s
  | .softDecode rid unit d => Sys2Proof.Machine.execSoftDecode rid unit d s
  | .dieProgramIssue die p => Sys2Proof.Machine.execDieProgramIssue die p s
  | .dieProgramReady die status verifyOk => Sys2Proof.Machine.execDieProgramReady die status verifyOk s
  | .dieEraseIssue die block => Sys2Proof.Machine.execDieEraseIssue die block s
  | .dieEraseReady die status => Sys2Proof.Machine.execDieEraseReady die status s
  | .eraseSuspend die boundary => Sys2Proof.Machine.execEraseSuspend die boundary s
  | .eraseSuspendDone die status => Sys2Proof.Machine.execEraseSuspendDone die status s
  | .eraseResume die => Sys2Proof.Machine.execEraseResume die s
  | .wrdyTimeout die => Sys2Proof.Machine.execWrdyTimeout die s
  | .operationTimeout die => Sys2Proof.Machine.execOperationTimeout die s
  | .scriptInstructionLimit die => Sys2Proof.Machine.execScriptInstructionLimit die s
  | .nop die w => Sys2Proof.Machine.execNop die w s
  | .cmd die w => Sys2Proof.Machine.execCmd die w s
  | .addr die w => Sys2Proof.Machine.execAddr die w s
  | .dout die w => Sys2Proof.Machine.execDout die w s
  | .din die w => Sys2Proof.Machine.execDin die w s
  | .doutb die w => Sys2Proof.Machine.execDoutb die w s
  | .dinb die w received => Sys2Proof.Machine.execDinb die w received s
  | .sel die w => Sys2Proof.Machine.execSel die w s
  | .dsel die w => Sys2Proof.Machine.execDsel die w s
  | .wrdy die w => Sys2Proof.Machine.execWrdy die w s
  | .dieReady die => Sys2Proof.Machine.execDieReady die s
  | .stat die w received => Sys2Proof.Machine.execStat die w received s
  | .dly die w => Sys2Proof.Machine.execDly die w s
  | .phy die w => Sys2Proof.Machine.execPhy die w s
  | .movi die w => Sys2Proof.Machine.execMovi die w s
  | .movh die w => Sys2Proof.Machine.execMovh die w s
  | .aluAdd die w => Sys2Proof.Machine.execAluAdd die w s
  | .aluSubtract die w => Sys2Proof.Machine.execAluSubtract die w s
  | .aluAnd die w => Sys2Proof.Machine.execAluAnd die w s
  | .aluOr die w => Sys2Proof.Machine.execAluOr die w s
  | .aluXor die w => Sys2Proof.Machine.execAluXor die w s
  | .aluShiftLeft die w => Sys2Proof.Machine.execAluShiftLeft die w s
  | .aluShiftRight die w => Sys2Proof.Machine.execAluShiftRight die w s
  | .aluiAdd die w => Sys2Proof.Machine.execAluiAdd die w s
  | .aluiSubtract die w => Sys2Proof.Machine.execAluiSubtract die w s
  | .aluiAnd die w => Sys2Proof.Machine.execAluiAnd die w s
  | .aluiOr die w => Sys2Proof.Machine.execAluiOr die w s
  | .aluiXor die w => Sys2Proof.Machine.execAluiXor die w s
  | .aluiShiftLeft die w => Sys2Proof.Machine.execAluiShiftLeft die w s
  | .aluiShiftRight die w => Sys2Proof.Machine.execAluiShiftRight die w s
  | .br die w => Sys2Proof.Machine.execBr die w s
  | .bst die w => Sys2Proof.Machine.execBst die w s
  | .call die w => Sys2Proof.Machine.execCall die w s
  | .ret die w => Sys2Proof.Machine.execRet die w s
  | .gets die w => Sys2Proof.Machine.execGets die w s
  | .cnt die w => Sys2Proof.Machine.execCnt die w s
  | .endOp die w => Sys2Proof.Machine.execEndOp die w s
  | .slotBoundary => Sys2Proof.Machine.execSlotBoundary s
  | .frameBoundary => Sys2Proof.Machine.execFrameBoundary s
  | .channelScriptSwap ch rate => Sys2Proof.Machine.execChannelScriptSwap ch rate s
  | .rewriteStep die ok => Sys2Proof.Machine.execRewriteStep die ok s
  | .rowTableSwitch die => Sys2Proof.Machine.execRowTableSwitch die s
  | .patrolRead zone w facet d => Sys2Proof.Machine.execPatrolRead zone w facet d s
  | .probationPhaseEnd die ok => Sys2Proof.Machine.execProbationPhaseEnd die ok s
  | .phase3FacetRepair die zone d => Sys2Proof.Machine.execPhase3FacetRepair die zone d s
  | .gcStep nsid group => Sys2Proof.Machine.execGcStep nsid group s
  | .keyRotationStep nsid => Sys2Proof.Machine.execKeyRotationStep nsid s
  | .plnFallingEdge sinceUs => Sys2Proof.Machine.execPlnFallingEdge sinceUs s
  | .plnQualified => Sys2Proof.Machine.execPlnQualified s
  | .plnGlitch => Sys2Proof.Machine.execPlnGlitch s
  | .holdupDrainDone durationUs => Sys2Proof.Machine.execHoldupDrainDone durationUs s
  | .holdupSealDone => Sys2Proof.Machine.execHoldupSealDone s
  | .powerLostRelease => Sys2Proof.Machine.execPowerLostRelease s
  | .pwrdisQualified => Sys2Proof.Machine.execPwrdisQualified s
  | .ccShnShutdown fn shn => Sys2Proof.Machine.execCcShnShutdown fn shn s
  | .shutdownComplete => Sys2Proof.Machine.execShutdownComplete s
  | .restartScan loss => Sys2Proof.Machine.execRestartScan loss s
  | .pairBootWaitExpiry => Sys2Proof.Machine.execPairBootWaitExpiry s
  | .imageAreaRelease => Sys2Proof.Machine.execImageAreaRelease s
  | .keepaliveSend => Sys2Proof.Machine.execKeepaliveSend s
  | .keepalive h b => Sys2Proof.Machine.execKeepalive h b s
  | .linkLoss => Sys2Proof.Machine.execLinkLoss s
  | .promotionWaitExpiry => Sys2Proof.Machine.execPromotionWaitExpiry s
  | .pairHbInAbsent => Sys2Proof.Machine.execPairHbInAbsent s
  | .pairHbInPresent => Sys2Proof.Machine.execPairHbInPresent s
  | .linkTrained port lanes serial position peerDigest peerEpoch peerLead peerPref peerNamespaces peer => Sys2Proof.Machine.execLinkTrained port lanes serial position peerDigest peerEpoch peerLead peerPref peerNamespaces peer s
  | .holdingAcknowledgement h asns differ => Sys2Proof.Machine.execHoldingAcknowledgement h asns differ s
  | .holdingAckLate asn => Sys2Proof.Machine.execHoldingAckLate asn s
  | .linkAcknowledgement port received resend => Sys2Proof.Machine.execLinkAcknowledgement port received resend s
  | .fastRetrainTimeout port => Sys2Proof.Machine.execFastRetrainTimeout port s
  | .attachFrame h forkPoint livePoint rings regions transfer => Sys2Proof.Machine.execAttachFrame h forkPoint livePoint rings regions transfer s
  | .handoverFrame h head => Sys2Proof.Machine.execHandoverFrame h head s
  | .detachFrame h asn => Sys2Proof.Machine.execDetachFrame h asn s
  | .powerLossNotice port => Sys2Proof.Machine.execPowerLossNotice port s
  | .preserveReport h group => Sys2Proof.Machine.execPreserveReport h group s
  | .forkReport h forkPoint appliedHead => Sys2Proof.Machine.execForkReport h forkPoint appliedHead s
  | .forcedResetFrame h case => Sys2Proof.Machine.execForcedResetFrame h case s
  | .pairRootTransfer h root => Sys2Proof.Machine.execPairRootTransfer h root s
  | .keySwitchAsnFrame h nsid asn generation salt => Sys2Proof.Machine.execKeySwitchAsnFrame h nsid asn generation salt s
  | .admissionRequest h op c index generation => Sys2Proof.Machine.execAdmissionRequest h op c index generation s
  | .ledgerRecords h recs => Sys2Proof.Machine.execLedgerRecords h recs s
  | .fetchRequest h zone unit count => Sys2Proof.Machine.execFetchRequest h zone unit count s
  | .conventionalOrder h id nsid lba blocks seq => Sys2Proof.Machine.execConventionalOrder h id nsid lba blocks seq s
  | .writeDataFrame h asn zone unit check c lastFrame => Sys2Proof.Machine.execWriteDataFrame h asn zone unit check c lastFrame s
  | .fetchResponse h rid zone unit c generation => Sys2Proof.Machine.execFetchResponse h rid zone unit c generation s
  | .catchingUpDone => Sys2Proof.Machine.execCatchingUpDone s
  | .resyncZoneCopy zone => Sys2Proof.Machine.execResyncZoneCopy zone s
  | .zoneResyncDone => Sys2Proof.Machine.execZoneResyncDone s
  | .keyUpdate port => Sys2Proof.Machine.execKeyUpdate port s
  | .forwardedCommand h op c index fn generation cls first check tag => Sys2Proof.Machine.execForwardedCommand h op c index fn generation cls first check tag s
  | .memberCompletion position tag status dw0 dw1 e => Sys2Proof.Machine.execMemberCompletion position tag status dw0 dw1 e s
  | .cascadeLinkLoss port => Sys2Proof.Machine.execCascadeLinkLoss port s
  | .memberProbationPass position configOk extentsOk frameClean => Sys2Proof.Machine.execMemberProbationPass position configOk extentsOk frameClean s
  | .memberRemove position => Sys2Proof.Machine.execMemberRemove position s
  | .vfEnable numVfs => Sys2Proof.Machine.execVfEnable numVfs s
  | .vfDisable numVfs => Sys2Proof.Machine.execVfDisable numVfs s
  | .virtualizationOnline a lens => Sys2Proof.Machine.execVirtualizationOnline a lens s
  | .virtualizationOffline a lens => Sys2Proof.Machine.execVirtualizationOffline a lens s
  | .virtualizationAssign a lens vq vi => Sys2Proof.Machine.execVirtualizationAssign a lens vq vi s
  | .probationChecksPass lens failed badLanes => Sys2Proof.Machine.execProbationChecksPass lens failed badLanes s
  | .flr r => Sys2Proof.Machine.execFlr r s
  | .ccEnClear r => Sys2Proof.Machine.execCcEnClear r s
  | .ccEnSet fn => Sys2Proof.Machine.execCcEnSet fn s
  | .lockInterface lens streamBound => Sys2Proof.Machine.execLockInterface lens streamBound s
  | .getDeviceInterfaceReport lens => Sys2Proof.Machine.execGetDeviceInterfaceReport lens s
  | .getDeviceInterfaceState lens => Sys2Proof.Machine.execGetDeviceInterfaceState lens s
  | .startInterface lens => Sys2Proof.Machine.execStartInterface lens s
  | .stopInterface lens => Sys2Proof.Machine.execStopInterface lens s
  | .ideIntegrityFailure port lens => Sys2Proof.Machine.execIdeIntegrityFailure port lens s
  | .mmioRequest lens m => Sys2Proof.Machine.execMmioRequest lens m s
  | .writeLogSwap lens => Sys2Proof.Machine.execWriteLogSwap lens s
  | .swapComplete lens => Sys2Proof.Machine.execSwapComplete lens s
  | .lensPause lens value => Sys2Proof.Machine.execLensPause lens value s
  | .cipherMessageGrant requests passed => Sys2Proof.Machine.execCipherMessageGrant requests passed s
  | .cipherAlarm alarm => Sys2Proof.Machine.execCipherAlarm alarm s
  | .alarmClearRecover => Sys2Proof.Machine.execAlarmClearRecover s
  | .entropyHealthFailure => Sys2Proof.Machine.execEntropyHealthFailure s
  | .drbgReseed ok => Sys2Proof.Machine.execDrbgReseed ok s
  | .laneReturn lane vectorsOk => Sys2Proof.Machine.execLaneReturn lane vectorsOk s
  | .keyRotationStart nsid => Sys2Proof.Machine.execKeyRotationStart nsid s
  | .firmwareCommitReplace a slot f => Sys2Proof.Machine.execFirmwareCommitReplace a slot f s
  | .firmwareCommitReplaceActivate a slot f => Sys2Proof.Machine.execFirmwareCommitReplaceActivate a slot f s
  | .firmwareCommitActivate a slot => Sys2Proof.Machine.execFirmwareCommitActivate a slot s
  | .firmwareCommitImmediate a => Sys2Proof.Machine.execFirmwareCommitImmediate a s
  | .raiseMinimum version => Sys2Proof.Machine.execRaiseMinimum version s
  | .negotiateAlgorithms b asymP384 sha384 secp384 aesGcm keySchedule => Sys2Proof.Machine.execNegotiateAlgorithms b asymP384 sha384 secp384 aesGcm keySchedule s
  | .getCertificate b slot => Sys2Proof.Machine.execGetCertificate b slot s
  | .challenge b slot nonce => Sys2Proof.Machine.execChallenge b slot nonce s
  | .getMeasurements b index nonce signed => Sys2Proof.Machine.execGetMeasurements b index nonce signed s
  | .keyExchange b secret => Sys2Proof.Machine.execKeyExchange b secret s
  | .setCertificate b slot chain leafKey secured => Sys2Proof.Machine.execSetCertificate b slot chain leafKey secured s
  | .vendorDefinedRequest b standard vendor sequence => Sys2Proof.Machine.execVendorDefinedRequest b standard vendor sequence s
  | .levelChangeStart => Sys2Proof.Machine.execLevelChangeStart s
  | .levelChangeDone => Sys2Proof.Machine.execLevelChangeDone s
  | .vddPgRise => Sys2Proof.Machine.execVddPgRise s
  | .vddPgTimeout => Sys2Proof.Machine.execVddPgTimeout s
  | .vddPgFall => Sys2Proof.Machine.execVddPgFall s
  | .idleTimerExpiry => Sys2Proof.Machine.execIdleTimerExpiry s
  | .sleepEntry => Sys2Proof.Machine.execSleepEntry s
  | .sleepBlockAnswer agrees holdOffUs => Sys2Proof.Machine.execSleepBlockAnswer agrees holdOffUs s
  | .sleepAnswerTimeout => Sys2Proof.Machine.execSleepAnswerTimeout s
  | .sleepRetry => Sys2Proof.Machine.execSleepRetry s
  | .wakeEvent event crcOk => Sys2Proof.Machine.execWakeEvent event crcOk s
  | .setFeaturesPowerManagement a ps => Sys2Proof.Machine.execSetFeaturesPowerManagement a ps s
  | .apstTransition ps => Sys2Proof.Machine.execApstTransition ps s
  | .pciD3hot inL12 => Sys2Proof.Machine.execPciD3hot inL12 s
  | .managementSleepRequest level => Sys2Proof.Machine.execManagementSleepRequest level s
  | .adcPeriod sums pcapA dieTemps => Sys2Proof.Machine.execAdcPeriod sums pcapA dieTemps s
  | .thermalCriticalExit => Sys2Proof.Machine.execThermalCriticalExit s
  | .thermalTrip => Sys2Proof.Machine.execThermalTrip s
  | .temperatureSample => Sys2Proof.Machine.execTemperatureSample s
  | .healthSave => Sys2Proof.Machine.execHealthSave s
  | .pcapPRisingEdge period high => Sys2Proof.Machine.execPcapPRisingEdge period high s
  | .pcapPTimeout => Sys2Proof.Machine.execPcapPTimeout s
  | .pcapPFallback => Sys2Proof.Machine.execPcapPFallback s
  | .pcapPRestore => Sys2Proof.Machine.execPcapPRestore s
  | .loopTick => Sys2Proof.Machine.execLoopTick s
  | .loopOverrun eng => Sys2Proof.Machine.execLoopOverrun eng s
  | .loopInstructionLimit eng => Sys2Proof.Machine.execLoopInstructionLimit eng s
  | .loopNop eng w => Sys2Proof.Machine.execLoopNop eng w s
  | .lda eng w => Sys2Proof.Machine.execLda eng w s
  | .add eng w => Sys2Proof.Machine.execAdd eng w s
  | .sub eng w => Sys2Proof.Machine.execSub eng w s
  | .mpy eng w => Sys2Proof.Machine.execMpy eng w s
  | .mac eng w => Sys2Proof.Machine.execMac eng w s
  | .msu eng w => Sys2Proof.Machine.execMsu eng w s
  | .sha eng w => Sys2Proof.Machine.execSha eng w s
  | .sts eng w => Sys2Proof.Machine.execSts eng w s
  | .clp eng w => Sys2Proof.Machine.execClp eng w s
  | .min eng w => Sys2Proof.Machine.execMin eng w s
  | .max eng w => Sys2Proof.Machine.execMax eng w s
  | .ldi eng w => Sys2Proof.Machine.execLdi eng w s
  | .mov eng w => Sys2Proof.Machine.execMov eng w s
  | .cmp eng w => Sys2Proof.Machine.execCmp eng w s
  | .loopBr eng w => Sys2Proof.Machine.execLoopBr eng w s
  | .adi eng w => Sys2Proof.Machine.execAdi eng w s
  | .loopEnd eng w => Sys2Proof.Machine.execLoopEnd eng w s
  | .loopProgramLoad eng image => Sys2Proof.Machine.execLoopProgramLoad eng image s
  | .engineReturn eng => Sys2Proof.Machine.execEngineReturn eng s
  | .engineSelfTestDone eng signature => Sys2Proof.Machine.execEngineSelfTestDone eng signature s
  | .engineShadowDone eng => Sys2Proof.Machine.execEngineShadowDone eng s
  | .dramRequestGrant ch requests p => Sys2Proof.Machine.execDramRequestGrant ch requests p s
  | .agePromotion ch port => Sys2Proof.Machine.execAgePromotion ch port s
  | .rowClose ch bank => Sys2Proof.Machine.execRowClose ch bank s
  | .dramRefresh ch bank atLimit => Sys2Proof.Machine.execDramRefresh ch bank atLimit s
  | .mr4Poll ch code => Sys2Proof.Machine.execMr4Poll ch code s
  | .selfRefreshEntry ch => Sys2Proof.Machine.execSelfRefreshEntry ch s
  | .retrainStart => Sys2Proof.Machine.execRetrainStart s
  | .retrainPause ch class0 drift inRange => Sys2Proof.Machine.execRetrainPause ch class0 drift inRange s
  | .fullRetraining ch ok => Sys2Proof.Machine.execFullRetraining ch ok s
  | .scrubRead address p lastOfPass => Sys2Proof.Machine.execScrubRead address p lastOfPass s
  | .dramInitBlock block => Sys2Proof.Machine.execDramInitBlock block s
  | .bufferAllocate pool requests linkOk => Sys2Proof.Machine.execBufferAllocate pool requests linkOk s
  | .bufferReturn pool address requester faulty => Sys2Proof.Machine.execBufferReturn pool address requester faulty s
  | .freeListRebuildDone pool tier => Sys2Proof.Machine.execFreeListRebuildDone pool tier s
  | .bufferWaitTimeout pool r rid => Sys2Proof.Machine.execBufferWaitTimeout pool r rid s
  | .powerOn => Sys2Proof.Machine.execPowerOn s
  | .coreBrownOut => Sys2Proof.Machine.execCoreBrownOut s
  | .aonBrownOut => Sys2Proof.Machine.execAonBrownOut s
  | .perstAssert => Sys2Proof.Machine.execPerstAssert s
  | .perstDeassert => Sys2Proof.Machine.execPerstDeassert s
  | .perstGlitch => Sys2Proof.Machine.execPerstGlitch s
  | .preResetFlushSeal => Sys2Proof.Machine.execPreResetFlushSeal s
  | .preResetFlushLimit => Sys2Proof.Machine.execPreResetFlushLimit s
  | .watchdogExpiry => Sys2Proof.Machine.execWatchdogExpiry s
  | .bootTimerExpiry => Sys2Proof.Machine.execBootTimerExpiry s
  | .managementReset => Sys2Proof.Machine.execManagementReset s
  | .releaseCountDone straps => Sys2Proof.Machine.execReleaseCountDone straps s
  | .refclkLoss => Sys2Proof.Machine.execRefclkLoss s
  | .refclkRestore => Sys2Proof.Machine.execRefclkRestore s
  | .testModeHold high => Sys2Proof.Machine.execTestModeHold high s
  | .stage1Loader f => Sys2Proof.Machine.execStage1Loader f s
  | .stage2Sealed f => Sys2Proof.Machine.execStage2Sealed f s
  | .stage3Ftl => Sys2Proof.Machine.execStage3Ftl s
  | .strapCheck straps => Sys2Proof.Machine.execStrapCheck straps s
  | .blockResetFlashChannel unit => Sys2Proof.Machine.execBlockResetFlashChannel unit s
  | .blockResetCipherLane unit => Sys2Proof.Machine.execBlockResetCipherLane unit s
  | .blockResetSoftDecoder unit => Sys2Proof.Machine.execBlockResetSoftDecoder unit s
  | .blockResetPlacementEngine unit => Sys2Proof.Machine.execBlockResetPlacementEngine unit s
  | .blockResetLoopEngine unit => Sys2Proof.Machine.execBlockResetLoopEngine unit s
  | .blockResetMirrorLink => Sys2Proof.Machine.execBlockResetMirrorLink s
  | .blockResetCascadePort unit => Sys2Proof.Machine.execBlockResetCascadePort unit s
  | .blockResetTracePort => Sys2Proof.Machine.execBlockResetTracePort s
  | .blockResetLoupe => Sys2Proof.Machine.execBlockResetLoupe s
  | .maintenanceRequest value => Sys2Proof.Machine.execMaintenanceRequest value s
  | .bootFailureClear => Sys2Proof.Machine.execBootFailureClear s
  | .logicBistStart => Sys2Proof.Machine.execLogicBistStart s
  | .logicBistDone signatures => Sys2Proof.Machine.execLogicBistDone signatures s
  | .onlinePassStart => Sys2Proof.Machine.execOnlinePassStart s
  | .memoryBistStep signature => Sys2Proof.Machine.execMemoryBistStep signature s
  | .deviceSelfTestShort a failedLanes => Sys2Proof.Machine.execDeviceSelfTestShort a failedLanes s
  | .deviceSelfTestExtended a failedLanes => Sys2Proof.Machine.execDeviceSelfTestExtended a failedLanes s
  | .loupeTriggerPeriod trigger => Sys2Proof.Machine.execLoupeTriggerPeriod trigger s
  | .loupeFlush => Sys2Proof.Machine.execLoupeFlush s
  | .loupeEmpty => Sys2Proof.Machine.execLoupeEmpty s
  | .loupeResume => Sys2Proof.Machine.execLoupeResume s
  | .alertReleaseRead => Sys2Proof.Machine.execAlertReleaseRead s
  | .namespaceCreate src zoned size format parity place activeQuota openQuota reservedZero memberFree => Sys2Proof.Machine.execNamespaceCreate src zoned size format parity place activeQuota openQuota reservedZero memberFree s
  | .namespaceDelete src nsid => Sys2Proof.Machine.execNamespaceDelete src nsid s
  | .namespaceAttach a nsid fns => Sys2Proof.Machine.execNamespaceAttach a nsid fns s
  | .namespaceDetach a nsid fns => Sys2Proof.Machine.execNamespaceDetach a nsid fns s
  | .formatNvmNoSecureErase src nsid format => Sys2Proof.Machine.execFormatNvmNoSecureErase src nsid format s
  | .formatNvmUserDataErase src nsid format => Sys2Proof.Machine.execFormatNvmUserDataErase src nsid format s
  | .formatNvmCryptoErase src nsid format => Sys2Proof.Machine.execFormatNvmCryptoErase src nsid format s
  | .sanitizeBlockErase src => Sys2Proof.Machine.execSanitizeBlockErase src s
  | .sanitizeCryptoErase src => Sys2Proof.Machine.execSanitizeCryptoErase src s
  | .sanitizeOverwrite a => Sys2Proof.Machine.execSanitizeOverwrite a s
  | .abort a sq cid => Sys2Proof.Machine.execAbort a sq cid s
  | .setFeaturesFdp a group enable events => Sys2Proof.Machine.execSetFeaturesFdp a group enable events s
  | .admissionLedgerLog a position remap offsetType1 range fetched => Sys2Proof.Machine.execAdmissionLedgerLog a position remap offsetType1 range fetched s
  | .mediaHealthLog a => Sys2Proof.Machine.execMediaHealthLog a s
  | .lensContractLog a lens => Sys2Proof.Machine.execLensContractLog a lens s
  | .loupeLog a source offset length => Sys2Proof.Machine.execLoupeLog a source offset length s
  | .smartHealthLog a retainEvent => Sys2Proof.Machine.execSmartHealthLog a retainEvent s
  | .changedZoneListLog a nsid retainEvent => Sys2Proof.Machine.execChangedZoneListLog a nsid retainEvent s
  | .fdpLogs a which => Sys2Proof.Machine.execFdpLogs a which s
  | .telemetryLog a hostInitiated => Sys2Proof.Machine.execTelemetryLog a hostInitiated s
  | .dictRead who r a => Sys2Proof.Machine.execDictRead who r a s
  | .dictReadStaged who r a => Sys2Proof.Machine.execDictReadStaged who r a s
  | .dictDescribe who r a => Sys2Proof.Machine.execDictDescribe who r a s
  | .dictWrite q ops => Sys2Proof.Machine.execDictWrite q ops s
  | .commit group => Sys2Proof.Machine.execCommit group s
  | .commitDurable who leadStatus => Sys2Proof.Machine.execCommitDurable who leadStatus s
  | .discard who secured => Sys2Proof.Machine.execDiscard who secured s
  | .stagingSetExpiry endpoint => Sys2Proof.Machine.execStagingSetExpiry endpoint s
  | .dieScriptLoad q image channels => Sys2Proof.Machine.execDieScriptLoad q image channels s
  | .dieReturn die => Sys2Proof.Machine.execDieReturn die s
  | .channelReturn ch => Sys2Proof.Machine.execChannelReturn ch s
  | .pairAttach => Sys2Proof.Machine.execPairAttach s
  | .pairDetach => Sys2Proof.Machine.execPairDetach s
  | .handover => Sys2Proof.Machine.execHandover s
  | .discardHistoryAndAttach => Sys2Proof.Machine.execDiscardHistoryAndAttach s
  | .clearPairing => Sys2Proof.Machine.execClearPairing s
  | .setEndpointId binding eid => Sys2Proof.Machine.execSetEndpointId binding eid s
  | .getEndpointId binding => Sys2Proof.Machine.execGetEndpointId binding s
  | .getMctpVersionSupport binding => Sys2Proof.Machine.execGetMctpVersionSupport binding s
  | .getMessageTypeSupport binding => Sys2Proof.Machine.execGetMessageTypeSupport binding s
  | .getVendorDefinedMessageSupport binding => Sys2Proof.Machine.execGetVendorDefinedMessageSupport binding s
  | .nvmeMiMessage binding m => Sys2Proof.Machine.execNvmeMiMessage binding m s
  | .setdasa bus static address => Sys2Proof.Machine.execSetdasa bus static address s
  | .entdaa bus address => Sys2Proof.Machine.execEntdaa bus address s
  | .targetResetPattern bus => Sys2Proof.Machine.execTargetResetPattern bus s
  | .smbusSclTimeout bus => Sys2Proof.Machine.execSmbusSclTimeout bus s
  | .supplyWithinRange supply => Sys2Proof.Machine.execSupplyWithinRange supply s
  | .thermalTripRelease => Sys2Proof.Machine.execThermalTripRelease s
  | .fastRetrainDone port => Sys2Proof.Machine.execFastRetrainDone port s
  | .frameCheckFailure port seq => Sys2Proof.Machine.execFrameCheckFailure port seq s
  | .flitCheckFailure port replayOk => Sys2Proof.Machine.execFlitCheckFailure port replayOk s
  | .periodicChannelRetraining ch rate done => Sys2Proof.Machine.execPeriodicChannelRetraining ch rate done s
  | .korlaCoreMachineCheck => Sys2Proof.Machine.execKorlaCoreMachineCheck s
  | .ftlFirmwareAssertion => Sys2Proof.Machine.execFtlFirmwareAssertion s
  | .hdrEntry bus => Sys2Proof.Machine.execHdrEntry bus s
  | .hdrExitPattern bus => Sys2Proof.Machine.execHdrExitPattern bus s
  | .endSession b => Sys2Proof.Machine.execEndSession b s
  | .asynchronousEventRequest a => Sys2Proof.Machine.execAsynchronousEventRequest a s

end Sys2Proof.Machine
end

