-- ==== Sys2Proof/Safety.lean ====
section
/-! DEFINITION. What a safe run is, and the words the statements are written in. -/

namespace Sys2Proof

/-- A step that answers a next state. -/
def Safe (s : Machine.State) : Prop := ∃ t, Machine.step s = .next t

/-- A run of n steps that never stops. -/
def SafeRun : Nat → Machine.State → Prop
  | 0, _ => True
  | n + 1, s => ∃ t, Machine.step s = .next t ∧ SafeRun n t

/-- The command i takes the state s to the state t. -/
abbrev Does (i : Instr) (s t : Machine.State) : Prop := Machine.exec i s = .next t

/-- A host command reaches its meaning: its controller takes commands, checks 1 to 6 of R56 pass, and n is its
namespace. -/
abbrev Served (s : Machine.State) (op : IoOp) (c : IoCmd) (n : Machine.Ns) : Prop :=
  Machine.accepts s c.fn = true ∧ Machine.checks s op c = none ∧ Machine.ns? s c.nsid = some n

/-- The state in which a host command's own effect takes place: the device has taken the command up. -/
abbrev upState (s : Machine.State) (op : IoOp) (c : IoCmd) : Machine.State := (Machine.startCmd s op c).1

/-- A host command as the device has taken it up. -/
abbrev upCmd (s : Machine.State) (op : IoOp) (c : IoCmd) : Machine.Cmd := (Machine.startCmd s op c).2

/-- The host gets exactly one completion of a command more, with that status, Dword 0 and data. -/
abbrev Posts (s t : Machine.State) (c : IoCmd) (status dw0 : Nat) (p : Machine.Payload) : Prop :=
  t.host.cq = s.host.cq ++ [{ fn := c.fn, sq := c.sq, cid := c.cid, status := status, dw0 := dw0, dw1 := 0, payload := p }]

/-- The device stands alone, no command is in it, and the sequencer has nothing to do and may admit a command. -/
abbrev Calm (s : Machine.State) : Prop :=
  s.host.cmds = [] ∧ s.adm.due = [] ∧ s.adm.afterClose = none ∧ Machine.pairRole s = 0 ∧ s.pair.fenced = false ∧
    s.adm.spent = false ∧ s.adm.nextAsn < 2 ^ 64 - 1 ∧ Machine.holdFull s = false ∧ s.casc.members = []

/-- No die has a request waiting. -/
abbrev NoQueue (s : Machine.State) : Prop := ∀ e ∈ s.dies, e.2.queue = []

/-- An administrative command reaches its meaning: its controller takes commands, and it is the physical function
where it has to be. -/
abbrev AdminServed (s : Machine.State) (a : Adm) : Prop := Machine.accepts s a.fn = true ∧ a.fn = 0

/-- A frame of the twin is taken in: the link is up and in session, its epoch is not old and its sequence is new. -/
abbrev Received (s : Machine.State) (h : FrameHdr) : Prop :=
  s.pair.linkUp = true ∧ s.pair.session = true ∧ Machine.pairEpoch s ≤ h.epoch ∧ s.pair.rxSeq < h.seq

/-- The state in which a received frame takes effect: its sequence number is the last one taken. -/
abbrev taken (s : Machine.State) (h : FrameHdr) : Machine.State := { s with pair.rxSeq := h.seq }

/-- The context of die d may run the word w as an instruction of opcode op (R203, R206, R208): an entry runs and does not
wait, the context has the bus, the word has that opcode and clear reserved bits, the count is not spent, the index is
inside the script's code, and the script's word there is that word. -/
abbrev ScriptReady (s : Machine.State) (d op : Nat) (w : BitVec 32) : Prop :=
  (Machine.ctx s d).entry.isSome = true ∧ (Machine.ctx s d).waiting = false ∧
    (Machine.chan s (Machine.dieChan d)).holder = some d ∧ Machine.wOp w = op ∧ Machine.wReserved w = 0 ∧
    (Machine.ctx s d).count < 65536 ∧ Machine.pastEnd s d = false ∧ (Machine.chan s (Machine.dieChan d)).code.getD (Machine.ctx s d).pc w = w

/-- The context of die d once an instruction has been counted and its index has moved on. -/
abbrev ticked (s : Machine.State) (d : Nat) : Machine.Ctx :=
  { Machine.ctx s d with count := (Machine.ctx s d).count + 1, pc := (Machine.ctx s d).pc + 1 }

/-- The state in which an instruction's own effect takes place. -/
abbrev scriptNext (s : Machine.State) (d : Nat) : Machine.State := Machine.setCtx s d (ticked s d)

/-- Engine k may run the word w as an instruction of opcode op (R446, R447): it runs, its count is not spent, the word has
that opcode and clear reserved bits, and the program's word at the engine's index, where it is held, is that word. -/
abbrev LoopReady (s : Machine.State) (k op : Nat) (w : BitVec 32) : Prop :=
  (Machine.eng s k).running = true ∧ (Machine.eng s k).count < 4096 ∧ Machine.lwOp w = op ∧ Machine.lwReserved w = 0 ∧
    (Machine.eng s k).code.getD (Machine.eng s k).pc w = w

/-- Engine k once an instruction has been counted and its index has moved on. -/
abbrev loopTicked (s : Machine.State) (k : Nat) : Machine.Engine :=
  { Machine.eng s k with count := (Machine.eng s k).count + 1, pc := (Machine.eng s k).pc + 1 }

/-- The state in which a loop instruction's own effect takes place. -/
abbrev loopNext (s : Machine.State) (k : Nat) : Machine.State := Machine.setEng s k (loopTicked s k)

/-- What an accumulator instruction of value v does (R445): the accumulator takes v saturated to 40 bits, and a value past
a limit is counted in OD 0x8210:07. -/
abbrev accWrites (s : Machine.State) (k : Nat) (w : BitVec 32) (v : Int) : Machine.State :=
  let t := Machine.setEng (loopNext s k) k ((loopTicked s k).setAcc (Machine.lwA w) (max (-2 ^ 39) (min (2 ^ 39 - 1) v)))
  if v < -2 ^ 39 ∨ 2 ^ 39 - 1 < v then Machine.odBump t 0x8210 0x07 k else t

/-- What a data word instruction of value v does: word m takes v. -/
abbrev wordWrites (s : Machine.State) (k : Nat) (w : BitVec 32) (v : Int) : Machine.State :=
  Machine.setEng (loopNext s k) k { loopTicked s k with d := Machine.kvPut 0 (Machine.lwM w) v (Machine.eng s k).d }

end Sys2Proof
end

