-- ==== Sys2Proof/Certificates/Slice0/Obligations.lean ====
section
/-! DEFINITION. The statements for the provers. Does i s t says that the command i takes the state s to the state t;
the words of Sys2Proof/Safety.lean (Served, AdminServed, Received, ScriptReady, LoopReady) say when a command reaches its
meaning. -/

namespace Sys2Proof.Machine

/-- R207: what an ALU instruction writes: its result to register d, Z where it is zero, N its bit 31. -/
abbrev aluWrites (s : State) (d : Nat) (w r : Word32) : State :=
  setCtx (scriptNext s d) d { ticked s d with v := (ctx s d).v.set (wD w) r, z := r == 0, n := r.msb }

end Sys2Proof.Machine

open Sys2Proof Sys2Proof.Machine

/-- R65, R74, R76 (derived: the read path is the model's function serveRead): a Read, a Compare and a Verify that pass
checks 1 to 6 of R56 are served by the read path, a Compare with the host's data to compare. A range whose blocks all
lie in an Empty zone of a namespace without protection information needs no media: the Read returns zeroes (with
metadata of 0xFF, R74), the Compare completes with 0 against them and with Compare Failure against other data, and the
Verify completes. R65, R66, R69, R70 (derived): Zone Append, a Zone Management Send action, and a Write or Write
Zeroes of a zoned namespace wait at the admission point of the zone of their LBA; an Offline does so while no step
holds its zone. R28, R65 (derived): admitted as the only command of a lone device, each action that the zone-state
table allows takes its zone to the table's state with the next ASN: Open to Explicitly Opened, Close of an opened zone
to Closed or, with nothing written, to Empty, Finish to Full, Reset to Empty, and Offline of a Read Only zone to
Offline; a Write, a Write Zeroes and a Zone Append move the write pointer by their blocks and leave the zone Full at
its capacity, else opened. R83 (derived; the wait is a free value, log entry 106): an Offline of a zone that a
background step holds is refused with 0xC8 and a wait of one slot at most, in units of 100 µs. -/
def Obligations.HostReadsAndZoneCommands : Prop :=
  (∀ (s : State) (c : IoCmd) (n : Ns),
    (Served s .read c n → Does (.read c) s (serveRead (upState s .read c) n (upCmd s .read c))) ∧
    (∀ data, Served s .compare c n →
      Does (.compare c data) s (serveRead (upState s .compare c) n { upCmd s .compare c with cmp := data })) ∧
    (Served s .verify c n → Does (.verify c) s (serveRead (upState s .verify c) n (upCmd s .verify c)))) ∧
  (∀ (s : State) (c : IoCmd) (n : Ns) (z : Nat), n.zoned = true → n.extents = [] → n.pit = 0 → 0 < c.nlb →
    (∀ i < c.nlb, n.zoneOf (c.slba + i) = some z) → (zone s z).st = .empty → s.host.cmds = [] → kvWf {} s.host.fns →
    (Served s .read c n → genOk s c.fn (upCmd s .read c).gen = true →
      ∃ t, Does (.read c) s t ∧ Posts s t c 0 0 (.blocks (List.replicate c.nlb (n.flip 0)))) ∧
    (∀ data, Served s .compare c n → genOk s c.fn (upCmd s .compare c).gen = true → ∃ t, Does (.compare c data) s t ∧
      Posts s t c (if data = List.replicate c.nlb (n.flip 0) then 0 else 0x285) 0 .none) ∧
    (Served s .verify c n → genOk s c.fn (upCmd s .verify c).gen = true →
      ∃ t, Does (.verify c) s t ∧ Posts s t c 0 0 .none)) ∧
  (∀ (s : State) (c : IoCmd) (n : Ns) (z : Nat), s.adm.spent = false → pairRole s ≠ 2 → c.selectAll = false →
    n.zoneOf c.slba = some z → (n.posOf c.slba = none ∨ n.posOf c.slba = some (casPos s)) →
    let waits (i : Instr) (op : IoOp) : Prop := Served s op c n → ∃ t, Does i s t ∧
      { upCmd s op c with zone := z, stage := .point } ∈ t.host.cmds ∧ t.zones = s.zones ∧ t.adm.nextAsn = s.adm.nextAsn
    waits (.zoneAppend c) .zoneAppend ∧ waits (.openZone c) (.zoneSend .openZ) ∧
    waits (.closeZone c) (.zoneSend .closeZ) ∧ waits (.finishZone c) (.zoneSend .finishZ) ∧
    waits (.resetZone c) (.zoneSend .resetZ) ∧ (zoneStep s z = false → waits (.offlineZone c) (.zoneSend .offlineZ)) ∧
    (n.zoned = true → waits (.write c) .write ∧ waits (.writeZeroes c) .writeZeroes)) ∧
  (∀ (s : State) (c : IoCmd) (n : Ns) (z : Nat), Calm s → s.adm.preserve = false → kvWf {} s.zones → n.extents = [] →
    c.selectAll = false → n.zoneOf c.slba = some z → c.slba = n.startOf z →
    let goes (i : Instr) (a : ZoneAct) (st : ZState) : Prop := Served s (.zoneSend a) c n →
      sendOutcome s n z s.adm.nextAsn a = { status := 0 } → rowHeld s n (upCmd s (.zoneSend a) c) z = false →
      ∃ t u, Does i s t ∧ Does .asnSequencerPick t u ∧ (zone u z).st = st ∧ u.adm.nextAsn = s.adm.nextAsn + 1
    goes (.openZone c) .openZ .explOpen ∧
    ((zone s z).st.isOpen = true →
      goes (.closeZone c) .closeZ (if (zone s z).wp = 0 then .empty else .closed)) ∧
    goes (.finishZone c) .finishZ .full ∧ goes (.resetZone c) .resetZ .empty ∧
    (zoneStep s z = false → goes (.offlineZone c) .offlineZ .offline)) ∧
  (∀ (s : State) (c : IoCmd) (n : Ns) (z : Nat), Calm s → s.adm.preserve = false → kvWf {} s.zones → n.extents = [] →
    c.selectAll = false → n.zoneOf c.slba = some z →
    let puts (i : Instr) (op : IoOp) : Prop := Served s op c n →
      writeOutcome s n z s.adm.nextAsn op c.slba c.nlb = { status := 0 } → rowHeld s n (upCmd s op c) z = false →
      ∃ t u, Does i s t ∧ Does .asnSequencerPick t u ∧ (zone u z).wp = (zone s z).wp + c.nlb ∧
        (zone u z).st = (if n.zcap ≤ (zone s z).wp + c.nlb then .full
          else if (zone s z).st = .explOpen then .explOpen else .implOpen) ∧ u.adm.nextAsn = s.adm.nextAsn + 1
    puts (.zoneAppend c) .zoneAppend ∧
    (n.zoned = true → puts (.write c) .write ∧ puts (.writeZeroes c) .writeZeroes)) ∧
  (∀ (s : State) (c : IoCmd) (n : Ns) (z : Nat), Served s (.zoneSend .offlineZ) c n → c.selectAll = false →
    n.zoneOf c.slba = some z → zoneStep s z = true → 0 < s.sched.slotUs → ∃ w, 1 ≤ w ∧ w ≤ (s.sched.slotUs + 99) / 100 ∧
      Does (.offlineZone c) s (finishCmd (useFree (upState s (.zoneSend .offlineZ) c))
        { upCmd s (.zoneSend .offlineZ) c with status := 0x0C8, dw0 := w }))

/-- R82, R87, R53, R54 (derived): a conventional Write outside the preserve state on a device without a twin takes the
next sequence number and waits for its data; Write Zeroes and deallocate zero their ranges and complete; in the
preserve state writes complete with 0xC6; a Flush with no part elsewhere completes, and posts its completion with
status 0. -/
def Obligations.ConventionalWritesAndFlush : Prop :=
  ∀ (s : State) (c : IoCmd) (n : Ns),
    (n.zoned = false → s.adm.preserve = false → pairRole s = 0 → Served s .write c n →
      ∃ t, Does (.write c) s t ∧ t.win.convSeq = s.win.convSeq + 1 ∧
        t.win.convOrder = s.win.convOrder ++ [(s.win.convSeq, c.nsid, c.slba, c.nlb)] ∧
        t.host.cmds = s.host.cmds ++ [{ upCmd s .write c with stage := .waitData, convSeq := some s.win.convSeq }] ∧
        t.nss = s.nss ∧ t.zones = s.zones) ∧
    (n.zoned = false → s.adm.preserve = false → pairRole s = 0 → Served s .writeZeroes c n →
      Does (.writeZeroes c) s (finishCmd (convClear (upState s .writeZeroes c) c.nsid c.slba c.nlb)
        (upCmd s .writeZeroes c))) ∧
    (n.zoned = false → s.adm.preserve = true → Served s .write c n →
      Does (.write c) s (finishCmd (upState s .write c) { upCmd s .write c with status := 0x0C6 })) ∧
    (n.zoned = false → s.adm.preserve = true → pairRole s = 0 → Served s .writeZeroes c n →
      Does (.writeZeroes c) s (finishCmd (upState s .writeZeroes c) { upCmd s .writeZeroes c with status := 0x0C6 })) ∧
    (∀ l, n.zoned = false → s.adm.preserve = false → pairRole s = 0 → (∀ r ∈ l, r.1 + r.2 ≤ n.lbas) → Served s .dsm c n →
      Does (.datasetManagement c true l) s (finishCmd (l.foldl (fun s r => convClear s c.nsid r.1 r.2)
        (upState s .dsm c)) (upCmd s .dsm c))) ∧
    (remotePositions s n = [] → Served s .flush c n →
      Does (.flush c) s (finishCmd (upState s .flush c) (upCmd s .flush c))) ∧
    (n.extents = [] → Served s .flush c n → genOk s c.fn (upCmd s .flush c).gen = true → kvWf {} s.host.fns →
      ∃ t, Does (.flush c) s t ∧ Posts s t c 0 0 .none ∧ t.zones = s.zones ∧ t.nss = s.nss)

/-- R53: a Deallocate on a zoned namespace completes with Invalid Field in Command (0x02) and changes nothing else; a
command without it, a hint, completes on either kind of namespace and changes nothing else. -/
def Obligations.DatasetManagementHints : Prop :=
  ∀ (s : State) (c : IoCmd) (n : Ns) (l : List (Nat × Nat)), Served s .dsm c n →
    (n.zoned = true → Does (.datasetManagement c true l) s
      (finishCmd (upState s .dsm c) { upCmd s .dsm c with status := 0x002 })) ∧
    Does (.datasetManagement c false l) s (finishCmd (upState s .dsm c) (upCmd s .dsm c)) ∧
    (genOk s c.fn (upCmd s .dsm c).gen = true → kvWf {} s.host.fns →
      (n.zoned = true → ∃ t, Does (.datasetManagement c true l) s t ∧ Posts s t c 0x002 0 .none ∧ t.zones = s.zones ∧
        t.nss = s.nss) ∧
      ∃ t, Does (.datasetManagement c false l) s t ∧ Posts s t c 0 0 .none ∧ t.zones = s.zones ∧ t.nss = s.nss)

/-- R52, R65, R77 (derived: the reservation and the zone descriptors follow the model's reports): Report Zones of a
namespace whose zones are all here, with a known option and a buffer of 2 MiB at most, answers the matching zones from
the start LBA on, and Reservation Report the registrants; Extended Report Zones and Set Zone Descriptor Extension fail
with 0x02, an opcode outside the table with 0x01. R56: an I/O command that fails one of checks 1 to 6 completes with
that check's status and does nothing else. A command of a live generation that ends so posts exactly one completion,
with its status, Dword 0 and data. -/
def Obligations.ReportsAndFailedChecks : Prop :=
  (∀ (s : State) (c : IoCmd) (n : Ns),
    (∀ option part limit, option ≤ 7 → 64 + 64 * limit ≤ 2097152 → remotePositions s n = [] → Served s .zoneReport c n →
      let all := (n.zones.filter fun z => decide (n.zslba c.slba ≤ n.startOf z) &&
          optionMatches option (zone s z).st.code).map fun z =>
        (n.startOf z, (zone s z).st.code, if (zone s z).rzr then 4 else 0, wpShown (n.startOf z) (zone s z))
      Does (.reportZones c option part limit) s (finishCmd (upState s .zoneReport c) (upCmd s .zoneReport c)
        (.zones ((if part then (all.take limit).length else all.length, n.zcap, 0, 0) :: all.take limit)))) ∧
    (Served s .resvReport c n → Does (.reservationReport c) s (finishCmd (upState s .resvReport c) (upCmd s .resvReport c)
      (.words ([n.resv.gen, n.resv.rtype, (n.resv.holder.map (· + 1)).getD 0, n.resv.keys.length] ++
        n.resv.keys.flatMap fun e => [e.1, e.2])))) ∧
    (Served s .zoneExtReport c n → Does (.extendedReportZones c) s
      (finishCmd (upState s .zoneExtReport c) { upCmd s .zoneExtReport c with status := 0x002 })) ∧
    (Served s .zoneSetExt c n → Does (.setZoneDescriptorExtension c) s
      (finishCmd (upState s .zoneSetExt c) { upCmd s .zoneSetExt c with status := 0x002 })) ∧
    (∀ opcode, accepts s c.fn = true → Does (.unsupportedIoCommand c opcode) s
      (finishCmd (upState s (.other opcode) c) { upCmd s (.other opcode) c with status := 0x001 }))) ∧
  (∀ (s : State) (c : IoCmd) (st : Nat), accepts s c.fn = true →
    (checks s .read c = some st →
      Does (.read c) s (finishCmd (upState s .read c) { upCmd s .read c with status := st })) ∧
    (checks s .write c = some st →
      Does (.write c) s (finishCmd (upState s .write c) { upCmd s .write c with status := st })) ∧
    (checks s .zoneAppend c = some st →
      Does (.zoneAppend c) s (finishCmd (upState s .zoneAppend c) { upCmd s .zoneAppend c with status := st })) ∧
    (checks s (.zoneSend .resetZ) c = some st →
      Does (.resetZone c) s (finishCmd (upState s (.zoneSend .resetZ) c) { upCmd s (.zoneSend .resetZ) c with status := st })) ∧
    (checks s .flush c = some st →
      Does (.flush c) s (finishCmd (upState s .flush c) { upCmd s .flush c with status := st })) ∧
    (ns? s c.nsid = none → c.badField = false → dspecOk (List.range 64) c = true → checks s .read c = some 0x00B)) ∧
  (∀ (s : State) (op : IoOp) (c : IoCmd) (n : Ns) (st dw0 : Nat) (p : Payload), Served s op c n →
    genOk s c.fn (upCmd s op c).gen = true → kvWf {} s.host.fns →
    Posts s (finishCmd (upState s op c) { upCmd s op c with status := st, dw0 := dw0 } p) c st dw0 p)

/-- The model's choice (log entry 14, PRESUMED: reservations follow the NVM Express command set): a host without a key
registers, a registrant acquires a free reservation, and its holder releases it. -/
def Obligations.ReservationsAreTaken : Prop :=
  ∀ (s : State) (c : IoCmd) (n : Ns),
    (∀ key, kvGet 0 c.host n.resv.keys = 0 → Served s .resvRegister c n →
      Does (.reservationRegister c 0 0 key) s (finishCmd (setNs (upState s .resvRegister c) { n with
        resv := { n.resv with keys := kvPut 0 c.host key n.resv.keys, gen := n.resv.gen + 1 } })
        { upCmd s .resvRegister c with status := 0 })) ∧
    (∀ key rtype, key ≠ 0 → kvGet 0 c.host n.resv.keys = key → n.resv.rtype = 0 → 1 ≤ rtype → rtype ≤ 6 →
      Served s .resvAcquire c n →
      Does (.reservationAcquire c 0 key 0 rtype) s (finishCmd (setNs (upState s .resvAcquire c) { n with
        resv := { n.resv with rtype := rtype, holder := some c.host } }) { upCmd s .resvAcquire c with status := 0 })) ∧
    (∀ key, key ≠ 0 → kvGet 0 c.host n.resv.keys = key → n.resv.holder = some c.host →
      Served s .resvRelease c n →
      Does (.reservationRelease c 0 key n.resv.rtype) s (finishCmd (setNs (upState s .resvRelease c) { n with
        resv := { n.resv with rtype := 0, holder := none } }) { upCmd s .resvRelease c with status := 0 }))

/-- R347 (derived): a doorbell of a controller that takes commands adds the entries it rings to its queue, and an
entry fetched in its queue's turn fills the function's free slot of its kind and is taken off the queue. -/
def Obligations.SubmissionFillsSlots : Prop :=
  ∀ (s : State) (fn sq entries : Nat) (op : IoOp) (c : IoCmd), kvWf {} s.host.fns → kvWf 0 (fnc s fn).ready →
    (accepts s fn = true → ∃ t, Does (.submissionQueueDoorbell fn ⟨sq, entries⟩) s t ∧
      (fnc t fn).waiting sq = (fnc s fn).waiting sq + entries ∧ t.host.cmds = s.host.cmds ∧ t.zones = s.zones) ∧
    (fetches s c.fn = true → fetchTurn (fnc s c.fn) c.sq = true → kvWf 0 (fnc s c.fn).ready →
      (writeSlot op = true → (fnc s c.fn).wr = none → ∃ t sl, Does (.submissionEntryFetched op c) s t ∧
        (fnc t c.fn).wr = some sl ∧ sl.op = op ∧ sl.io = c ∧ (fnc t c.fn).sqPtr = c.sq + 1 ∧
        (fnc t c.fn).waiting c.sq = (fnc s c.fn).waiting c.sq - 1 ∧ t.host.fetchOrder = s.host.fetchOrder + 1) ∧
      (writeSlot op = false → (fnc s c.fn).rd = none → ∃ t sl, Does (.submissionEntryFetched op c) s t ∧
        (fnc t c.fn).rd = some sl ∧ sl.op = op ∧ sl.io = c ∧ (fnc t c.fn).sqPtr = c.sq + 1 ∧
        (fnc t c.fn).waiting c.sq = (fnc s c.fn).waiting c.sq - 1 ∧ t.host.fetchOrder = s.host.fetchOrder + 1))

/-- R349: every refill sets each bucket b of each function to min(burst, b + rate ÷ 10^6), kept in 1/1,024 unit, and
leaves zones, dies and DRAM as they were. -/
def Obligations.TokensAreRefilled : Prop :=
  ∀ (s : State), kvWf {} s.host.fns → ∃ t, Does .tokenRefill s t ∧ t.zones = s.zones ∧ t.dies = s.dies ∧
    t.dram = s.dram ∧ ∀ n < 513,
      (fnc t n).rdTok = min (od s 0x6200 0x02 n * 1024 : Int)
        ((fnc s n).rdTok + (od s 0x6200 0x01 n * 1024 / 1000000 : Nat)) ∧
      (fnc t n).wrTok = min (od s 0x6200 0x04 n * 1024 : Int)
        ((fnc s n).wrTok + (od s 0x6200 0x03 n * 1024 / 1000000 : Nat))

/-- R350 (derived): the lens arbiter grants the eligible slot that alone has the smallest tag: the granted command is
held for its start and the virtual time becomes its tag (grantSlot). -/
def Obligations.SmallestTagIsGranted : Prop :=
  ∀ (s : State) (n : Nat) (sl : Slot) (wr : Bool),
    (∀ e ∈ (retag s).host.fns, ∀ o, offered e.2 = some o → sl.tag.getD 0 ≤ o.1.tag.getD 0) →
    ((retag s).host.fns.find? fun e => e.1 == n).map (fun e => offered e.2) = some (some (sl, wr)) →
    (∀ e ∈ (retag s).host.fns, ∀ o, e.1 ≠ n → offered e.2 = some o → sl.tag.getD 0 < o.1.tag.getD 0) →
    Does .lensSubmissionGrant s (retag (rebaseTags (grantSlot (retag s) n sl wr)))

/-- R45 (derived): the sequencer's slot. A due device record goes first, and an epoch record takes the next ASN;
otherwise the pick of seqPick (earliest crossing, then rotation) goes through check 7 and its record. R139: a held
command becomes a pick again once its ring row is erased, and only a command of that ring's group. -/
def Obligations.SequencerTakesOnePick : Prop :=
  (∀ (s : State), inService s = true → pairRole s ≠ 2 → s.pair.fenced = false → s.adm.spent = false →
    s.adm.nextAsn < 2 ^ 64 - 1 → s.adm.afterClose = none →
    (∀ d rest, s.adm.due = d :: rest →
      Does .asnSequencerPick s (withUndo (fun s => takeDue { s with adm.due := rest } d) s)) ∧
    (∀ digest epoch rest, s.adm.due = .epochRec digest epoch :: rest → ∃ t, Does .asnSequencerPick s t ∧
      t.adm.nextAsn = s.adm.nextAsn + 1 ∧ t.zones = s.zones ∧ t.host = s.host) ∧
    (∀ z k ptr, s.adm.due = [] → holdFull s = false → seqPick (holdPicks (settleSelectAll s)) = some (z, k, ptr) →
      Does .asnSequencerPick s (withUndo (fun s =>
        admitPick { holdPicks (settleSelectAll s) with adm.seqPtr := ptr } z k) s)) ∧
    (s.adm.due = [] → holdFull s = true → ∃ t, Does .asnSequencerPick s t ∧ t.adm.nextAsn = s.adm.nextAsn ∧
      t.host = s.host ∧ t.zones = s.zones)) ∧
  (∀ (s : State) (r row : Nat),
    (rowUnerased s r row = true → Does (.admissionHoldRelease r row) s s) ∧
    (rowUnerased s r row = false → ∃ t, Does (.admissionHoldRelease r row) s t ∧
      t = { s with host.cmds := t.host.cmds } ∧ t.host.cmds.length = s.host.cmds.length ∧
      (∀ k ∈ t.host.cmds, k.held = true → groupOf (actsOn s k) ≠ r / 8) ∧
      ∀ k ∈ s.host.cmds, k.held = false ∨ groupOf (actsOn s k) ≠ r / 8 → k ∈ t.host.cmds))

/-- R45: among several picks that are not held for an erase the sequencer never takes one that crossed into the fabric
later than another, and its rotation moves only where several crossed in the same cycle. -/
def Obligations.SequencerTakesEarliestCrossing : Prop :=
  ∀ (s : State) (z : Nat) (k : Cmd) (ptr : Nat), seqPick s = some (z, k, ptr) →
    (z, k) ∈ zonePicks s ∧ k.held = false ∧ (∀ e ∈ zonePicks s, e.2.held = false → k.io.cross ≤ e.2.io.cross) ∧
    ((∀ e ∈ zonePicks s, e = (z, k) ∨ e.2.held = true ∨ k.io.cross < e.2.io.cross) → (zonePicks s).Nodup →
      ptr = s.adm.seqPtr)

/-- R23, R24 (derived): an admitted zoned write without protection information fetches its data while the window has
room: on a lone device, with no read waiting for it, its blocks are stored as the key stores them (Ns.toStored) and
the command waits with its data here; without room nothing changes. Its completion is posted once its data is held
here and no twin is joined: the record is sealed with its status and the host gets exactly one completion. -/
def Obligations.WriteDataAndCompletion : Prop :=
  ∀ (s : State) (id : Nat) (k : Cmd) (n : Ns), cmd? s id = some k → ns? s k.io.nsid = some n →
    (∀ data metadata staging fifo, k.stage = .waitData → k.dataHere = false → k.origin = 0 → (k.op = .write ∨ k.op = .zoneAppend) →
      s.ciph.erased = false → n.zoned = true → n.pit = 0 →
      let stored := n.toStored (n.extendAll k.io.nlb data metadata)
      (windowRoom s k.io.fn (unitsOf n.bpu (cmdLba k) k.io.nlb).length = true →
        Does (.writeDataFetch id data metadata staging fifo) s
          (sramPath (dataArrived s n k stored stored none) ⟨staging, fifo⟩)) ∧
      (windowRoom s k.io.fn (unitsOf n.bpu (cmdLba k) k.io.nlb).length = true → pairRole s = 0 → overtaken s k = false →
        (∀ r ∈ s.host.cmds, id ∉ r.waits) → 0 < k.io.nlb → kvWf {} s.zones → kvWf 0 (zone s k.zone).blocks →
        ∃ t, Does (.writeDataFetch id data metadata .clean .clean) s t ∧
          (∀ i < k.io.nlb, kvGet 0 (n.offset (cmdLba k) + i) (zone t k.zone).blocks = 
            n.flip (n.cut (n.extend (data.getD i 0) (metadata.getD i 0)))) ∧
          ∃ k' ∈ t.host.cmds, k'.id = id ∧ k'.stage = .dataIn ∧ k'.dataHere = true) ∧
      (windowRoom s k.io.fn (unitsOf n.bpu (cmdLba k) k.io.nlb).length = false →
        Does (.writeDataFetch id data metadata staging fifo) s s)) ∧
    (k.stage = .dataIn → k.dataHere = true → joined s = false → k.ranges = [] → k.op = .write →
      ∀ asn, k.asns.getLast? = some asn →
      Does (.postWriteCompletion id) s (finishCmd (sealRecord s asn k.status (dataCheck n.lbaf k.data)) k)) ∧
    (k.stage = .dataIn → k.dataHere = true → joined s = false → k.ranges = [] → k.origin = 0 → n.ending = none →
      s.host.sanitizeStatus ≠ 2 → s.power.hold = .running → genOk s k.io.fn k.gen = true → kvWf {} s.host.fns →
      ∃ t, Does (.postWriteCompletion id) s t ∧ t.host.cq = s.host.cq ++
        [{ fn := k.io.fn, sq := k.io.sq, cid := k.io.cid, status := k.status, dw0 := k.dw0, dw1 := k.dw1 }]) ∧
    (k.dataHere = false → Does (.postWriteCompletion id) s s)

/-- R608: sealed records become durable up to the sealed head and no other record does; a remap record becomes durable
only when every ASN record up to its ASN is. -/
def Obligations.RecordsBecomeDurable : Prop :=
  ∀ (s : State),
    (∃ t, Does .ledgerRowProgram s t ∧ t.adm.recs.length = s.adm.recs.length ∧
      (∀ l ∈ t.adm.recs, l.r.asn ≤ sealedHead s → l.durable = true) ∧
      (∀ l ∈ s.adm.recs, sealedHead s < l.r.asn → l ∈ t.adm.recs) ∧ t.zones = s.zones ∧ t.host = s.host) ∧
    (∃ t, Does .remapRecordProgram s t ∧ t.adm.recs = s.adm.recs ∧ t.adm.remaps.length = s.adm.remaps.length ∧
      (∀ r ∈ t.adm.remaps, r.durable = true → r ∈ s.adm.remaps ∨ durableTo s r.asn = true) ∧
      (∀ r ∈ s.adm.remaps, durableTo s r.asn = true → { r with durable := true } ∈ t.adm.remaps) ∧
      t.zones = s.zones ∧ t.host = s.host)

/-- R272 (derived): a journal page is programmed from the tail's head records; a checkpoint begins once 1 GiB has been
written, its end record is appended, and once that record is durable the records and pages older than its begin record
are freed. R28 (derived): the unmap of a reset zone is journalled with the zone's last admission, and the zone is no
longer due. -/
def Obligations.JournalAndCheckpoints : Prop :=
  (∀ (s : State),
    (pageTake 4060 s.jrn.tail ≠ [] → ∃ t, Does .journalPageProgram s t ∧
      t.jrn.tail = s.jrn.tail.drop (pageTake 4060 s.jrn.tail).length ∧ t.jrn.tail2 = t.jrn.tail ∧
      t.jrn.durable = s.jrn.durable ++ pageTake 4060 s.jrn.tail ∧ t.jrn.pageSeq = s.jrn.pageSeq + 1 ∧
      t.jrn.sinceBegin = s.jrn.sinceBegin + 4096 ∧ t.jrn.pages.length = s.jrn.pages.length + 1 ∧
      t.power.clean = ((pageTake 4060 s.jrn.tail).getLast?.any fun r => r.typ == 14)) ∧
    (pageTake 4060 s.jrn.tail ++ s.jrn.tail.drop (pageTake 4060 s.jrn.tail).length = s.jrn.tail) ∧
    (s.jrn.sinceBegin < 2 ^ 30 → Does .checkpointBegin s s) ∧
    (2 ^ 30 ≤ s.jrn.sinceBegin → s.jrn.running = none → ∃ t, Does .checkpointBegin s t ∧
      t.jrn.ckpt = s.jrn.ckpt + 1 ∧ t.jrn.running = some s.jrn.nextLsn ∧ t.jrn.sinceBegin = 0) ∧
    (∀ b, s.jrn.running = some b →
      (s.jrn.durable ++ s.jrn.tail).any (fun r => r.typ == 10 && r.body.head? == some s.jrn.ckpt) = false →
      ∃ t r, Does .checkpointEnd s t ∧ t.jrn.tail = s.jrn.tail ++ [r] ∧ r.typ = 10 ∧ r.body.head? = some s.jrn.ckpt) ∧
    (∀ b r, s.jrn.running = some b → r ∈ s.jrn.durable → r.typ = 10 → r.body.head? = some s.jrn.ckpt →
      Does .checkpointEnd s { s with jrn.durable := s.jrn.durable.filter fun r => decide (b ≤ r.lsn)
                                     jrn.beginLsn := b, jrn.running := none
                                     jrn.pages := s.jrn.pages.filter fun p => decide (b < p.2.1 + p.2.2.1) })) ∧
  (∀ (s : State) (id z : Nat), (zone s z).unmapDue = true → cmd? s id = none →
    Does (.resetStepUnmap id z) s (setZone (journal s 1 [z, (zone s z).unmapAsn]) z
      { zone (journal s 1 [z, (zone s z).unmapAsn]) z with unmapDue := false }))

/-- R180, R189 (derived): a read of class 2 or more whose die is open goes direct: with no other request waiting and
the die free, the die reads it at once. A direct read whose data decodes brings its unit in: with no other request
waiting, other units of its command still to come and a margin below the rewrite thresholds (R219), the die is idle
again and the unit is no longer sought. R218 (derived): a hard step of the ladder that decodes ends the climb, one
that does not stays at its step; past the hard steps a soft step waits for a decoder, which takes the codeword in turn
and counts it. -/
def Obligations.DieReads : Prop :=
  (∀ (s : State) (rid unit : Nat) (r : RdUnit) (remain : List (Nat × Nat)), rdUnit? s rid unit = some r →
    (r.mode = .queued → s.power.hold = .running → Does (.dieReadIssue rid unit remain) s (placeRead s r remain)) ∧
    (r.mode = .queued → s.power.hold = .running → directOk s r = true → 2 ≤ servedClass s r → targetShut s r = false →
      Does (.dieReadIssue rid unit remain) s
        (goDirect (countWait s r (startWait s remain (facetDie r.group r.facet) (unitReq s r false))) r)) ∧
    (let d := facetDie r.group r.facet
     let q := unitReq s r false
     r.mode = .queued → s.power.hold = .running → directOk s r = true → 2 ≤ servedClass s r → targetShut s r = false →
      NoQueue s → kvWf {} s.dies → kvWf {} s.ctxs → (die s d).st = .idle → canStart s s.sched.slotUs d q = true →
      ∃ t, Does (.dieReadIssue rid unit remain) s t ∧ (die t d).st = .reading ∧ (die t d).reading = [q] ∧
        (die t d).queue = [] ∧ (ctx t d).entry = some 0)) ∧
  (∀ (s : State) (rid unit d : Nat) (r : RdUnit) (q : DReq) (c : Nat) (k : Cmd) (remain : List (Nat × Nat)),
    (die s d).reading = [q] → q.rid = rid → q.unit = unit → q.member = false → (die s d).st = .reading →
    (die s d).repeated = false → rdUnit? s rid unit = some r → r.mode = .direct → r.peri = false → r.rid = rid →
    r.unit = unit → NoQueue s → kvWf {} s.dies → kvWf 0 (die s d).readCount → cmd? s rid = some k → (∃ u ∈ k.need, u ≠ unit) →
    c < od s 0x4010 0x02 → kvGet 0 (rowBlock s d r.row) (die s d).readCount + 1 < od s 0x4010 0x03 →
    ∃ t, Does (.dieReadDone rid unit d ⟨.good c, .clean, .clean⟩ remain) s t ∧ (die t d).st = .idle ∧
      (die t d).reading = [] ∧ rdUnit? t rid unit = none ∧
      (kvGet 0 (rowBlock s d r.row) (die t d).readCount = kvGet 0 (rowBlock s d r.row) (die s d).readCount + 1)) ∧
  (∀ (s : State) (rid unit d : Nat) (dec : Dec) (path : SramPath) (remain : List (Nat × Nat)), (die s d).reading = [] →
    Does (.dieReadDone rid unit d ⟨dec, path⟩ remain) s s) ∧
  (∀ (s : State) (rid unit c : Nat) (r : RdUnit) (path : SramPath) (remain : List (Nat × Nat)),
    rdUnit? s rid unit = some r →
    (r.mode = .direct → onDie s r = false → r.left = [] → ladderTurn s r = true → path.staging = .clean →
      path.fifo = .clean → isContract s (dieGroup (ladderDie r)) = false →
      (r.step ≤ od s 0x4010 0x01 →
        Does (.readRetryStep rid unit ⟨⟨.good c, path⟩, remain⟩) s (ladderGood s { r with step := r.step + 1 } (r.step + 1))) ∧
      (1 ≤ r.step → r.step ≤ od s 0x4010 0x01 →
        Does (.readRetryStep rid unit ⟨⟨.bad, path⟩, remain⟩) s (setRdUnit s { r with step := r.step + 1 })) ∧
      (od s 0x4010 0x01 < r.step → r.step ≤ 3 + od s 0x4010 0x01 →
        Does (.readRetryStep rid unit ⟨⟨.bad, path⟩, remain⟩) s
          (setRdUnit s { r with step := r.step + 1, left := [16 + (r.step + 1)] }))) ∧
    (16 ≤ r.left.headD 0 → s.bist.decodersOut.length < 16 → path.staging = .clean → path.fifo = .clean →
      rotPick s.sched.softPtr (softWaiting s) = some (dieChan (ladderDie r)) →
      Does (.softDecode rid unit ⟨.bad, path⟩) s (setRdUnit
        (odBump { s with sched.softPtr := (dieChan (ladderDie r) + 1) % 64 } 0x4000 0x03) { r with left := [] })))

/-- R175, R177, R189, R190 (derived): a ready program enters its die's queue and is served by class; where it may
start and nothing else waits, it starts at once and the die closes under it. When it reports ready with status 0 and
nothing else waits, the die is idle again; a staging page's units are staged. R190, R274 (derived): an erase starts
only on a block that a durable start cell names, with a grant; when it reports ready its block is ready for the done
cell, with a wear cycle more. A running erase is suspended at a boundary by its own entry, is suspended when that
entry ends so, and is resumed. -/
def Obligations.DieProgramsAndErases : Prop :=
  (∀ (s : State) (d elapsed : Nat) (job : ProgJob), jobHandle s job = s → dieOut s d = false →
    deadBlock s d (jobRow s d job) = false →
    (jobReady s d job = true → Does (.dieProgramIssue d ⟨job, elapsed⟩) s (serve (enqueueWork s d (.program job)) elapsed)) ∧
    (jobReady s d job = false → Does (.dieProgramIssue d ⟨job, elapsed⟩) s s) ∧
    (jobReady s d job = true → NoQueue s → kvWf {} s.dies → kvWf {} s.ctxs → (die s d).st = .idle → (chan s (dieChan d)).state = 0 →
      canProgram (enqueueWork s d (.program job)) elapsed d job = true →
      ∃ t, Does (.dieProgramIssue d ⟨job, elapsed⟩) s t ∧ (die t d).st = .programming ∧ (die t d).job = some job ∧
        (die t d).queue = [] ∧ (ctx t d).entry = some 1)) ∧
  (∀ (s : State) (d : Nat) (job : ProgJob) (v : Bool), (die s d).st = .programming → (die s d).job = some job →
    Does (.dieProgramReady d 0 v) s (pump (jobDone (repeatDone (endEntry (setDie s d
      { die s d with st := .idle, job := none }) d 0) d) d job) d)) ∧
  (∀ (s : State) (d : Nat) (v : Bool), (die s d).st = .programming → (die s d).job = some .system →
    (die s d).repeated = false → NoQueue s → kvWf {} s.dies → ∃ t, Does (.dieProgramReady d 0 v) s t ∧
      (die t d).st = .idle ∧ (die t d).job = none ∧ t.zones = s.zones) ∧
  (∀ (s : State) (d block : Nat),
    ((die s d).started.contains block = false → Does (.dieEraseIssue d block) s s) ∧
    (dieOut s d = false → block ∈ (die s d).started → block ∉ (die s d).ended → NoQueue s → kvWf {} s.dies →
      kvWf {} s.ctxs → (die s d).st = .idle → (chan s (dieChan d)).state = 0 → canErase (enqueueWork s d (.erase block)) d block = true →
      ∃ t, Does (.dieEraseIssue d block) s t ∧ (die t d).st = .erasing ∧ (die t d).erase = some block ∧
        (die t d).suspends = 0 ∧ t.sched.eraseUsed = s.sched.eraseUsed + 1 ∧ (ctx t d).entry = some 2) ∧
    (∀ b, (die s d).st = .erasing → (die s d).erase = some b → (die s d).repeated = false → (die s d).eraseRepeated = false →
      NoQueue s → kvWf {} s.dies → kvWf 0 (die s d).cycles → ∃ t, Does (.dieEraseReady d 0) s t ∧ (die t d).st = .idle ∧
        (die t d).erase = none ∧ b ∈ (die t d).ended ∧ kvGet 0 b (die t d).cycles = kvGet 0 b (die s d).cycles + 1) ∧
    ((die s d).st = .erasing → (die s d).suspends < (hdrOf s d).suspends →
      Does (.eraseSuspend d true) s (startEntry (setDie s d { die s d with st := .suspending, atBoundary := true })
        d 3 0 0 0 0 0 false 0 0 false)) ∧
    ((die s d).st = .suspending → NoQueue s → kvWf {} s.dies →
      Does (.eraseSuspendDone d 4) s (setDie (endEntry s d 4) d
        { die s d with st := .suspended, suspends := (die s d).suspends + 1 })) ∧
    (mayResume s d false = true → Does (.eraseResume d) s (startEntry (setDie s d
      { die s d with st := .resuming, resumed := true, atBoundary := false }) d 4 0 0 0 0 0 false 0 0 false)))

/-- R207 (derived): nop, cmd, dout, din, doutb, dinb and dly each add their bus cycle to the channel and change
nothing else but the context's count and index, dinb its register; addr drives the bytes of its register lowest first.
R203, R207 (derived): sel and dsel drive CE# and record it, wrdy gives up the bus and waits until the die is ready,
stat latches the status byte, and gets copies it to a register. -/
def Obligations.BusAndStatusInstructions : Prop :=
  (∀ (s : State) (d : Nat) (w : Word32) (b : Byte),
    (ScriptReady s d 0x00 w → Does (.nop d w) s (scriptNext s d)) ∧
    (ScriptReady s d 0x01 w → Does (.cmd d w) s (driveBus (scriptNext s d) d [.cmd (wByte w)])) ∧
    (ScriptReady s d 0x02 w → (w.extractLsb' 0 2).toNat + (w.extractLsb' 8 3).toNat ≤ 4 →
      Does (.addr d w) s (driveBus (scriptNext s d) d ((List.range (w.extractLsb' 8 3).toNat).map fun i =>
        .addr (((ctx s d).v[wD w]).extractLsb' (8 * ((w.extractLsb' 0 2).toNat + i)) 8)))) ∧
    (ScriptReady s d 0x03 w → Does (.dout d w) s (driveBus (scriptNext s d) d [.streamOut ((ctx s d).v[wD w]).toNat])) ∧
    (ScriptReady s d 0x04 w → Does (.din d w) s (driveBus (scriptNext s d) d [.streamIn ((ctx s d).v[wD w]).toNat])) ∧
    (ScriptReady s d 0x05 w → w.getLsbD 8 = false →
      Does (.doutb d w) s (driveBus (scriptNext s d) d [.dataOut (wByte w)])) ∧
    (ScriptReady s d 0x05 w → w.getLsbD 8 = true →
      Does (.doutb d w) s (driveBus (scriptNext s d) d [.dataOut (((ctx s d).v[wD w]).extractLsb' 0 8)])) ∧
    (ScriptReady s d 0x06 w → Does (.dinb d w b) s (driveBus (setCtx (scriptNext s d) d
      { ticked s d with v := (ctx s d).v.set (wD w) (b.setWidth 32) }) d [.dataIn b])) ∧
    (ScriptReady s d 0x0B w → Does (.dly d w) s (driveBus (scriptNext s d) d [.wait (w.extractLsb' 0 20).toNat]))) ∧
  (∀ (s : State) (d : Nat) (w : Word32) (b : Byte),
    (ScriptReady s d 0x07 w → Does (.sel d w) s
      (let t := driveBus (scriptNext s d) d [.ceLow (((ctx s d).v[wD w]).extractLsb' 0 3).toNat]
       setChan t (dieChan d) { chan t (dieChan d) with ce := some (((ctx s d).v[wD w]).extractLsb' 0 3).toNat })) ∧
    (ScriptReady s d 0x08 w → Does (.dsel d w) s
      (let t := driveBus (scriptNext s d) d [.ceHigh]
       setChan t (dieChan d) { chan t (dieChan d) with ce := none })) ∧
    (ScriptReady s d 0x09 w → Does (.wrdy d w) s
      (let t := setCtx (scriptNext s d) d { ticked s d with waiting := true }
       setChan t (dieChan d) { chan t (dieChan d) with holder := none })) ∧
    ((ctx s d).waiting = true → Does (.dieReady d) s (setCtx s d { ctx s d with waiting := false })) ∧
    (ScriptReady s d 0x0A w → w.getLsbD 8 = false → Does (.stat d w b) s (driveBus
      (setCtx (scriptNext s d) d { ticked s d with s := b }) d [.status (wByte w) none])) ∧
    (ScriptReady s d 0x0A w → w.getLsbD 8 = true → Does (.stat d w b) s (driveBus
      (setCtx (scriptNext s d) d { ticked s d with s := b }) d [.status (wByte w)
        (some (((ctx s d).v[(1 : Fin 16)]).extractLsb' 0 8, ((ctx s d).v[(1 : Fin 16)]).extractLsb' 8 8,
          ((ctx s d).v[(1 : Fin 16)]).extractLsb' 16 8))])) ∧
    (ScriptReady s d 0x18 w → Does (.gets d w) s (setCtx (scriptNext s d) d
      { ticked s d with v := (ctx s d).v.set (wD w) ((ctx s d).s.setWidth 32) })))

/-- R207 (derived): the seven ALU functions on two registers. R207 (derived): the seven ALU functions on a register
and the zero-extended 12-bit immediate. R207 (derived): movi and movh load immediates, phy writes a PHY register in
entries 12 and 13, cnt counts, and end ends the operation with its status below 0x80 and releases CE#. R189, R211,
R243 (derived): with status 0 the end of a resume leaves the die erasing; after the end of a timeout's RESET_DIE the
stopped operation starts again; in phase 1 ZQ_CAL follows RESET_DIE, training follows it on a training channel, and
the parameter page is read last. -/
def Obligations.ScriptArithmetic : Prop :=
  (∀ (s : State) (d : Nat) (w : Word32), ScriptReady s d 0x12 w →
    let a := (ctx s d).v[wA w]
    let b := (ctx s d).v[wB w]
    (wFn w = 0 → Does (.aluAdd d w) s (aluWrites s d w (a + b))) ∧
    (wFn w = 1 → Does (.aluSubtract d w) s (aluWrites s d w (a - b))) ∧
    (wFn w = 2 → Does (.aluAnd d w) s (aluWrites s d w (a &&& b))) ∧
    (wFn w = 3 → Does (.aluOr d w) s (aluWrites s d w (a ||| b))) ∧
    (wFn w = 4 → Does (.aluXor d w) s (aluWrites s d w (a ^^^ b))) ∧
    (wFn w = 5 → Does (.aluShiftLeft d w) s (aluWrites s d w (a <<< (b.toNat % 32)))) ∧
    (wFn w = 6 → Does (.aluShiftRight d w) s (aluWrites s d w (a >>> (b.toNat % 32))))) ∧
  (∀ (s : State) (d : Nat) (w : Word32), ScriptReady s d 0x13 w →
    let a := (ctx s d).v[wA w]
    let i := (w.extractLsb' 0 12).setWidth 32
    (wFn w = 0 → Does (.aluiAdd d w) s (aluWrites s d w (a + i))) ∧
    (wFn w = 1 → Does (.aluiSubtract d w) s (aluWrites s d w (a - i))) ∧
    (wFn w = 2 → Does (.aluiAnd d w) s (aluWrites s d w (a &&& i))) ∧
    (wFn w = 3 → Does (.aluiOr d w) s (aluWrites s d w (a ||| i))) ∧
    (wFn w = 4 → Does (.aluiXor d w) s (aluWrites s d w (a ^^^ i))) ∧
    (wFn w = 5 → Does (.aluiShiftLeft d w) s (aluWrites s d w (a <<< (i.toNat % 32)))) ∧
    (wFn w = 6 → Does (.aluiShiftRight d w) s (aluWrites s d w (a >>> (i.toNat % 32))))) ∧
  (∀ (s : State) (d : Nat) (w : Word32),
    (ScriptReady s d 0x10 w → Does (.movi d w) s (setCtx (scriptNext s d) d
      { ticked s d with v := (ctx s d).v.set (wD w) ((w.extractLsb' 0 16).setWidth 32) })) ∧
    (ScriptReady s d 0x11 w → Does (.movh d w) s (setCtx (scriptNext s d) d { ticked s d with
      v := (ctx s d).v.set (wD w) ((w.extractLsb' 0 16) ++ (((ctx s d).v[wD w]).extractLsb' 0 16)) })) ∧
    (ScriptReady s d 0x0C w → (ctx s d).entry = some 12 ∨ (ctx s d).entry = some 13 → Does (.phy d w) s
      (let t := scriptNext s d
       setChan t (dieChan d) { chan t (dieChan d) with
         phyRegs := kvPut 0 (wByte w).toNat ((ctx s d).v[wD w]).toNat (chan t (dieChan d)).phyRegs })) ∧
    (ScriptReady s d 0x0C w → (ctx s d).entry ≠ some 12 → (ctx s d).entry ≠ some 13 →
      Does (.phy d w) s (scriptFault (scriptNext s d) d)) ∧
    (ScriptReady s d 0x19 w →
      Does (.cnt d w) s (odBump (scriptNext s d) 0x3220 0x01 (dieChan d * 16 + (w.extractLsb' 0 4).toNat))) ∧
    (ScriptReady s d 0x1F w → (wByte w).toNat < 0x80 →
      let t := endEntry (driveBus (scriptNext s d) d [.ceHigh]) d (wByte w).toNat
      ((∀ e ∈ [4, 8, 12, 13], (ctx s d).entry ≠ some e) → Does (.endOp d w) s t) ∧
      ((ctx s d).entry = some 4 → (wByte w).toNat = 0 → (die s d).st = .resuming →
        Does (.endOp d w) s (setDie t d { die t d with st := .erasing })) ∧
      (∀ e v, (ctx s d).entry = some 8 → (ctx s d).redo = some (e, v) → Does (.endOp d w) s (setCtx t d
        { v := v, params := v, pc := (chan t (dieChan d)).entry.getD e 0xFFFF, entry := some e
          class1 := (ctx s d).class1 })) ∧
      ((ctx s d).entry = some 8 → (ctx s d).redo = none → (wByte w).toNat = 0 → (die s d).phase = 1 →
        Does (.endOp d w) s (startReinit t d 12)) ∧
      ((ctx s d).entry = some 12 → (wByte w).toNat = 0 → (die s d).phase = 1 →
        Does (.endOp d w) s (startReinit t d (if (chan t (dieChan d)).state = 2 then 13 else 9))) ∧
      ((ctx s d).entry = some 13 → (wByte w).toNat = 0 → (die s d).phase = 1 →
        Does (.endOp d w) s (startReinit t d 9))))

/-- R203, R207, R208 (derived): br, bst, call and ret. A taken branch goes to its target below the code length; call
keeps the return index, of which there are four at most, and ret takes it back. The model's choice (log entry 112): a
branch not taken goes on whatever its target. R208 (derived): a word of an undefined opcode or function, one with a
reserved bit set, a taken branch's or call's target at or beyond the code length, an instruction at or beyond it and
one past the 65,536th are script faults. R208, R211 (derived): no wrdy that does not wait times out, an operation past
its limit is a hard timeout, and one past 65,536 instructions is a script fault. -/
def Obligations.ScriptBranchesAndFaults : Prop :=
  (∀ (s : State) (d : Nat) (w : Word32),
    (wTarget w < codeLen s (dieChan d) →
      (ScriptReady s d 0x14 w → brTaken (ticked s d) (wFn w) = some true →
        Does (.br d w) s (setCtx (scriptNext s d) d { ticked s d with pc := wTarget w })) ∧
      (ScriptReady s d 0x15 w → bstTaken (ctx s d) (w.extractLsb' 12 8) (w.getLsbD 20) = true →
        Does (.bst d w) s (setCtx (scriptNext s d) d { ticked s d with pc := wTarget w })) ∧
      (ScriptReady s d 0x16 w → (ctx s d).stack.length < 4 → Does (.call d w) s (setCtx (scriptNext s d) d
        { ticked s d with stack := ((ctx s d).pc + 1) :: (ctx s d).stack, pc := wTarget w }))) ∧
    (ScriptReady s d 0x14 w → brTaken (ticked s d) (wFn w) = some false → Does (.br d w) s (scriptNext s d)) ∧
    (ScriptReady s d 0x15 w → bstTaken (ctx s d) (w.extractLsb' 12 8) (w.getLsbD 20) = false →
      Does (.bst d w) s (scriptNext s d)) ∧
    (ScriptReady s d 0x16 w → 4 ≤ (ctx s d).stack.length → Does (.call d w) s (scriptFault (scriptNext s d) d)) ∧
    (∀ i rest, ScriptReady s d 0x17 w → (ctx s d).stack = i :: rest → Does (.ret d w) s (setCtx (scriptNext s d) d
      { ticked s d with pc := i, stack := rest })) ∧
    (ScriptReady s d 0x17 w → (ctx s d).stack = [] → Does (.ret d w) s (scriptFault (scriptNext s d) d))) ∧
  (∀ (s : State) (d : Nat) (w : Word32), codeLen s (dieChan d) ≤ wTarget w →
    (ScriptReady s d 0x14 w → brTaken (ticked s d) (wFn w) = some true →
      Does (.br d w) s (scriptFault (scriptNext s d) d)) ∧
    (ScriptReady s d 0x15 w → bstTaken (ctx s d) (w.extractLsb' 12 8) (w.getLsbD 20) = true →
      Does (.bst d w) s (scriptFault (scriptNext s d) d)) ∧
    (ScriptReady s d 0x16 w → Does (.call d w) s (scriptFault (scriptNext s d) d))) ∧
  (∀ (s : State) (d : Nat) (w : Word32), (ctx s d).entry.isSome = true → (ctx s d).waiting = false →
    (chan s (dieChan d)).holder = some d →
    (chan s (dieChan d)).code.getD (ctx s d).pc w = w →
    let bad := wOp w ∉ scriptOps ∨ wReserved w ≠ 0 ∨ 65536 ≤ (ctx s d).count ∨ pastEnd s d = true
    (wOp w = 0x00 ∨ wOp w ∉ scriptOps → bad → Does (.nop d w) s (scriptFault s d)) ∧
    (wOp w = 0x12 ∨ wOp w ∉ scriptOps → wFn w = 0 ∨ 7 ≤ wFn w → bad → Does (.aluAdd d w) s (scriptFault s d)) ∧
    (ScriptReady s d 0x12 w → 7 ≤ wFn w → Does (.aluAdd d w) s (scriptFault (scriptNext s d) d)) ∧
    (wOp w = 0x14 ∨ wOp w ∉ scriptOps → bad → Does (.br d w) s (scriptFault s d)) ∧
    (ScriptReady s d 0x14 w → 5 ≤ wFn w → Does (.br d w) s (scriptFault (scriptNext s d) d)) ∧
    (ScriptReady s d 0x1F w → 0x80 ≤ (wByte w).toNat → Does (.endOp d w) s (scriptFault (scriptNext s d) d))) ∧
  (∀ (s : State) (d : Nat),
    ((ctx s d).waiting = false → Does (.wrdyTimeout d) s s) ∧
    (dieBusy s d = true → Does (.operationTimeout d) s (hardTimeout s d)) ∧
    (dieBusy s d = false → Does (.operationTimeout d) s s) ∧
    ((ctx s d).entry.isSome = true → Does (.scriptInstructionLimit d) s (scriptFault s d)))

/-- R210: a wrdy that reaches its count goes to entry 15 with v15 the wrdy's index where the script has that entry;
where it has none, the operation ends with 0x81: the die's context has ended with that status, the timeout is counted,
and RESET_DIE runs with the stopped entry to be repeated after it, or the die leaves service at the second one. -/
def Obligations.WrdyTimeouts : Prop :=
  ∀ (s : State) (d : Nat), kvWf {} s.ctxs → (ctx s d).waiting = true →
    ((chan s (dieChan d)).entry.getD 15 0xFFFF ≠ 0xFFFF →
      Does (.wrdyTimeout d) s (setCtx s d { ctx s d with waiting := false
                                                         pc := (chan s (dieChan d)).entry.getD 15 0xFFFF
                                                         v := (ctx s d).v.set 15 (BitVec.ofNat 32 ((ctx s d).pc - 1)) })) ∧
    ((chan s (dieChan d)).entry.getD 15 0xFFFF = 0xFFFF →
      let t := odBump (endEntry s d 0x81) 0x3120 0x04 d
      (ctx t d).status = some 0x81 ∧ (ctx t d).entry = none ∧ (ctx t d).waiting = false ∧
        ((die s d).repeated = true → Does (.wrdyTimeout d) s (dieOutLasting (odBump t 0x4000 0x08) d true)) ∧
        ((die s d).repeated = false →
          let u := timeoutReset (setDie t d { die s d with repeated := true }) d (ctx s d)
          Does (.wrdyTimeout d) s u ∧ (ctx u d).entry = some 8 ∧
            (ctx u d).redo = (ctx s d).entry.map fun e => (e, (ctx s d).params)))

/-- The model's choice (log entry 25: the spec names no value for a byte beyond a register's fourth): addr drives a
free value for such a byte, and takes one. The model's choice (log entry 5: the spec states no result of a shift
outside −16 to +15): such a shift leaves a free value, and takes one. -/
def Obligations.OpenResultsAreFree : Prop :=
  (∀ (s : State) (d : Nat) (w : Word32), ScriptReady s d 0x02 w →
    4 < (w.extractLsb' 0 2).toNat + (w.extractLsb' 8 3).toNat →
    Does (.addr d w) s (useFree (driveBus (scriptNext s d) d ((List.range (w.extractLsb' 8 3).toNat).map fun i =>
      let b := (w.extractLsb' 0 2).toNat + i
      .addr (if b < 4 then ((ctx s d).v[wD w]).extractLsb' (8 * b) 8 else BitVec.ofNat 8 (freeVal s)))))) ∧
  (∀ (s : State) (k : Nat) (w : Word32), k ≤ 1 → LoopReady s k 0x07 w → lwXs w < -16 ∨ 15 < lwXs w →
    Does (.sha k w) s (useFree (setEng (loopNext s k) k ((loopTicked s k).setAcc (lwA w) (toSigned 40 (freeVal s))))))

/-- R169 (derived): slots and frames are one counter. A slot boundary in slots 0 to 14 advances the slot number and
serves the dies; with no request waiting it touches only the dies, their scripts and the slot number. The boundary
after slot 15 is the frame boundary: it begins slot 0 with the slot length, mask and loop mode of the dictionary and
no program or erase of its budget spent; there is no frame boundary before slot 15. R213 (derived): a channel with a
loaded script and a running operation waits; once it is quiet, the script's header, code and entries are swapped in,
the rate the training found is kept where mode or rate change, and the next channel's load goes on. -/
def Obligations.SlotsFramesAndScriptSwaps : Prop :=
  (∀ (s : State),
    (s.sched.slot < 15 → Does .slotBoundary s (slotTurn { s with sched.slot := s.sched.slot + 1 }) ∧ Does .frameBoundary s s) ∧
    (15 ≤ s.sched.slot → Does .slotBoundary s (slotTurn (frameTurn s)) ∧ Does .frameBoundary s (slotTurn (frameTurn s))) ∧
    (s.sched.slot < 15 → NoQueue s → ∃ t, Does .slotBoundary s t ∧ t.sched = { s.sched with slot := s.sched.slot + 1 } ∧
      t.zones = s.zones ∧ t.nss = s.nss ∧ t.host = s.host ∧ t.adm = s.adm ∧ t.dram = s.dram) ∧
    (15 ≤ s.sched.slot → NoQueue s → ∀ i ∈ [Instr.slotBoundary, Instr.frameBoundary], ∃ t, Does i s t ∧
      t.sched.slot = 0 ∧ t.sched.qlcUsed = 0 ∧ t.sched.slcUsed = 0 ∧ t.sched.eraseUsed = 0 ∧ t.sched.sysUsed = 0 ∧
      t.sched.slotUs = od (odBump s 0x3100 0x09) 0x3100 0x01 ∧ t.sched.mask = od (odBump s 0x3100 0x09) 0x3100 0x02 ∧
      t.loop.mode = od (odBump s 0x3100 0x09) 0x8200 0x01 ∧ t.zones = s.zones ∧ t.adm = s.adm)) ∧
  (∀ (s : State) (ch rate v : Nat), (chan s ch).pending = some v →
    (chanQuiet s ch = false → Does (.channelScriptSwap ch rate) s s) ∧
    (chanQuiet s ch = true →
      let h := scriptHdr v (chan s ch).hdr
      let t := setChan s ch { chan s ch with hdr := h, code := scriptCode v, entry := scriptEntries v, pending := none
                                             faulted := false, scripted := true }
      let back := if (chan s ch).state = 1 then 0 else (chan s ch).state
      (h.mode = (chan s ch).hdr.mode → h.rate = (chan s ch).hdr.rate →
        Does (.channelScriptSwap ch rate) s (nextLoad (setChanState t ch back))) ∧
      (h.mode ≠ (chan s ch).hdr.mode ∨ h.rate ≠ (chan s ch).hdr.rate →
        Does (.channelScriptSwap ch rate) s (nextLoad (setChanState (rateFound t ch rate) ch back)))))

/-- R229, R233 (derived): a rewrite outside hold-up takes a spare with a grant of the slot for its erase (step 0),
copies page set by page set with a grant each (step 1), switches the row once no read of its source is running (step
2: the row is on the spare), waits for the durable remap record (step 3), and erases the source with a grant (step 4).
A retirement switches its row through the die's switch queue and the old block is retired. R226, R227 (derived): a
patrol read within the die's share counts, and asks for a rewrite of its row from the rewrite limits on. R243, R245
(derived): a probation phase that fails fails the probation; the phases follow one another, and the die is back in
service after the third with no facet left and two clean frames; a phase 3 facet that nothing is missing on is
verified. -/
def Obligations.RewritesPatrolAndProbation : Prop :=
  (∀ (s : State) (d : Nat) (r : Rewrite) (b : Nat), currentRewrite (die s d) = some r → s.power.hold = .running →
    dieOut s d = false →
    (∀ u, r.step = 0 → r.cause ≠ 2 → (spareBlock s d).isSome = true → stepErase s d = some u →
      Does (.rewriteStep d true) s (takeStep u d r true)) ∧
    (r.step = 0 → r.cause = 2 → spares s d ≤ od s 0x4010 0x05 → Does (.rewriteStep d true) s (deferRewrite s d r)) ∧
    (∀ w u, r.step = 1 → r.spare = some b → (rewriteParts s d r).find? (fun w => decide (r.copied ≤ w)) = some w →
      stepProgram s d 1 (rewriteQlc s r) (rewriteSingle s r) = some u →
      Does (.rewriteStep d true) s (setRewrite u d { r with copied := w + 1 })) ∧
    (r.step = 1 → r.spare = some b → r.cause ≠ 1 → (∀ w ∈ rewriteParts s d r, w < r.copied) →
      Does (.rewriteStep d true) s (setRewrite s d { r with step := 2 })) ∧
    (r.step = 2 → r.spare = some b → (∀ q ∈ (die s d).reading, rowBlock s d (q.page / 1024) ≠ r.block) →
      kvWf {} s.dies → ((die s d).rowMap.map Prod.fst).Pairwise (· < ·) →
      let t := setRewrite (switchRow s d r b) d { r with step := 3 }
      Does (.rewriteStep d true) s t ∧ rowBlock t d r.row = b ∧ t.zones = s.zones ∧
        t.jrn.tail.map (·.typ) = s.jrn.tail.map (·.typ) ++ [4]) ∧
    (r.step = 3 → r.spare = some b → (∃ m ∈ s.adm.remaps, m.oldBlock = r.block ∧ m.newBlock = b) →
      Does (.rewriteStep d true) s (setRewrite s d { r with step := 4 })) ∧
    (∀ u, r.step = 4 → stepErase s d = some u → Does (.rewriteStep d true) s (eraseSource u d r true))) ∧
  (∀ (s : State) (d : Nat) (r : Rewrite) (b : Nat) (rest : List Rewrite), (die s d).switching = r :: rest → r.spare = some b →
    kvWf {} s.dies → ∃ t, Does (.rowTableSwitch d) s t ∧
      (die t d).rowMap = kvPut (stockBlock s d r.row) r.row b (die s d).rowMap ∧ (die t d).switching = rest ∧
      r.block ∈ (die t d).retired) ∧
  (∀ (s : State) (d : Nat), (die s d).switching = [] → Does (.rowTableSwitch d) s s) ∧
  (∀ (s : State) (z w f c : Nat), let e := facetDie (groupOf z) f
    let key := (z * 256 + w) * 16 + f
    let b := rowBlock s e (rowOf z)
    (kvGet {} w (zone s z).folds).done.contains f = true ∨ w < poolSets s z → dieOut s e = false → shareLeft s e 5 false = true →
    kvWf {} s.dies → kvWf 0 (die s e).readCount → kvWf 0 s.health.patrol → ∃ t, Does (.patrolRead z w f (.good c)) s t ∧
      kvGet 0 key t.health.patrol = (kvGet 0 key s.health.patrol + 1) % 64 ∧
      kvGet 0 b (die t e).readCount = kvGet 0 b (die s e).readCount + 1 ∧ t.zones = s.zones ∧ t.nss = s.nss ∧
      (c < od s 0x4010 0x02 → kvGet 0 b (die s e).readCount + 1 < od s 0x4010 0x03 →
        (die t e).rewrites = (die s e).rewrites) ∧
      (od s 0x4010 0x02 ≤ c → 8 ≤ rowOf z → rowOf z < 8 + zoneRows s → ∃ r ∈ (die t e).rewrites, r.block = b)) ∧
  (∀ (s : State) (d : Nat), kvWf {} s.dies →
    (1 ≤ (die s d).phase → (die s d).phase ≤ 3 → Does (.probationPhaseEnd d false) s (probationFails s d)) ∧
    ((die s d).phase = 1 → ∃ t, Does (.probationPhaseEnd d true) s t ∧ (die t d).phase = 2) ∧
    ((die s d).phase = 2 → ∃ t, Does (.probationPhaseEnd d true) s t ∧ (die t d).phase = 3 ∧ (die t d).verified = []) ∧
    ((die s d).phase = 3 → facetsLeft s d = [] → 2 ≤ (die s d).cleanFrames → ∃ t, Does (.probationPhaseEnd d true) s t ∧
      (die t d).phase = 4 ∧ (die t d).service = 0 ∧ (die t d).leftAt = none)) ∧
  (∀ (s : State) (d z c : Nat), kvWf {} s.dies → (die s d).phase = 3 → groupOf z = dieGroup d →
    (zone s z).eraseLeft.contains (dieFacet d) = false → facetNext s d = some z → shareLeft s d 5 false = true →
    (∀ e ∈ (zone s z).folds, e.2.absent.contains (dieFacet d) = false) → absentOn s z (dieFacet d) = [] →
    c < od s 0x4010 0x02 → ∃ t, Does (.phase3FacetRepair d z (.good c)) s t ∧
      (die t d).verified = addTo z (die s d).verified ∧ t.zones = s.zones)

/-- R276 (derived): garbage collection of a conventional namespace copies the first mapped unit of its victim row,
with a grant for the program, to the row of its copy handle, where the unit is read from then on; an empty victim row
is given up to be erased and counted. R398 (derived): a key rotation with no zone left to take re-encrypts the next
conventional unit of the old key with a grant, and with nothing left it ends; a zone it takes is read with the new
generation. The start of a key rotation raises the namespace's key generation, 255 being followed by 1 with a new
salt, journals it and keeps the old generation and its salt for the pages not yet rotated; a lead with its link up
announces it. -/
def Obligations.BackgroundCopies : Prop :=
  (∀ (s : State) (nsid rg z u src y : Nat) (n : Ns) (rest : List Nat), ns? s nsid = some n → s.power.hold = .running →
    n.zoned = false → gcVictim n rg = some z →
    (∀ v, rowUnitsMapped n z = u :: rest → moveProgram s n (512 + rg) = some v → (kvGet {} u n.units).loc = .pool src →
      kvGet 0 (512 + rg) (ensureHandle s n (512 + rg)).handles = y + 1 → kvWf {} n.units → kvWf 0 n.fill →
      ∃ t m, Does (.gcStep nsid rg) s t ∧ ns? t nsid = some m ∧
        kvGet {} u m.units = { kvGet {} u n.units with loc := .pool (y * 262144 + kvGet 0 y n.fill) } ∧
        kvGet 0 y m.fill = kvGet 0 y n.fill + 1 ∧ t.host.fdpMedia = s.host.fdpMedia + 4096 ∧ t.zones = s.zones ∧
        t.jrn.nextLsn = s.jrn.nextLsn + 1) ∧
    (rowUnitsMapped n z = [] → Does (.gcStep nsid rg) s
      (let t := setNs s { n with fill := kvPut 0 z 0 n.fill, handles := n.handles.filter fun e => e.2 != z + 1 }
       eraseRow { t with host.fdpErased := t.host.fdpErased + 4096 * n.rowUnits } z))) ∧
  (∀ (s : State) (nsid u src y : Nat) (n : Ns) (r : Rotation) (e : UnitSt), ns? s nsid = some n → s.power.hold = .running →
    n.rot = some r → (oldZones s n r.oldGen).filter (rotatable s) = [] →
    (∀ v, oldUnit n r.oldGen = some (u, e) → moveProgram s n (512 + e.handle / 64) = some v → e.loc = .pool src →
      kvGet 0 (512 + e.handle / 64) (ensureHandle s n (512 + e.handle / 64)).handles = y + 1 → kvWf {} n.units →
      ∃ t m, Does (.keyRotationStep nsid) s t ∧ ns? t nsid = some m ∧
        kvGet {} u m.units = { e with loc := .pool (y * 262144 + kvGet 0 y n.fill), keyGen := r.newGen } ∧
        t.jrn.nextLsn = s.jrn.nextLsn + 2 ∧ t.zones = s.zones) ∧
    (oldUnit n r.oldGen = none →
      oldZones s n r.oldGen = [] → (∀ e ∈ n.units, e.2.keyGen ≠ r.oldGen) →
      Does (.keyRotationStep nsid) s (journal (setNs s { n with rot := none }) 13 [0, r.oldGen, nsid]))) ∧
  (∀ (s : State) (nsid z : Nat) (n : Ns) (r : Rotation) (v : State), ns? s nsid = some n → s.power.hold = .running →
    n.rot = some r → ((oldZones s n r.oldGen).filter (rotatable s)).min? = some z →
    (∀ d ∈ groupDies (groupOf z), (die s d).service = 0 → od s 0x4010 0x05 < spares s d) → relocateGrants s z = some v →
    kvWf {} s.zones → ∃ t, Does (.keyRotationStep nsid) s t ∧ (zone t z).keyGen = r.newGen ∧
      ∀ e ∈ (zone t z).units, e.2.keyGen = r.newGen) ∧
  (∀ (s : State) (nsid : Nat) (n : Ns), ns? s nsid = some n → rotationBusy s nsid = false →
    (n.gen < 255 →
      let t := journal (setNs s { n with
        rot := some { oldGen := n.gen, newGen := n.gen + 1, oldSalt := n.salt, switchAsn := s.adm.nextAsn
                      left := oldZones s n n.gen, pages := [] }
        gen := n.gen + 1 }) 11 [0, n.gen, n.gen + 1, nsid]
      (pairRole s = 0 → Does (.keyRotationStart nsid) s t) ∧
      (pairRole s = 1 → s.pair.linkUp = true → Does (.keyRotationStart nsid) s
        (sendFrame t 0 0x04 [8, nsid, s.adm.nextAsn, n.gen + 1, n.salt]))) ∧
    (n.gen = 255 → pairRole s = 0 → ∃ t m, Does (.keyRotationStart nsid) s t ∧ ns? t nsid = some m ∧ m.gen = 1 ∧
      m.rot = some { oldGen := 255, newGen := 1, oldSalt := n.salt, switchAsn := s.adm.nextAsn
                     left := oldZones s n 255, pages := [] } ∧
      m.salt = drawSalt s (s.ciph.root.getD 0) nsid 1))

/-- R257: the transitions of PLN# in the running, restarting and power-lost states: a falling edge within 1 ms and a
low of 5 µs qualify, a shorter low is counted as a glitch in OD 0x8400:09, and the release of a lost state is a device
reset with sub-cause 1. PWRDIS qualifies too and is counted (R573). A device that is not armed goes to the power-lost
state at once, an armed one to hold-up, and one that flushes goes on from the image it has. R258, R268 (derived): the
hold-up image is written once every running program has ended, and the seal takes the device to the power-lost state
and is counted; while a program runs nothing is written. -/
def Obligations.PowerLossAndHoldUp : Prop :=
  (∀ (s : State) (us : Nat),
    (us ≤ 1000 → Does (.plnFallingEdge us) s (plnQualify { s with power.plnLow := true })) ∧
    (1000 < us → Does (.plnFallingEdge us) s { s with power.plnLow := true }) ∧
    (s.power.plnLow = true → Does .plnQualified s (plnQualify s)) ∧
    (s.power.plnLow = true → s.power.hold = .running → Does .plnGlitch s
      (odKeep { s with power.plnLow := false } 0x8400 0x09 (od s 0x8400 0x09 + 1))) ∧
    (s.power.hold = .lost → Does .powerLostRelease s (raise { s with power.plnLow := false } 8 1)) ∧
    (s.power.hold ≠ .lost → Does .powerLostRelease s s) ∧
    Does .pwrdisQualified s (plnQualify (odBump s 0xB000 0x05)) ∧
    (s.power.hold = .running → s.power.armed = false → (plnQualify s).power.hold = .lost ∧
      (plnQualify s).pins.wpLow = true ∧ (plnQualify s).power.images = s.power.images) ∧
    (s.power.hold = .running → s.power.armed = true → (plnQualify s).power.hold = .holdup) ∧
    (s.power.hold = .flush → (∀ i ∈ s.power.images, i.seq = s.power.imageSeq → i.sealed = true) →
      (plnQualify s).power.hold = .holdup) ∧
    (∀ i ∈ s.power.images, s.power.hold = .flush → i.seq = s.power.imageSeq → i.sealed = false →
      (plnQualify s).power.hold = .written)) ∧
  (∀ (s : State) (us : Nat),
    (programming s = true → Does (.holdupDrainDone us) s s) ∧
    (programming s = false → s.power.hold = .holdup → ∃ t, Does (.holdupDrainDone us) s t ∧ t.power.hold = .written ∧
      t.power.imageSeq = s.power.imageSeq + 1 ∧ ∃ i ∈ t.power.images, i.seq = t.power.imageSeq ∧ i.sealed = false ∧
        i.nextAsn = s.adm.nextAsn ∧ i.units = windowUnits s ∧ i.tail = s.jrn.tail) ∧
    (s.power.hold = .written → ∃ t, Does .holdupSealDone s t ∧ t.power.hold = .lost ∧ t.power.armed = false ∧
      t.pins.wpLow = true ∧ t.pair.linkUp = false ∧ t.jrn.tail = [] ∧
      ∀ i ∈ s.power.images, ∃ j ∈ t.power.images, j.seq = i.seq ∧ j.units = i.units ∧
        (i.seq = s.power.imageSeq → j.sealed = true)) ∧
    (s.power.hold = .running → Does .holdupSealDone s s))

/-- R286, R565 (derived): a shutdown set in CC.SHN of an enabled controller in service starts the shutdown and flushes
Loupe; once the device has drained it completes, with CSTS.SHST 2 and the journal tail durable. R288, R551, R316
(derived): the restart scan runs once, in stage 3, and counts an unclean start: with a maintenance request or strap it
ends in the maintenance state, a twin waits for its pair, and any other device comes into service armed, every enabled
function ready; the image area is released once no reloaded unit waits (R291). -/
def Obligations.ShutdownAndRestartScan : Prop :=
  (∀ (s : State) (fn shn : Nat), kvWf {} s.host.fns →
    (shn = 1 ∨ shn = 2 → inService s = true → (fnc s fn).en = true → ∃ t, Does (.ccShnShutdown fn shn) s t ∧
      t.power.shutdown = 1 ∧ t.power.shutdownFn = fn ∧ (fnc t fn).shst = 1 ∧ inService t = false) ∧
    (shn ≠ 1 → shn ≠ 2 → Does (.ccShnShutdown fn shn) s s) ∧
    (s.power.shutdown = 1 → drained s = true → ∃ t, Does .shutdownComplete s t ∧ t.power.shutdown = 2 ∧
      t.power.clean = true ∧ t.jrn.tail = [] ∧ (fnc t s.power.shutdownFn).shst = 2) ∧
    (drained s = false → Does .shutdownComplete s s)) ∧
  (∀ (s : State) (l : Option LossFacts),
    (s.rst.life ≠ .stage3 → Does (.restartScan l) s s) ∧
    (s.rst.life = .stage3 → s.rst.scanStep = 0 → s.rst.unclean = false → (s.dict.od.map Prod.fst).Pairwise (· < ·) →
      (s.rst.maintain = true ∨ bootSel s = 1 → ∃ t, Does (.restartScan l) s t ∧ t.rst.life = .maintenance ∧
        t.pair = s.pair ∧ t.power.unsafeShutdowns = s.power.unsafeShutdowns + if s.power.clean then 0 else 1) ∧
      (s.rst.maintain = false → bootSel s ≠ 1 → pairRole s ≠ 0 → ∃ t, Does (.restartScan l) s t ∧
        t.pair = { s.pair with bootWait := true, hbInWait := s.pair.hbIn } ∧ t.rst.life = .stage3 ∧ t.rst.scanStep = 9) ∧
      (s.rst.maintain = false → bootSel s ≠ 1 → pairRole s = 0 → ∃ t, Does (.restartScan l) s t ∧
        t.rst.life = .service ∧ t.rst.scanStep = 0 ∧ t.power.armed = true ∧ ∀ e ∈ t.host.fns, e.2.rdy = e.2.en)) ∧
    (s.power.inUse = true → s.power.hold = .running → s.rst.life = .service →
      (∀ e ∈ s.power.reload, e.1 < 2 ^ 32 → e ∉ windowUnits s ++ partialUnits s) →
      (∀ e ∈ s.power.reload, 2 ^ 32 ≤ e.1 → (e.1 - 2 ^ 32, e.2) ∉ windowConv s) →
      Does .imageAreaRelease s { s with power.inUse := false, power.reload := []
                                        power.images := s.power.images.filter fun i => i.area == s.power.area }))

/-- R299, R306, R307, R308 (derived): with no link in session a keepalive period only ages PAIR_HB_IN; in session it
queues a keepalive and an acknowledgement and counts the period; ten missed periods are a link loss: the session is
over and a follower that sees PAIR_HB_IN is fenced, one that does not waits. PAIR_HB_IN is recorded and counted, and
decides whether a waiting follower promotes itself, leading on from its applied head, or is fenced; a device that
found neither twin nor PAIR_HB_IN at boot comes into service. R300, R303 (derived): a link acknowledgement drops the
frames up to its sequence and sends the frame it asks for again, or begins a fast retrain at the second time; a fast
retrain that is done sends the unacknowledged frames again in order, one that is late is a link loss; a bad frame is
discarded and asked for again; and the lower serial runs KEY_UPDATE once per 2^32 frames. R302, R295, R339 (derived):
a Mirror link that trains with the wrong position is refused with an event, one of fewer than 4 lanes does nothing,
and one of a matching digest brings the session up with fresh sequence numbers and attaches, unless the twin was
detached by command; a trained cascade link goes to its port. -/
def Obligations.MirrorLinkHealth : Prop :=
  (∀ (s : State),
    (s.pair.linkUp = false → (∀ p, (member s p).linkUp = false) →
      Does .keepaliveSend s { s with pair.hbAge := if s.pair.hbIn then 0 else s.pair.hbAge + 1 }) ∧
    (s.pair.linkUp = true → s.pair.session = true → (∀ p, (member s p).linkUp = false) → ∃ t, Does .keepaliveSend s t ∧
      t.pair.missed = s.pair.missed + 1 ∧ t.pair.txq.map (·.kind) = s.pair.txq.map (·.kind) ++ [1, 3] ∧
      t.pair.unacked = s.pair.unacked) ∧
    (s.pair.linkUp = true → 10 ≤ s.pair.missed → Does .linkLoss s (loupe (linkLost s) 225 0x50 5 [0])) ∧
    (s.pair.linkUp = true → 10 ≤ s.pair.missed → s.host.cmds = [] → s.reads = [] → pairRole s = 2 → ∃ t, Does .linkLoss s t ∧
      t.pair.linkUp = false ∧ t.pair.session = false ∧ t.pair.unacked = [] ∧ (s.pair.hbIn = true → t.pair.fenced = true) ∧
      (s.pair.hbIn = false → s.pair.hbAge ≤ 50 → t.pair.waiting = true) ∧
      (s.pair.hbIn = false → 50 < s.pair.hbAge → t.pair.fenced = true)) ∧
    (s.pair.missed < 10 → Does .linkLoss s s) ∧
    (s.pair.waiting = true → s.pair.hbIn = false → Does .promotionWaitExpiry s (promote s)) ∧
    (s.pair.waiting = true → s.pair.hbIn = false → s.host.cmds = [] → (∀ l ∈ s.adm.recs, l.sealed = true) →
      ∃ t, Does .promotionWaitExpiry s t ∧ t.adm.nextAsn = s.adm.appliedHead + 1 ∧ t.pair.waiting = false ∧
        t.pair.promoted = true ∧ t.pair.wasLead = true ∧ t.zones = s.zones) ∧
    (s.pair.hbIn = true → Does .promotionWaitExpiry s s) ∧
    (s.pair.hbIn = true →
      Does .pairHbInAbsent s (odBump { s with pair.hbIn := false, pair.hbAge := 0 } 0x5010 0x07)) ∧
    (s.pair.waiting = false → Does .pairHbInPresent s
      { s with pair.hbIn := true, pair.hbAge := 0, pair.hbInWait := s.pair.hbInWait || s.pair.bootWait }) ∧
    (s.pair.waiting = true → s.host.cmds = [] → ∃ t, Does .pairHbInPresent s t ∧ t.pair.hbIn = true ∧
      t.pair.fenced = true ∧ t.pair.waiting = false ∧ t.zones = s.zones) ∧
    (s.pair.bootWait = true → s.pair.fenced = false → s.pair.linkUp = false →
      (s.pair.hbInWait = true → Does .pairBootWaitExpiry s (fence s)) ∧
      (s.pair.hbInWait = false → Does .pairBootWaitExpiry s (aloneAsLead s) ∧ (aloneAsLead s).rst.life = .service ∧
        (aloneAsLead s).power.armed = true))) ∧
  (∀ (s : State) (received seq : Nat),
    (s.pair.linkUp = false → Does (.linkAcknowledgement 0 received seq) s s) ∧
    (s.pair.linkUp = true → s.host.sanitizeStatus ≠ 2 →
      ((∀ f ∈ s.pair.unacked, received < f.seq → f.seq ≠ seq) → Does (.linkAcknowledgement 0 received seq) s
        { s with pair.unacked := s.pair.unacked.filter fun f => decide (received < f.seq)
                 pair.resendAsked := if seq = 0 then none else s.pair.resendAsked }) ∧
      (∀ f, (s.pair.unacked.filter fun f => decide (received < f.seq)).find? (fun f => f.seq == seq) = some f →
        (s.pair.resendAsked ≠ some seq → Does (.linkAcknowledgement 0 received seq) s (odBump
          { s with pair.unacked := s.pair.unacked.filter fun f => decide (received < f.seq)
                   pair.resendAsked := some seq, pair.out := s.pair.out ++ [f] } 0x5010 0x05)) ∧
        (s.pair.resendAsked = some seq → Does (.linkAcknowledgement 0 received seq) s (odBump (odBump
          { s with pair.unacked := s.pair.unacked.filter fun f => decide (received < f.seq)
                   pair.retraining := true, pair.resendAsked := none } 0x5010 0x03) 0x4000 0x0E)))) ∧
    (s.pair.retraining = true → Does (.fastRetrainDone 0) s
      { s with pair.retraining := false, pair.out := s.pair.out ++ s.pair.unacked }) ∧
    (s.pair.retraining = true → Does (.fastRetrainTimeout 0) s (loupe (linkLost s) 225 0x50 5 [0])) ∧
    (s.pair.retraining = false → Does (.fastRetrainTimeout 0) s s) ∧
    (s.pair.linkUp = true → Does (.frameCheckFailure 0 seq) s
      (let t := loupe (odBump s 0x4000 0x0D) 225 0x50 1 [0, seq]
       sendFrame t 0 0x03 [t.pair.rxSeq, seq])) ∧
    (s.pair.session = true → Config.serial < od s 0x5000 0x04 →
      s.pair.keyUpdates < Nat.max s.pair.txSeq s.pair.rxSeq / 2 ^ 32 →
      Does (.keyUpdate 0) s (sendFrame
        (useFree { s with pair.keyUpdates := s.pair.keyUpdates + 1, pair.secret := freeVal s }) 0 0x05 [0xE9])) ∧
    (Nat.max s.pair.txSeq s.pair.rxSeq < 2 ^ 32 → Does (.keyUpdate 0) s s)) ∧
  (∀ (s : State) (port lanes serial position digest epoch ctl rev : Nat) (lead pref nss paired : Bool),
    (lanes < 4 → Does (.linkTrained 0 lanes serial position digest epoch lead pref nss ⟨paired, ctl, rev⟩) s s) ∧
    (8 ≤ lanes → mayAttach s = true → s.rst.logicFailed.testBit 29 = false → rev = Config.placementRevision →
      (position ≠ casPos s → Does (.linkTrained 0 lanes serial position digest epoch lead pref nss ⟨paired, ctl, rev⟩) s
        (loupe s 339 0x50 5 [position])) ∧
      (position = casPos s → digest ≠ od s 0x5000 0x05 →
        Does (.linkTrained 0 lanes serial position digest epoch lead pref nss ⟨paired, ctl, rev⟩) s s) ∧
      (position = casPos s → digest = od s 0x5000 0x05 →
        let u := odSet s 0x5010 0x01 0 8
        let u := { u with
          pair.linkUp := true, pair.session := true, pair.txSeq := 1, pair.rxSeq := 0, pair.unacked := [], pair.txq := []
          pair.resendAsked := none, pair.retraining := false, pair.missed := 0, pair.keyUpdates := 0
          pair.secret := freeVal u, pair.sessionId := freeVal (useFree u), free := u.free + 2
          ciph.sessions := addTo 4 s.ciph.sessions, pins.mirrorIdle := false }
        (s.pair.detached = true →
          Does (.linkTrained 0 lanes serial position digest epoch lead pref nss ⟨paired, ctl, rev⟩) s u) ∧
        (s.pair.detached = false → Does (.linkTrained 0 lanes serial position digest epoch lead pref nss ⟨paired, ctl, rev⟩) s
          (attach u serial epoch lead pref nss paired ctl)))) ∧
    (port ≠ 0 → Does (.linkTrained port lanes serial position digest epoch lead pref nss ⟨paired, ctl, rev⟩) s
      (cascadeTrained s port lanes serial position)))

/-- R299: a frame of an old epoch is counted and dropped, one whose sequence was taken already is dropped, and with no
session nothing is taken in. -/
def Obligations.StaleFramesAreDropped : Prop :=
  ∀ (s : State) (h : FrameHdr) (b : StatusBlock) (root head : Nat),
    (s.pair.linkUp = true → s.pair.session = true → h.epoch < pairEpoch s →
      Does (.keepalive h b) s (odBump s 0x5010 0x08) ∧ Does (.pairRootTransfer h root) s (odBump s 0x5010 0x08) ∧
      Does (.handoverFrame h head) s (odBump s 0x5010 0x08)) ∧
    (s.pair.linkUp = true → s.pair.session = true → pairEpoch s ≤ h.epoch → h.seq ≤ s.pair.rxSeq →
      Does (.keepalive h b) s s ∧ Does (.pairRootTransfer h root) s s ∧ Does (.handoverFrame h head) s s) ∧
    (s.pair.session = false →
      Does (.keepalive h b) s s ∧ Does (.pairRootTransfer h root) s s ∧ Does (.handoverFrame h head) s s)

/-- R299, R306, R317 to R319, R325 to R328 (derived): what a new frame of the twin does: a keepalive of the same epoch
is kept, and one by which the follower reaches phase 3 takes the lead with it, in a new epoch; an attach frame without
a transfer moves a returning follower to phase 2 with the ring counters it was given; a handover makes the joined
follower lead at the head; a detach reaches the lead's separation and a follower that keeps its twin's commands no
longer; a fork report is answered by the attach frame, with the records above the fork; a preserve report is due once.
R304, R399, R402, R536 (derived): the follower takes the lead's data-key root and, once its ASN is reached, an
announced key switch; a forced reset of its epoch is raised with its case kept; and a write whose acknowledgement is
late is asked for. -/
def Obligations.PairControlFrames : Prop :=
  (∀ (s : State) (h : FrameHdr), Received s h →
    (∀ b, pairRole s ≠ 1 → h.epoch = pairEpoch s → s.pair.detaching = false →
      Does (.keepalive h b) s { s with pair.rxSeq := h.seq, pair.missed := 0, pair.twin := some b }) ∧
    (∀ b, pairRole s = 1 → b.role = 2 → h.epoch = pairEpoch s → pairPhase s = 2 → b.phase = 3 →
      s.pair.detaching = false → s.pair.handing = false → Does (.keepalive h b) s
        (let t := setPhase { taken s h with pair.missed := 0, pair.twin := some b } 3
         if 3 ≤ pairPhase t then bumpEpoch { t with pair.promoted := false } else t)) ∧
    (∀ fork live rings regions, pairRole s = 2 → pairPhase s = 1 →
      Does (.attachFrame h fork live rings regions none) s
        (let t := rings.foldl ringResume (discardAbove (taken s h) fork)
         let t := { t with nss := t.nss.map fun n => { n with seqs := [] } }
         let t := odSet (odSet (odSave t 0x5000 0x07 0 fork) 0x5000 0x08 0 live) 0x5020 0x02 0 0
         setPhase { t with pair.wasLead := false, pair.regions := regions } 2)) ∧
    (∀ head, pairRole s = 2 → pairPhase s = 4 → Does (.handoverFrame h head) s
      (let t := odSave (setRole (taken s h) 1) 0x5000 0x02 0 (Nat.max h.epoch (pairEpoch s))
       askedToPoint (ordersHere { t with adm.nextAsn := head + 1, adm.appliedHead := head })) ∧
      (s.host.cmds = [] → ∃ t, Does (.handoverFrame h head) s t ∧ t.adm.nextAsn = head + 1 ∧ t.pair.wasLead = true ∧
        t.pair.asked = [] ∧ t.zones = s.zones)) ∧
    (∀ asn, pairRole s = 1 → Does (.detachFrame h asn) s (separate (taken s h))) ∧
    (∀ asn, pairRole s = 2 → s.host.cmds = [] → (∀ l ∈ s.adm.recs, l.sealed = true) →
      ∃ t, Does (.detachFrame h asn) s t ∧ t.pair.detached = true ∧ t.pair.detaching = false ∧ t.pair.asked = [] ∧ t.zones = s.zones) ∧
    (∀ fork head, pairRole s = 1 → pairPhase s = 1 → s.pair.promoted = false → s.pair.newTwin = false →
      s.adm.floor ≤ Nat.min fork head + 1 → (∀ l ∈ s.adm.recs, l.r.asn ≤ Nat.min fork head) →
      ∃ t, Does (.forkReport h fork head) s t ∧ t.adm.nextAsn = s.adm.nextAsn ∧ t.zones = s.zones ∧
        t.pair.txq.map (fun f => (f.kind, f.body)) = s.pair.txq.map (fun f => (f.kind, f.body)) ++
          [(0x04, [1, Nat.min fork head, s.adm.nextAsn, s.rings.length] ++
            (s.rings.flatMap fun e => [e.1, e.2.c]) ++ [s.pair.regions.length] ++
            s.pair.regions.flatMap fun e => [e.1, e.2])]) ∧
    (∀ group, pairRole s = 1 → s.adm.preserve = false → s.adm.due.contains (.preserve group) = false →
      Does (.preserveReport h group) s
        { taken s h with adm.due := s.adm.due ++ [.preserve group] })) ∧
  (∀ (s : State) (h : FrameHdr), Received s h →
    (∀ root, pairRole s = 2 → Does (.pairRootTransfer h root) s
      { taken s h with ciph.root := some root, ciph.stored := some root, pair.twinRoot := some root
                       ciph.erased := false }) ∧
    (∀ nsid asn g salt, pairRole s = 2 → s.pair.switches = [] →
      (s.adm.nextAsn < asn → Does (.keySwitchAsnFrame h nsid asn g salt) s
        { taken s h with pair.switches := [(nsid, asn, g, salt)] }) ∧
      (∀ n, asn ≤ s.adm.nextAsn → ns? s nsid = some n → Does (.keySwitchAsnFrame h nsid asn g salt) s
        (let t := { taken s h with pair.switches := [] }
         let r : Rotation := { oldGen := n.gen, newGen := g, oldSalt := n.salt, switchAsn := asn
                               left := oldZones t n n.gen, pages := [] }
         journal (setNs t { n with rot := some r, gen := g, salt := salt }) 11 [0, n.gen, g, nsid]))) ∧
    (∀ case, pairRole s = 2 → h.epoch = pairEpoch s → Does (.forcedResetFrame h case) s
      (let t := odSet (taken s h) 0xA000 0x08 0 case
       raise { t with health.savedOd := kvPut 0 (odKey 0xA000 0x08 0) case t.health.savedOd } 5)) ∧
    (∀ asn k, pairRole s = 1 → joined s = true → k ∈ s.host.cmds → asn ∈ k.asns → k.acked = false →
      Does (.holdingAckLate asn) s (sendFrame s 0 0x04 [9, 2])))

/-- R31, R32, R44, R299, R309, R313, R321, R322 (derived): an admission request of the follower waits at the lead's
point behind the lead's own queues, a conventional order takes the lead's next sequence and reaches the command that
asked, ledger records are applied in ASN order only, an acknowledgement marks its commands, and data frames reach the
read, the zone or the command they belong to; a buffer whose path code fails is asked for again. R314, R317, R321,
R323 (derived): catching up ends in phase 3 once the live point is reached; the lead sends the lowest marked zone's
units from its mark on, counts them and clears the mark, and the follower asks for the units it lacks; with nothing
left the follower is in step. -/
def Obligations.PairDataFramesAndResync : Prop :=
  (∀ (s : State) (h : FrameHdr), Received s h →
    (∀ op c index g n, pairRole s = 1 → 2 ≤ pairPhase s → ns? s c.nsid = some n →
      Does (.admissionRequest h op c index g) s
        (holdCmd { (passCrossing (taken s h) 1 c).1 with host.nextId := s.host.nextId + 1 }
          { id := s.host.nextId, op := op, io := (passCrossing s 1 c).2, gen := g, index := index + 2 ^ 23, origin := 1
            zone := (n.zoneOf c.slba).getD 0, zonesLeft := if c.selectAll then n.zones else [] })) ∧
    (∀ id nsid lba blocks, pairRole s = 1 → Does (.conventionalOrder h id nsid lba blocks 0) s
      (sendFrame { taken s h with win.convSeq := s.win.convSeq + 1
                                  win.convOrder := s.win.convOrder ++ [(s.win.convSeq, nsid, lba, blocks)] } 0 0x13
        [id, nsid, lba, blocks, s.win.convSeq])) ∧
    (∀ id nsid lba blocks seq k, pairRole s = 2 →
      s.host.cmds.find? (fun k => k.id == id && k.stage == .order) = some k →
      Does (.conventionalOrder h id nsid lba blocks seq) s
        (setCmd { taken s h with win.convSeq := Nat.max s.win.convSeq (seq + 1)
                                 win.convOrder := s.win.convOrder ++ [(seq, nsid, lba, blocks)] }
          { k with stage := .waitData, convSeq := some seq })) ∧
    (∀ r, pairRole s = 2 → 2 ≤ pairPhase s →
      (s.adm.nextAsn < r.asn → Does (.ledgerRecords h [r]) s (settleAsked (taken s h))) ∧
      (r.asn < s.adm.nextAsn → Does (.ledgerRecords h [r]) s (settleAsked (takeFinal (taken s h) r))) ∧
      (r.asn = s.adm.nextAsn → Does (.ledgerRecords h [r]) s (settleAsked
        (let t := dueSwitches (withUndo (fun s => applyRecord s r) (taken s h))
         let zs := match ns? t r.nsid with | some n => n.startOf r.zone | none => 0
         afterRecord t r (decide (r.rtype ≤ 2) &&
           ((zone t r.zone).st.code != r.stateAfter || wpShown zs (zone t r.zone) != r.wpAfter)))))) ∧
    (∀ l, s.pair.handing = false → s.pair.detaching = false → ∃ t, Does (.holdingAcknowledgement h l []) s t ∧
      t.host.cmds.length = s.host.cmds.length ∧ t.zones = s.zones ∧
      (∀ k ∈ s.host.cmds, ∀ a, k.convSeq = none → k.asns.getLast? = some a → a ∈ l →
        { k with acked := true } ∈ t.host.cmds) ∧
      ∀ k ∈ s.host.cmds, ∀ q, k.convSeq = some q → 2 ^ 63 + q ∈ l → { k with acked := true } ∈ t.host.cmds) ∧
    (∀ zone unit count, Does (.fetchRequest h zone unit count) s
      ((List.range count).foldl (fun s i => sendUnit s 0 zone (unit + i)) (taken s h))) ∧
    (∀ rid zone unit content g,
      (∀ path, SramPath.bad path = true → Does (.fetchResponse h rid zone unit ⟨content, path⟩ g) s
        (sendFrame (sramPath (taken s h) path) 0 0x12 [rid, zone, unit])) ∧
      (∀ r, rid ≠ 0 → rdUnit? s rid unit = some r → r.mode = .twin →
        Does (.fetchResponse h rid zone unit ⟨content, .clean, .clean⟩ g) s
          (twinAnswer (taken s h) r (if otherGen s zone unit g then [] else content))) ∧
      (∀ k, rid ≠ 0 → rdUnit? s rid unit = none → cmd? s rid = some k → k.stage = .forwarded →
        Does (.fetchResponse h rid zone unit ⟨content, .clean, .clean⟩ g) s (fillRead (taken s h) k unit content)) ∧
      (∀ k, rid ≠ 0 → rdUnit? s rid unit = none → cmd? s rid = some k → k.stage ≠ .forwarded →
        otherGen s zone unit g = true →
        Does (.fetchResponse h rid zone unit ⟨content, .clean, .clean⟩ g) s (keyDiffers (taken s h) k)) ∧
      (content ≠ [] → ∀ n, nsOfZone s zone = some n →
        Does (.fetchResponse h 0 zone unit ⟨content, .clean, .clean⟩ g) s
          (placeZoneUnit (odBump (taken s h) 0x5020 0x02 0 4096) zone unit g content))) ∧
    (∀ asn zone unit check content, casPos s = 0 → content ≠ [] →
      (2 ^ 63 ≤ asn → Does (.writeDataFrame h asn zone unit check ⟨content, .clean, .clean⟩ true) s
        (let t := placeConvUnit (taken s h) zone unit (asn - 2 ^ 63) content
         sendFrame { t with win.convOrder := t.win.convOrder.filter fun e => e.1 != asn - 2 ^ 63 } 0 0x02 [asn])) ∧
      (∀ k n, asn < 2 ^ 63 → dataCmd s asn zone unit = some k → ns? s k.io.nsid = some n →
        Does (.writeDataFrame h asn zone unit check ⟨content, .clean, .clean⟩ false) s
          (placeCmdBlocks (taken s h) n k unit content) ∧
        Does (.writeDataFrame h asn zone unit check ⟨content, .clean, .clean⟩ true) s
          (trySeparate (dataComplete (placeCmdBlocks (taken s h) n k unit content) k asn check))))) ∧
  (∀ (s : State) (z : Nat),
    (pairRole s = 2 → pairPhase s = 2 → od s 0x5000 0x08 ≤ s.adm.nextAsn →
      Does .catchingUpDone s (setAna (setPhase s 3) 2)) ∧
    (pairPhase s = 3 → s.pair.linkUp = true → (markedZones s).min? = some z →
      (pairRole s = 1 → Does (.resyncZoneCopy z) s (let t := (((zone s z).units.map (·.1)).filter fun u =>
          decide ((zone s z).marked.getD 0 ≤ u)).foldl (fun s u => odBump (sendUnit s 0 z u) 0x5020 0x02 0 4096) s
        setZone t z { zone s z with marked := none })) ∧
      (pairRole s = 2 → pendingUnits s z ≠ [] → Does (.resyncZoneCopy z) s
        ((pendingUnits s z).foldl (fun s u => sendFrame s 0 0x12 [0, z, u]) s)) ∧
      (pairRole s = 2 → pendingUnits s z = [] → Does (.resyncZoneCopy z) s
        (setZone s z { zone s z with marked := none }))) ∧
    (∀ nsid r rest, pairPhase s = 3 → s.pair.linkUp = true → markedZones s = [] → s.pair.regions = (nsid, r) :: rest →
      (pairRole s = 1 → Does (.resyncZoneCopy z) s ((regionUnits r).foldl
        (fun s u => odBump (sendUnit s 0 nsid u) 0x5020 0x02 0 4096) { s with pair.regions := rest })) ∧
      (pairRole s = 2 → Does (.resyncZoneCopy z) s ((regionUnits r).foldl
        (fun s u => sendFrame s 0 0x12 [0, nsid, u]) { s with pair.regions := rest }))) ∧
    (pairPhase s ≠ 3 → Does (.resyncZoneCopy z) s s) ∧
    (pairRole s = 2 → pairPhase s = 3 → markedZones s = [] → s.pair.regions = [] →
      Does .zoneResyncDone s (loupe (setAna (setPhase s 4) 1) 317 0x50 2 [])))

/-- R306, R331 to R337 (derived): a lost link or a power-loss notice takes its member out; a forwarded read is served
as though it came on the member's own queues, and a forwarded zone command goes to the member's point; the last part's
completion ends its command with the first failing status; a returning member passes with its three checks, and a
removed one is gone. -/
def Obligations.CascadeMembers : Prop :=
  ∀ (s : State) (port : Nat),
    Does (.cascadeLinkLoss port) s (cascadeLost s port) ∧
    (port ≠ 0 → Does (.powerLossNotice port) s (cascadeLost s port)) ∧
    (s.pair.linkUp = true → Does (.powerLossNotice 0) s (noticeFromTwin s)) ∧
    (casPos s = 0 → (member s port).linkUp = true → cascadeLost s port = memberLost s port 0) ∧
    (casPos s ≠ 0 → (member s 1).linkUp = true → cascadeLost s 1 = masterGone s) ∧
    (∀ h c index fn g cls first tag n, casPos s ≠ 0 → (member s 1).linkUp = true → (member s 1).rxSeq < h.seq →
      inService s = true → ns? s c.nsid = some n →
      let c' := (passCrossing s 2 { c with fn := fn }).2
      let t := { (passCrossing (setMember s 1 { member s 1 with rxSeq := h.seq, missed := 0 }) 2
          { c with fn := fn }).1 with host.nextId := s.host.nextId + 1 }
      Does (.forwardedCommand h .read c index fn g cls first 0 tag) s
        (serveRead t n { id := s.host.nextId, op := .read, io := c', gen := g, index := index
                         origin := 2, tag := tag, cls := cls, check := none }) ∧
      (∀ a, n.zoned = true → Does (.forwardedCommand h (.zoneSend a) c index fn g cls first 0 tag) s
        (toPoint t n { id := s.host.nextId, op := .zoneSend a, io := c', gen := g, index := index
                       origin := 2, tag := tag, cls := cls, check := none }))) ∧
    (∀ tag status head, (member s port).sent.find? (fun e => e.1 == tag) = none →
      Does (.memberCompletion port tag status 0 0 ⟨head, []⟩) s s) ∧
    (∀ tag status head data id k, kvWf {} s.casc.members → (member s port).sent = [(tag, id)] →
      cmd? s id = some k → k.op = .write → k.stage = .forwarded → k.io.selectAll = false → k.status = 0 →
      (∀ n, ns? s k.io.nsid = some n → n.ending = none) →
      (∀ e ∈ s.casc.members, e.1 ≠ port → ∀ y ∈ e.2.sent, y.2 ≠ k.id) → status ≠ 0 →
      Does (.memberCompletion port tag status 0 0 ⟨head, data⟩) s
        (let k := { k with status := status, tag := tag, data := k.data ++ data }
         finishCmd (setCmd (odSet (setMember s port { member s port with sent := [], missed := 0 })
           0x5110 0x04 port head) k) k)) ∧
    (casPos s = 0 → od s 0x5110 0x01 port = 1 → (member s port).linkUp = true →
      Does (.memberProbationPass port true true true) s (anaChanged (odSet s 0x5110 0x01 port 2)) ∧
      Does (.memberProbationPass port true false true) s (loupe s 336 0x51 5 [port])) ∧
    (casPos s = 0 → 1 ≤ port → port ≤ 3 → od s 0x5110 0x01 port ≠ 3 →
      Does (.memberRemove port) s (memberLost s port 3))

/-- R345 (derived): VF Enable takes the disabled lenses up to NumVFs to Offline, and VF Disable lowers NumVFs and
takes a lens beyond it to Disabled, its resources back to the pools; an Online of an Offline lens with resources
starts its probation, and an Offline of a probation or online lens takes it Offline; probation passes to Online once
its checks pass and its old work is gone, and a check that fails takes it back Offline with an event that names the
lens and the check. -/
def Obligations.LensLifeCycle : Prop :=
  ∀ (s : State) (n lens : Nat) (a : Adm), kvWf {} s.host.fns →
    (∃ t, Does (.vfEnable n) s t ∧ t.host.numVfs = Nat.max n s.host.numVfs ∧ t.zones = s.zones ∧
      (∀ i, 1 ≤ i → i ≤ n → (fnc s i).lens = .disabled → (fnc t i).lens = .offline) ∧
      ∀ i, i = 0 ∨ n < i ∨ (fnc s i).lens ≠ .disabled → fnc t i = fnc s i) ∧
    ((∀ e ∈ s.host.fns, e.1 ≤ n ∨ e.2.lens = .disabled) →
      Does (.vfDisable n) s { s with host.numVfs := Nat.min n s.host.numVfs }) ∧
    ((s.host.fns.map (·.1)).filter (fun m => decide (n < m) && (fnc s m).lens != .disabled) = [lens] →
      let u := lensTo { s with host.numVfs := Nat.min n s.host.numVfs } lens .disabled
      Does (.vfDisable n) s (resetCloseFree (setFn { u with
        host.freeVq := u.host.freeVq + (fnc u lens).vq, host.freeVi := u.host.freeVi + (fnc u lens).vi } lens
        { fnc u lens with vq := 0, vi := 0, tdisp := .unlocked }) lens)) ∧
    (AdminServed s a → tdLocked (fnc s lens) = false →
      ((fnc s lens).lens = .offline → (fnc s lens).vq ≠ 0 → (fnc s lens).vi ≠ 0 →
        od s 0x6210 0x02 lens ≠ 0 ∨ lensContractOk s lens = true → Does (.virtualizationOnline a lens) s
          (adminDone (setFn (increment s lens) lens { fnc (increment s lens) lens with lens := .probation }) a 0)) ∧
      ((fnc s lens).lens = .online ∨ (fnc s lens).lens = .probation →
        Does (.virtualizationOffline a lens) s (adminDone (resetCloseFree (lensTo s lens .offline) lens) a 0)) ∧
      ((fnc s lens).lens = .disabled → Does (.virtualizationOnline a lens) s (adminDone s a stCtrlState) ∧
        Does (.virtualizationOffline a lens) s (adminDone s a stCtrlState)) ∧
      (∀ vq vi, (fnc s lens).lens = .offline → vq ≤ 256 → vi ≤ 257 →
        vq ≤ s.host.freeVq + (fnc s lens).vq → vi ≤ s.host.freeVi + (fnc s lens).vi →
        Does (.virtualizationAssign a lens vq vi) s (adminDone (setFn { s with
          host.freeVq := s.host.freeVq + (fnc s lens).vq - vq, host.freeVi := s.host.freeVi + (fnc s lens).vi - vi } lens
          { fnc s lens with vq := vq, vi := vi }) a 0))) ∧
    ((fnc s lens).lens = .probation → (fnc s lens).genWait = none →
      (∀ k ∈ s.host.cmds, k.origin = 0 → k.io.fn ≠ lens) → (∀ g ∈ s.host.granted, g.io.fn ≠ lens) →
      (probationCheck s lens 0 = 0 →
        Does (.probationChecksPass lens 0 []) s (setFn s lens { fnc s lens with lens := .online })) ∧
      (∀ c, c ≠ 0 → c ≠ 2 → Does (.probationChecksPass lens c []) s
        (loupe (setFn s lens { fnc s lens with lens := .offline, failedCheck := c }) 345 0x61 5 [lens, c])))

/-- R345, R359, R360, R606 (derived): a function level reset and CC.EN cleared end the PF's work or take an online
lens to probation, a locked one to ERROR; CC.EN set enables a controller, ready once the device is in service, and
ends a completed shutdown. R363, R367, R368 (derived): a swap of an enabled write log makes the other buffer the one
that is marked, and closes the old one with the next swap sequence; a pause of 0 or 1 is set and the lens's slots are
looked at again. -/
def Obligations.ControllerResetsAndWriteLog : Prop :=
  (∀ (s : State) (fn : Nat) (twin : Bool),
    Does (.flr ⟨0, twin⟩) s (resetClose (clearCtrl (endWork s 0) 0) 0 twin) ∧
    (fn ≠ 0 → (fnc s fn).lens = .online → tdLocked (fnc s fn) = false →
      Does (.flr ⟨fn, twin⟩) s (resetClose (lensTo s fn .probation) fn twin)) ∧
    (fn ≠ 0 → tdLocked (fnc s fn) = true → Does (.flr ⟨fn, twin⟩) s (resetClose (toError s fn) fn twin)) ∧
    ((fnc s 0).en = true → Does (.ccEnClear ⟨0, twin⟩) s (resetClose (clearCtrl (endWork s 0) 0) 0 twin)) ∧
    (fn ≠ 0 → (fnc s fn).en = true → (fnc s fn).lens = .online →
      Does (.ccEnClear ⟨fn, twin⟩) s (resetClose (lensTo s fn .probation) fn twin)) ∧
    ((fnc s fn).en = false → Does (.ccEnClear ⟨fn, twin⟩) s s) ∧
    ((fnc s fn).en = false → fn = 0 ∨ (fnc s fn).lens = .online → s.power.shutdown ≠ 2 → Does (.ccEnSet fn) s
      (setFn s fn { fnc s fn with en := true, rdy := s.rst.life == .service, shn := 0, shst := 0 })) ∧
    ((fnc s fn).en = false → fn = 0 ∨ (fnc s fn).lens = .online → s.power.shutdown = 2 → Does (.ccEnSet fn) s
      (setFn { s with power.shutdown := 0 } fn
        { fnc s fn with en := true, rdy := s.rst.life == .service, shn := 0, shst := 0 }))) ∧
  (∀ (s : State) (lens v : Nat),
    (od s 0x6300 0x01 lens = 1 → (fnc s lens).swapping = false → Does (.writeLogSwap lens) s
      (setFn s lens { fnc s lens with swapping := true })) ∧
    (od s 0x6300 0x01 lens ≠ 1 → Does (.writeLogSwap lens) s s) ∧
    ((fnc s lens).swapping = true → (fnc s lens).logActive = 0 → Does (.swapComplete lens) s (setFn s lens
      { fnc s lens with seqA := Nat.max (fnc s lens).seqA (fnc s lens).seqB + 1, logActive := 1, swapping := false })) ∧
    ((fnc s lens).swapping = true → (fnc s lens).logActive = 1 → Does (.swapComplete lens) s (setFn s lens
      { fnc s lens with seqB := Nat.max (fnc s lens).seqA (fnc s lens).seqB + 1, logActive := 0, swapping := false })) ∧
    (v ≤ 1 → Does (.lensPause lens v) s (retagFn (odSet s 0x6210 0x05 lens v) lens)))

/-- R369 to R372 (derived): over the DOE session a lens is locked from UNLOCKED, started from LOCKED and stopped from
either; its state is answered always, its report while locked; an integrity failure takes it to ERROR; an MMIO request
without the T bit is unsupported in RUN, and every one in ERROR. Of the register a request names a read answers the
value and a write changes the bits it may (R8). -/
def Obligations.DeviceInterfaces : Prop :=
  ∀ (s : State) (lens : Nat), s.rst.life = .service → 3 ∈ s.ciph.sessions → (fnc s lens).lens ≠ .disabled →
    ((fnc s lens).tdisp = .unlocked → od s 0x6300 0x01 lens ≠ 1 → ∃ report,
      Does (.lockInterface lens true) s (tdAnswer (useFree (setFn s lens
        { fnc s lens with tdisp := .locked, report := report })) 0x03 [lens])) ∧
    ((fnc s lens).tdisp ≠ .unlocked → Does (.lockInterface lens true) s (tdError s lens)) ∧
    (tdLocked (fnc s lens) = true →
      Does (.getDeviceInterfaceReport lens) s (tdAnswer s 0x04 (fnc s lens).report)) ∧
    Does (.getDeviceInterfaceState lens) s (tdAnswer s 0x05 [(fnc s lens).tdisp.code]) ∧
    ((fnc s lens).tdisp = .locked → Does (.startInterface lens) s
      (tdAnswer (setFn s lens { fnc s lens with tdisp := .run }) 0x06 [lens])) ∧
    ((fnc s lens).tdisp ≠ .locked → Does (.startInterface lens) s (tdError s lens)) ∧
    ((fnc s lens).tdisp ≠ .unlocked →
      ((fnc s lens).lens ≠ .online → (fnc s lens).lens ≠ .probation → Does (.stopInterface lens) s
        (tdAnswer (setFn s lens { fnc s lens with tdisp := .unlocked, lens := .offline, report := [] }) 0x07 [lens])) ∧
      ((fnc s lens).lens = .online ∨ (fnc s lens).lens = .probation → Does (.stopInterface lens) s
        (let t := lensTo s lens .offline
         tdAnswer (setFn t lens { fnc t lens with tdisp := .unlocked, lens := .offline, report := [] }) 0x07 [lens]))) ∧
    (∀ port, tdLocked (fnc s lens) = true →
      Does (.ideIntegrityFailure port lens) s
        (let t := odBump s 0x1020 0x03 port
         resetCloseFree (toError t lens) lens)) ∧
    (∀ port, tdLocked (fnc s lens) = false → Does (.ideIntegrityFailure port lens) s (odBump s 0x1020 0x03 port)) ∧
    (∀ tBit off w, (fnc s lens).tdisp = .error ∨ ((fnc s lens).tdisp = .run ∧ tBit = false) →
      Does (.mmioRequest lens ⟨tBit, off, w⟩) s (spdmOut s 8 1 [lens])) ∧
    (∀ tBit off, (fnc s lens).tdisp ≠ .error → (fnc s lens).tdisp ≠ .run ∨ tBit = true →
      Does (.mmioRequest lens ⟨tBit, off, none⟩) s (spdmOut s 8 0 [lens, readReg s lens off]) ∧
      ∀ w, (regMask off ≠ 0 → Does (.mmioRequest lens ⟨tBit, off, some w⟩) s (spdmOut (setFn s lens
          { fnc s lens with regs := kvPut 0 off (Nat.land w (regMask off)) (fnc s lens).regs }) 8 0 [lens])) ∧
        (regMask off = 0 → Does (.mmioRequest lens ⟨tBit, off, some w⟩) s (spdmOut s 8 0 [lens])))

/-- R383, R388 to R394 (derived): a granted link message takes a lane once the lanes have run on, and one of a host
interface uses its data key where the pager holds it or may derive it; a lane that passes its vectors is back and one
that fails them stays out with an event; an entropy failure stops every draw until a reseed passes. R403, R404, R405
(derived): an alarm 0 to 4 erases the data-key root, the loaded data keys and the running messages, is counted and
recorded, ends the work that needs a key, and during boot is a reset; an unpaired controller stays without its root
when the alarm clears, and a paired one takes it from its twin again in a session of its own. -/
def Obligations.CipherLanesDrawsAndAlarms : Prop :=
  (∀ (s : State) (lane passed : Nat) (l : List CipherReq) (r : CipherReq),
    (∀ urgent, cipherPick (runLanes s passed) l = some (r, urgent) →
      let u := runLanes s passed
      let u := if urgent then { u with ciph.urgentPtr := r.page + 1 } else { u with ciph.normalPtr := r.page + 1 }
      (512 < r.page → r.page ≤ 520 → Does (.cipherMessageGrant l passed) s
        (let t := { u with ciph.drbgUsed := u.ciph.drbgUsed + 15 * blocksOf u r }
         takeLane t (msgOf t r urgent))) ∧
      (r.page ≤ 512 → s.ciph.root.isSome = true → holdsKey u r = true ∨ mayDerive u r = true →
        Does (.cipherMessageGrant l passed) s
        (let t := useKey u r.page (r.nsid, r.gen)
         let t := { t with ciph.drbgUsed := t.ciph.drbgUsed + 15 * blocksOf t r }
         takeLane t (msgOf t r urgent))) ∧
      (s.ciph.root.isSome = true → holdsKey u r = false → mayDerive u r = false →
        Does (.cipherMessageGrant l passed) s (refuseKey u r)) ∧
      (r.page ≤ 512 → s.ciph.root = none → Does (.cipherMessageGrant l passed) s u)) ∧
    (cipherPick (runLanes s passed) l = none → Does (.cipherMessageGrant l passed) s (runLanes s passed)) ∧
    (∀ m, (lanesUp s).find? (fun l => (Machine.lane s l).run.isNone) = some lane →
      takeLane s m = setLane s lane { run := some m, saved := none }) ∧
    (lane ∈ s.ciph.badLanes → Does (.laneReturn lane true) s
      { s with ciph.badLanes := s.ciph.badLanes.filter fun l => l != lane }) ∧
    (lane ∈ s.ciph.badLanes → Does (.laneReturn lane false) s (loupe s 394 0x70 5 [lane])) ∧
    Does .entropyHealthFailure s (loupe { s with ciph.drbgOk := false } 393 0x70 6 []) ∧
    Does (.drbgReseed true) s { s with ciph.drbgOk := true, ciph.drbgUsed := 0 } ∧
    Does (.drbgReseed false) s (loupe { s with ciph.drbgOk := false } 393 0x70 6 [])) ∧
  (∀ (s : State) (alarm : Nat),
    (alarm < 5 →
      let t := odKeep s 0x7000 0x04 (od s 0x7000 0x04 alarm + 1) alarm
      let t := loupe (eraseKeys { t with ciph.alarms := setBit alarm s.ciph.alarms }) 403 0x70
        (alarmSeverity alarm) [alarm]
      t.ciph.root = none ∧ t.ciph.erased = true ∧ t.ciph.cache = [] ∧ t.ciph.alarms = setBit alarm s.ciph.alarms ∧
      t.ciph.loaded = s.ciph.loaded.filter (fun p => decide (512 < p)) ∧
      (s.rst.life = .service → pairRole (alarmLenses (alarmWork t)) = 0 →
        Does (.cipherAlarm alarm) s (alarmLenses (alarmWork t))) ∧
      (s.rst.life = .service → pairRole (alarmLenses (alarmWork t)) ≠ 0 → (alarmLenses (alarmWork t)).pair.ana ≠ 3 →
        Does (.cipherAlarm alarm) s (let v := alarmLenses (alarmWork t)
          (enabledFns v).foldl (fun s n => aen s n 2 3) v)) ∧
      (s.rst.life = .stage1 → Does (.cipherAlarm alarm) s
        (raise { t with ciph.alarmResets := t.ciph.alarmResets + 1 } 8 2))) ∧
    (5 ≤ alarm → Does (.cipherAlarm alarm) s s) ∧
    (pairRole s = 0 → Does .alarmClearRecover s { s with ciph.alarms := 0 }) ∧
    (pairRole s ≠ 0 → s.ciph.erased = true → s.pair.linkUp = true → s.pair.ana = 3 → Does .alarmClearRecover s
      (let t := sendFrame { s with ciph.alarms := 0, pair.session := true, pair.secret := freeVal s
                                   pair.sessionId := freeVal (useFree s), free := s.free + 2 } 0 0x05 [0xE4]
       { t with ciph.root := t.ciph.stored, ciph.erased := false })))

/-- R418 to R421 (derived): a valid image replaces its slot's image, and with the activating forms is chosen; a slot
whose image is valid and not below the minimum version is chosen; an image or a slot that fails its checks answers
with the failing check and nothing changes; action 011b fails with 0x02; the minimum security version rises to at most
63 and never falls. -/
def Obligations.FirmwareCommits : Prop :=
  ∀ (s : State) (a : Adm) (slot i v : Nat) (f : ImageFacts),
    (AdminServed s a → fwSlotIndex s slot = some i →
      (imageStatus s f = none → Does (.firmwareCommitReplace a slot f) s
          (adminDone { s with ciph.slots := s.ciph.slots.set i (slotOf f) } a 0) ∧
        Does (.firmwareCommitReplaceActivate a slot f) s
          (adminDone { s with ciph.slots := s.ciph.slots.set i (slotOf f), ciph.chosen := i } a 0)) ∧
      (∀ st, imageStatus s f = some st → Does (.firmwareCommitReplace a slot f) s (adminDone s a st) ∧
        Does (.firmwareCommitReplaceActivate a slot f) s (adminDone s a st)) ∧
      (storedStatus s i = none → Does (.firmwareCommitActivate a slot) s (adminDone { s with ciph.chosen := i } a 0)) ∧
      (∀ st, storedStatus s i = some st → Does (.firmwareCommitActivate a slot) s (adminDone s a st))) ∧
    (AdminServed s a → Does (.firmwareCommitImmediate a) s (adminDone s a 0x002)) ∧
    (s.ciph.otpMin < v → v ≤ 63 → Does (.raiseMinimum v) s { s with ciph.otpMin := v }) ∧
    (v ≤ s.ciph.otpMin ∨ 63 < v → Does (.raiseMinimum v) s s)

/-- R413 to R417 (derived; the message codes are the model's choice, log entry 15): the SPDM answers of a device whose
attestation is up. -/
def Obligations.SpdmAnswers : Prop :=
  ∀ (s : State) (b : Binding) (slot nonce c : Nat), spdmUp s = true →
    Does (.negotiateAlgorithms b true true true true true) s
      (spdmOut { s with ciph.negotiated := addTo b s.ciph.negotiated } b 0x63 []) ∧
    (certChain s slot = some c → Does (.getCertificate b slot) s (spdmOut s b 0x02 [slot, c])) ∧
    (certChain s slot = some c → s.ciph.drbgOk = true → Does (.challenge b slot nonce) s
      (spdmOut (useDraw s) b 0x03 [slot, Config.sha384 0 c, draw s, signature (nonce + draw s * 2 ^ 256)])) ∧
    (∀ i, 1 ≤ i → i ≤ 16 → Does (.getMeasurements b i nonce false) s
      (spdmOut s b 0x60 [i, 0x08, s.ciph.ms.getD (i - 1) 0])) ∧
    (∀ secret, sessionsFull s b = false → s.ciph.drbgOk = true → ∃ words, Does (.keyExchange b secret) s
      (spdmOut { useDraw s with ciph.sessions := s.ciph.sessions ++ [b] } b 0x64 words)) ∧
    (b ∈ s.ciph.sessions → b < 4 → Does (.endSession b) s
      (spdmOut { s with ciph.sessions := s.ciph.sessions.erase b } b 0x6C [])) ∧
    (4 ∈ s.ciph.sessions → Does (.endSession 4) s
      (spdmOut { s with ciph.sessions := s.ciph.sessions.erase 4, pair.session := false } 4 0x6C [])) ∧
    (∀ p : Nat, 1 ≤ p → p + 4 ∈ s.ciph.sessions → Does (.endSession (p + 4)) s
      (spdmOut (setMember { s with ciph.sessions := s.ciph.sessions.erase (p + 4) } p
        { member s p with session := false }) (p + 4) 0x6C [])) ∧
    (∀ chain, b ∈ s.ciph.sessions → Does (.setCertificate b 1 chain identityKey true) s
      (spdmOut { s with ciph.slot1 := some chain } b 0x6E [1])) ∧
    (∀ sequence r, recordOf s sequence = some r → Does (.vendorDefinedRequest b 3 0x1F3B sequence) s
      (spdmOut s b 0x7E [0, r.value]))

/-- R424, R579, R581 (derived): a level change drives the new voltage code with the window that covers both levels,
waits for VDD_PG, and then takes effect; after 1 ms without VDD_PG the previous code is driven and the level stays,
with no faster one until reset. R440 (derived): a cycle in band is counted with its share of the range; a period out
of band starts the fallback, which 10 ms make an event of, and 16 valid cycles restore the input. -/
def Obligations.LevelChangesAndPowerCap : Prop :=
  (∀ (s : State),
    (s.pwr.step = .idle → levelChoice s ≠ s.pwr.level → s.pwr.sleep = 0 → ∃ t, Does .levelChangeStart s t ∧
      t.pwr.target = levelChoice s ∧ t.pwr.vsel = levelChoice s ∧ t.pwr.prevVsel = s.pwr.vsel ∧
      t.pwr.step = .voltage ∧ t.pwr.level = s.pwr.level ∧ t.dies = s.dies ∧ t.zones = s.zones ∧
      t.pwr.alarmLo = Nat.min (levelMv (levelChoice s)) (levelMv s.pwr.level) * 92 / 10 ∧
      t.pwr.alarmHi = Nat.max (levelMv (levelChoice s)) (levelMv s.pwr.level) * 108 / 10) ∧
    (levelChoice s = s.pwr.level → Does .levelChangeStart s s) ∧
    (s.pwr.step = .voltage → Does .vddPgRise s (setWindow { s with pwr.vddPg := true, pwr.step := .bias }
      (levelMv s.pwr.target) (levelMv s.pwr.target))) ∧
    (s.pwr.step ≠ .voltage → Does .vddPgRise s { s with pwr.vddPg := true }) ∧
    (s.pwr.step = .bias → Does .levelChangeDone s
      (odBump { s with pwr.level := s.pwr.target, pwr.clk := s.pwr.target, pwr.bias := s.pwr.target
                       pwr.step := .idle } 0x8000 0x05)) ∧
    (s.pwr.step = .voltage → ∃ t, Does .vddPgTimeout s t ∧ t.pwr.level = s.pwr.level ∧ t.pwr.vsel = s.pwr.prevVsel ∧
      t.pwr.step = .idle ∧ t.pwr.pgCap = s.pwr.level) ∧
    (s.pwr.step ≠ .voltage → Does .vddPgTimeout s s) ∧
    (s.pwr.step = .idle → Does .vddPgFall s (loupe { s with pwr.vddPg := false } 579 0xB0 5 [])) ∧
    (s.pwr.step ≠ .idle → Does .vddPgFall s { s with pwr.vddPg := false })) ∧
  (∀ (s : State) (period high : Nat),
    (1000 ≤ period → period ≤ 100000 → s.pwr.pcapCond = 0 → Does (.pcapPRisingEdge period high) s
      { s with pwr.pcapGood := s.pwr.pcapGood + 1, pwr.pcapCount := s.pwr.pcapCount + 1
               pwr.pcapSum := s.pwr.pcapSum + od s 0x8100 0x02 * 1000 +
                 Nat.min high period * (od s 0x8100 0x03 - od s 0x8100 0x02) * 1000 / period }) ∧
    (1000 ≤ period → period ≤ 100000 → s.pwr.pcapCond ≠ 0 → Does (.pcapPRisingEdge period high) s
      { s with pwr.pcapGood := s.pwr.pcapGood + 1 }) ∧
    (period < 1000 ∨ 100000 < period → Does (.pcapPRisingEdge period high) s
      { s with pwr.pcapGood := 0, pwr.pcapCond := if s.pwr.pcapCond = 0 then 1 else s.pwr.pcapCond }) ∧
    Does .pcapPTimeout s
      { s with pwr.pcapGood := 0, pwr.pcapCond := if s.pwr.pcapCond = 0 then 1 else s.pwr.pcapCond } ∧
    (s.pwr.pcapCond = 1 → s.pwr.pcapGood = 0 → Does .pcapPFallback s
      (loupe (odBump { s with pwr.pcapCond := 2 } 0x8100 0x07) 440 0x81 4 [])) ∧
    (s.pwr.pcapCond ≠ 0 → 16 ≤ s.pwr.pcapGood → Does .pcapPRestore s
      (loupe { s with pwr.pcapCond := 0, pwr.pcapSum := 0, pwr.pcapCount := 0 } 440 0x81 2 [])) ∧
    (s.pwr.pcapGood < 16 → Does .pcapPRestore s s))

/-- R429 to R432 (derived): the sources of a sleep request, and the entry they lead to: the idle timer asks for SL1,
PS3 and PS4 for SL1 and SL2, D3hot in L1.2 for SL2; an entry asks its first block, an answer is taken in turn until
the last one puts the device to sleep, a refusal or a late answer rolls the entry back, a standing request is tried
again, and work withdraws the idle timer's request (log entry 96). R435 (derived): a wake event of SL1 ends it, one of
SL2 restores the retained state, one that finds an entry ends the entry, one of SL3 is a device reset, and an event
that does not wake from the state changes nothing. -/
def Obligations.SleepAndWake : Prop :=
  (∀ (s : State) (a : Adm) (ps level us : Nat),
    (od s 0x8010 0x04 ≠ 0 → hostBusy s = false → dieActive s = false → backgroundRuns s = false →
      Does .idleTimerExpiry s { s with pwr.idleReq := 1 }) ∧
    (AdminServed s a → ps ≤ 4 → Does (.setFeaturesPowerManagement a ps) s
      (adminDone { s with pwr.ps := ps, pwr.nvmeReq := if ps = 3 then 1 else if ps = 4 then 2 else 0 } a 0)) ∧
    (ps = 3 ∨ ps = 4 → s.pwr.ps < ps → hostBusy s = false → Does (.apstTransition ps) s
      { s with pwr.ps := ps, pwr.nvmeReq := if ps = 3 then 1 else 2 }) ∧
    Does (.pciD3hot true) s { s with host.d3hot := true, pwr.pciReq := 2 } ∧
    Does (.pciD3hot false) s { s with host.d3hot := true } ∧
    (level ≤ 3 → sleepRefused s level = none → Does (.managementSleepRequest level) s
      (odSet { s with pwr.mgmtReq := level } 0x8010 0x02 0 level)) ∧
    (∀ b, level ≤ 3 → sleepRefused s level = some b → Does (.managementSleepRequest level) s
      (rollBack s b (blockHoldOff b (freeVal s % 2 ^ 32)))) ∧
    (hostBusy s = false → dieActive s = false → s.pwr.sleep < sleepAim s → s.pwr.entering = none →
      s.power.hold = .running → s.rst.life = .service → sleepAim s ≠ 3 ∨ s.power.shutdown = 2 →
      Does .sleepEntry s { s with pwr.entering := some (sleepAim s), pwr.asked := 1, pwr.stopped := [] } ∧
      (s.pwr.retryDue = true → Does .sleepRetry s
        { s with pwr.entering := some (sleepAim s), pwr.asked := 1, pwr.stopped := [], pwr.retryDue := false })) ∧
    (hostBusy s = false → dieActive s = false → sleepAim s = 3 → s.pwr.sleep < 3 → s.pwr.entering = none →
      s.power.hold = .running → s.rst.life = .service → s.power.shutdown = 0 →
      Does .sleepEntry s (loupeFlush { s with power.shutdown := 1, power.shutdownFn := 0 })) ∧
    (hostBusy s = true → sleepAim { s with pwr.idleReq := 0 } ≤ s.pwr.sleep →
      Does .sleepEntry s { s with pwr.idleReq := 0 }) ∧
    (∀ l x, s.pwr.entering = some l → s.pwr.asked ≠ 2 → s.pwr.asked ≠ 5 → mustRefuse s s.pwr.asked = false →
      nextBlock l s.pwr.asked = some x → Does (.sleepBlockAnswer true us) s
        { s with pwr.stopped := s.pwr.stopped ++ [s.pwr.asked], pwr.asked := x }) ∧
    (∀ l, s.pwr.entering = some l → s.pwr.asked ≠ 2 → s.pwr.asked ≠ 5 → mustRefuse s s.pwr.asked = false →
      nextBlock l s.pwr.asked = none → Does (.sleepBlockAnswer true us) s
        (fallAsleep { s with pwr.stopped := s.pwr.stopped ++ [s.pwr.asked] } l)) ∧
    (∀ l, s.pwr.entering = some l → neverRefuses s s.pwr.asked = false → Does (.sleepBlockAnswer false us) s
      (rollBack s s.pwr.asked (blockHoldOff s.pwr.asked us))) ∧
    (s.pwr.entering ≠ none → ∃ t, Does .sleepAnswerTimeout s t ∧ t.pwr.entering = none ∧ t.pwr.stopped = [] ∧
      t.pwr.sleep = s.pwr.sleep)) ∧
  (∀ (s : State) (event : Nat) (ok : Bool), event ≠ 5 ∨ s.rst.rtcStopped = false →
    (s.pwr.entering = none → s.pwr.sleep = 1 → wakesFrom event 1 = true →
      Does (.wakeEvent event ok) s { clearDeep event s with pwr.sleep := 0 }) ∧
    (s.pwr.entering = none → s.pwr.sleep = 2 → wakesFrom event 2 = true →
      Does (.wakeEvent event ok) s (wakeRetained (clearDeep event s) ok)) ∧
    (s.pwr.entering = none → s.pwr.sleep = 3 → wakesFrom event 3 = true →
      Does (.wakeEvent event ok) s (deviceReset { clearDeep event s with pwr.sleep := 0 } false)) ∧
    (∀ l, s.pwr.entering = some l → l ≠ 0 → wakesFrom event l = true → Does (.wakeEvent event ok) s
      { clearDeep event s with pwr.entering := none, pwr.stopped := [], pwr.asked := 0 }) ∧
    (s.pwr.entering = none → wakesFrom event s.pwr.sleep = false → Does (.wakeEvent event ok) s s))

/-- R249, R250, R436 to R438 (derived): a period's conversions give the powers and temperatures; the critical state
ends 3 °C below its limit; a trip condition raises TRIP# and a thermal reset; the seconds count on with the
temperature's bin and the ten-minute maximum, and the health statistics are saved. -/
def Obligations.MeasurementsAndHeat : Prop :=
  ∀ (s : State) (sums : List Nat) (a : Nat) (temps : List Int),
    (∃ t, Does (.adcPeriod sums a temps) s t ∧ t.pwr.composite = max t.pwr.dieMax t.pwr.packageMax ∧
      (∀ m, temps.max? = some m → t.pwr.dieMax = m) ∧ t.zones = s.zones ∧ t.dies = s.dies ∧ t.dram = s.dram) ∧
    (s.pwr.composite + 3000 ≤ milliC (od s 0x8300 0x02) →
      Does .thermalCriticalExit s { s with pwr.critical := false }) ∧
    (milliC (od s 0x8300 0x02) < s.pwr.composite + 3000 → Does .thermalCriticalExit s s) ∧
    (pastTrip s 0 = false → Does .thermalTrip s s) ∧
    (pastTrip s 0 = true → Does .thermalTrip s (let u := raise { s with pins.trip := true } 7
      if pastTrip u 5000 ∧ u.power.hold = .flush then deviceReset u false else u)) ∧
    (∃ t, Does .temperatureSample s t ∧ t.health.seconds = s.health.seconds + 1 ∧ t.zones = s.zones ∧
      t.dict = s.dict ∧
      t.health.hist = (let bin := (clampInt 0 63 ((s.pwr.composite + 20000).fdiv 2000)).toNat
        kvPut 0 bin (kvGet 0 bin s.health.hist + 1) s.health.hist) ∧
      ((s.health.seconds + 1) % 600 = 0 → t.health.maxNow = none)) ∧
    Does .healthSave s (saveHealth s) ∧
    (saveHealth s).health.savedOd =
      s.dict.od.foldl (fun m e => if healthKey e.1 then kvPut 0 e.1 e.2 m else m) []

/-- R445, R447 (derived): the accumulator instructions, whose value is computed exactly and then saturated to 40 bits.
R444, R447 (derived): the data word instructions write words 0x20 and up, and sts rounds to nearest with ties upward
and saturates; an input word is write-protected. R443, R447 (derived): clp limits and marks it, cmp sets Z and N from
the exact difference, br goes to its target below the code length when its condition holds, and end stops the run with
its words kept, and in service gives out its outputs. -/
def Obligations.LoopInstructions : Prop :=
  (∀ (s : State) (k : Nat) (w : Word32), k ≤ 1 →
    let a := (eng s k).acc (lwA w)
    let m := kvGet 0 (lwM w) (eng s k).d
    let n := kvGet 0 (lwN w) (eng s k).d
    (LoopReady s k 0x00 w → Does (.loopNop k w) s (loopNext s k)) ∧
    (LoopReady s k 0x01 w → Does (.lda k w) s (accWrites s k w (m * 2 ^ 15))) ∧
    (LoopReady s k 0x02 w → Does (.add k w) s (accWrites s k w (a + m * 2 ^ 15))) ∧
    (LoopReady s k 0x03 w → Does (.sub k w) s (accWrites s k w (a - m * 2 ^ 15))) ∧
    (LoopReady s k 0x04 w → Does (.mpy k w) s (accWrites s k w (m * n))) ∧
    (LoopReady s k 0x05 w → Does (.mac k w) s (accWrites s k w (a + m * n))) ∧
    (LoopReady s k 0x06 w → Does (.msu k w) s (accWrites s k w (a - m * n))) ∧
    (LoopReady s k 0x07 w → 0 ≤ lwXs w → lwXs w ≤ 15 →
      Does (.sha k w) s (accWrites s k w (a * 2 ^ (lwXs w).toNat))) ∧
    (LoopReady s k 0x07 w → -16 ≤ lwXs w → lwXs w < 0 →
      Does (.sha k w) s (accWrites s k w (a.fdiv (2 ^ (-lwXs w).toNat))))) ∧
  (∀ (s : State) (k : Nat) (w : Word32), k ≤ 1 →
    let a := (eng s k).acc (lwA w)
    let m := kvGet 0 (lwM w) (eng s k).d
    let n := kvGet 0 (lwN w) (eng s k).d
    (LoopReady s k 0x08 w → 0x20 ≤ lwM w → Does (.sts k w) s (setEng (loopNext s k) k { loopTicked s k with
      d := kvPut 0 (lwM w) (max (-32768) (min 32767 ((a + 2 ^ 14).fdiv (2 ^ 15)))) (eng s k).d
      s := (eng s k).s || (max (-32768) (min 32767 ((a + 2 ^ 14).fdiv (2 ^ 15))) != (a + 2 ^ 14).fdiv (2 ^ 15)) })) ∧
    (LoopReady s k 0x0A w → 0x20 ≤ lwM w → Does (.min k w) s (wordWrites s k w (Min.min m n))) ∧
    (LoopReady s k 0x0B w → 0x20 ≤ lwM w → Does (.max k w) s (wordWrites s k w (Max.max m n))) ∧
    (LoopReady s k 0x0C w → 0x20 ≤ lwM w → Does (.ldi k w) s (wordWrites s k w (lwImm w))) ∧
    (LoopReady s k 0x0D w → 0x20 ≤ lwM w → Does (.mov k w) s (wordWrites s k w n)) ∧
    (LoopReady s k 0x10 w → 0x20 ≤ lwM w →
      Does (.adi k w) s (wordWrites s k w (max (-32768) (min 32767 (m + lwXs w))))) ∧
    (LoopReady s k 0x0D w → lwM w < 0x20 → Does (.mov k w) s (engineFault (loopNext s k) k 3))) ∧
  (∀ (s : State) (k : Nat) (w : Word32), k ≤ 1 →
    let a := (eng s k).acc (lwA w)
    let m := kvGet 0 (lwM w) (eng s k).d
    let n := kvGet 0 (lwN w) (eng s k).d
    let v := Min.min (Max.max a (m * 2 ^ 15)) (n * 2 ^ 15)
    (LoopReady s k 0x09 w → Does (.clp k w) s (setEng (loopNext s k) k
      { (loopTicked s k).setAcc (lwA w) v with c := (eng s k).c || v != a })) ∧
    (LoopReady s k 0x0E w → Does (.cmp k w) s (setEng (loopNext s k) k
      { loopTicked s k with z := m - n == 0, n := decide (m - n < 0) })) ∧
    (LoopReady s k 0x0F w → loopCond (eng s k) a (lwN w) = some true → lwX w < loopLen (eng s k) →
      Does (.loopBr k w) s (setEng (loopNext s k) k { loopTicked s k with pc := lwX w })) ∧
    (LoopReady s k 0x0F w → loopCond (eng s k) a (lwN w) = some true → loopLen (eng s k) ≤ lwX w →
      Does (.loopBr k w) s (engineFault (loopNext s k) k 4)) ∧
    (LoopReady s k 0x0F w → loopCond (eng s k) a (lwN w) = some false → Does (.loopBr k w) s (loopNext s k)) ∧
    (LoopReady s k 0x1F w → (eng s k).phase = 2 → Does (.loopEnd k w) s (setEng (loopNext s k) k { loopTicked s k with
      running := false, lastD := (eng s k).d, ticks := (eng s k).ticks + 1, shadow := (eng s k).shadow + 1 })) ∧
    (LoopReady s k 0x1F w → (eng s k).phase = 3 → Does (.loopEnd k w) s
      (loopOutputs (setEng (loopNext s k) k { loopTicked s k with
        running := false, lastD := (eng s k).d, ticks := (eng s k).ticks + 1 }) k (loopTicked s k))))

/-- R441, R442, R447, R449, R451 (derived): a tick in mode 0 starts no run, one in mode 1 starts engine 0 on the
inputs it latched, a run past its tick or its 4,096 instructions is a fault, an image that is not acceptable is
refused with an event, and a returned engine goes through its self-test and its 1,024 shadow runs to service. -/
def Obligations.LoopControl : Prop :=
  ∀ (s : State) (k image : Nat), k ≤ 1 →
    (loopUp s = false → Does .loopTick s s) ∧
    (loopUp s = true → s.loop.mode = 0 → (eng s 0).running = false → (eng s 1).running = false →
      s.loop.e1.image = none → ∃ t,
      Does .loopTick s t ∧ (eng t 0).running = false ∧ (eng t 1).running = false ∧
      t.loop.e1.tickNo = s.loop.e1.tickNo + 1 ∧ t.free = s.free + 16) ∧
    (loopUp s = true → s.loop.mode = 1 → (eng s 0).running = false → (eng s 1).running = false →
      (eng s 0).image = none → (eng s 1).image = none → (eng s 0).phase = 2 ∨ (eng s 0).phase = 3 → ∃ t,
      Does .loopTick s t ∧ (eng t 0).running = true ∧ (eng t 0).pc = 0 ∧ (eng t 0).count = 0 ∧
      (eng t 0).d = kvPutRun 0 0 (inputWords s 0) (eng s 0).d ∧ (eng t 1).running = false ∧
      t.loop.e1.tickNo = s.loop.e1.tickNo + 1 ∧ t.free = s.free + 16) ∧
    ((eng s k).running = true → Does (.loopOverrun k) s (engineFault s k 6)) ∧
    ((eng s k).running = false → Does (.loopOverrun k) s s) ∧
    ((eng s k).running = true → 4096 ≤ (eng s k).count → Does (.loopInstructionLimit k) s (engineFault s k 5)) ∧
    (loopImageOk s k image = false → Does (.loopProgramLoad k image) s (loupe s 212 0x82 4 [k])) ∧
    (loopImageOk s k image = true → ∃ t, Does (.loopProgramLoad k image) s t ∧ (eng t k).image = some image) ∧
    ((eng s k).phase = 4 → Does (.engineReturn k) s (setEng s k { eng s k with phase := 1, running := false })) ∧
    ((eng s k).phase = 1 → Does (.engineSelfTestDone k (Config.goldenLoop k)) s (setEng s k { eng s k with
      phase := 2, shadow := 0, a1 := if k = 0 then s.loop.uInForce * 2 ^ 15 else (eng s k).a1 })) ∧
    (∀ g, (eng s k).phase = 1 → g ≠ Config.goldenLoop k → Does (.engineSelfTestDone k g) s
      (loupe (odSet (setEng s k { eng s k with phase := 0 }) 0x8210 0x04 k 7) 451 0x82 5 [k])) ∧
    ((eng s k).phase = 2 → 1024 ≤ (eng s k).shadow →
      Does (.engineShadowDone k) s (setEng s k { eng s k with phase := 3, late := true })) ∧
    ((eng s k).phase = 2 → (eng s k).shadow < 1024 → Does (.engineShadowDone k) s s)

/-- R497, R501, R511: a granted write of a whole codeword below the capacity puts its 64 bytes at its address, and no
other byte changes but in a block that was not yet initialised, which becomes zero; an address beyond the capacity
faults. -/
def Obligations.DramWriteReadsBack : Prop :=
  ∀ (s : State) (ch k : Nat) (l : List DramReq) (p : PathRes) (r : DramReq) (data : List Byte),
    kvWf 0 s.dram.mem → (dchan s ch).state < 2 → dramPick (dchan s ch) l = some (r, k) →
    (dramCapacity s ≤ r.address → exec (.dramRequestGrant ch l p) s = .fault (.noSuchAddress r.address)) ∧
    (r.address < dramCapacity s → (dramLoc s.dram.ranks r.address).chan = ch → r.write = some data →
      r.address % 64 = 0 → data.length = 64 → ∃ t, Does (.dramRequestGrant ch l p) s t ∧
        (∀ i (h : i < data.length), kvGet 0 (r.address + i) t.dram.mem = data[i]) ∧
        (∀ a, a < r.address ∨ r.address + 64 ≤ a →
          a / 65536 ≠ r.address / 65536 ∨ blockReady s (r.address / 65536) = true →
          kvGet 0 a t.dram.mem = kvGet 0 a s.dram.mem) ∧
        (∀ a, a < r.address ∨ r.address + 64 ≤ a → a / 65536 = r.address / 65536 →
          blockReady s (r.address / 65536) = false → kvGet 0 a t.dram.mem = 0) ∧
        t.zones = s.zones ∧ t.host = s.host ∧ t.dies = s.dies)

/-- R501 (derived): a granted clean read delivers the 64 bytes of its codeword, tagged with its port and number (a
port that sends to the host, the twin or a member gets zeroes for the bytes the buffer's owner has not written, R527),
and leaves the bytes of an initialised block as they are. R494, R503, R506, R511 to R515 (derived): the channel's
upkeep. An aged port is promoted once and counted, a row closes, a refresh closes its bank's row, MR4 sets the rate,
an idle channel enters self-refresh, an uninitialised block becomes zero, and a clean scrub read of an initialised
block changes no byte. -/
def Obligations.DramReadsAndUpkeep : Prop :=
  (∀ (s : State) (ch k : Nat) (l : List DramReq) (r : DramReq),
    (dchan s ch).state < 2 → dramPick (dchan s ch) l = some (r, k) → r.address < dramCapacity s →
    (dramLoc s.dram.ranks r.address).chan = ch → r.write = none → blockReady s (r.address / 65536) = true →
    ∃ t, Does (.dramRequestGrant ch l .clean) s t ∧ t.dram.mem = s.dram.mem ∧
      t.dram.delivered = some (r.req.port, r.req.id, deliver s r.req.port r.address) ∧
      (sendsOut r.req.port = false →
        t.dram.delivered = some (r.req.port, r.req.id, codeword s r.address)) ∧
      (kvWf {} s.dram.chans → (dchan t ch).state = 0)) ∧
  (∀ (s : State) (ch port bank code block a : Nat) (lim : Bool),
    ((dchan s ch).promoted.contains port = false → Does (.agePromotion ch port) s (odBump (setDchan s ch
      { dchan s ch with promoted := (dchan s ch).promoted ++ [port] }) 0x9010 0x09 ch)) ∧
    ((dchan s ch).promoted.contains port = true → Does (.agePromotion ch port) s s) ∧
    Does (.rowClose ch bank) s (setDchan s ch { dchan s ch with open_ := kvPut 0 bank 0 (dchan s ch).open_ }) ∧
    ((dchan s ch).state ≠ 1 → Does (.dramRefresh ch bank lim) s (setDchan s ch { dchan s ch with
      open_ := kvPut 0 bank 0 (dchan s ch).open_, refreshes := (dchan s ch).refreshes + 1 })) ∧
    ((dchan s ch).state = 1 → Does (.dramRefresh ch bank lim) s s) ∧
    Does (.mr4Poll ch code) s (setDchan s ch { dchan s ch with refreshRate := code }) ∧
    (od s 0x9000 0x05 ≠ 0 → (dchan s ch).state = 0 → (dchan s ch).retrain = false → s.power.hold = .running →
      Does (.selfRefreshEntry ch) s
        (odBump (setDchan s ch { dchan s ch with state := 1, open_ := [] }) 0x9010 0x05 ch)) ∧
    (block * 65536 < dramCapacity s → blockReady s block = false → kvWf 0 s.dram.mem → ∃ t,
      Does (.dramInitBlock block) s t ∧ (∀ x, x / 65536 = block → kvGet 0 x t.dram.mem = 0) ∧
      ∀ x, x / 65536 ≠ block → kvGet 0 x t.dram.mem = kvGet 0 x s.dram.mem) ∧
    (a < dramCapacity s → blockReady s (a / 65536) = true → ∃ t, Does (.scrubRead a .clean false) s t ∧
      t.dram.mem = s.dram.mem ∧ t.zones = s.zones) ∧
    (dramCapacity s ≤ a → exec (.scrubRead a .clean false) s = .fault (.noSuchAddress a)) ∧
    (dramCapacity s ≤ block * 65536 →
      exec (.dramInitBlock block) s = .fault (.noSuchAddress (block * 65536))))

/-- R516 to R518 (derived): the next channel's retrain is due at each start and the turn moves on modulo 8; its pauses
follow one another, a class 0 burst gives way only to a late one, a drift in range is recorded, one out of range
repeats the retrain once and then asks for the full retraining, which ends it or is a device reset. -/
def Obligations.DramRetraining : Prop :=
  ∀ (s : State) (ch : Nat) (drift : Int), kvWf {} s.dram.chans →
    (∃ t, Does .retrainStart s t ∧ t.dram.nextRetrain = (s.dram.nextRetrain + 1) % 8 ∧
      (dchan t s.dram.nextRetrain).retrain = true ∧ t.dram.mem = s.dram.mem) ∧
    ((dchan s ch).retrain = true → (dchan s ch).state ≠ 3 → s.power.hold = .running →
      ((dchan s ch).pauses = 0 → Does (.retrainPause ch false drift true) s
        (setDchan s ch { dchan s ch with pauses := 1 })) ∧
      ((dchan s ch).pauses = 1 → Does (.retrainPause ch false drift true) s
        (setDchan (odSet s 0x9010 0x06 ch (ofSigned 16 drift)) ch { dchan s ch with pauses := 2 })) ∧
      ((dchan s ch).pauses = 1 → (dchan s ch).again = false → Does (.retrainPause ch false drift false) s
        (setDchan s ch { dchan s ch with pauses := 0, again := true })) ∧
      ((dchan s ch).pauses = 1 → (dchan s ch).again = true → Does (.retrainPause ch false drift false) s
        (loupe (setDchan s ch { dchan s ch with state := 3 }) 518 0x90 5 [ch])) ∧
      ((dchan s ch).pauses = 0 → (dchan s ch).late = true → Does (.retrainPause ch true drift true) s
        (setDchan (odBump s 0x9010 0x03 ch) ch { dchan s ch with pauses := 1 })) ∧
      ((dchan s ch).late = false → Does (.retrainPause ch true drift true) s s) ∧
      ((dchan s ch).pauses = 2 → Does (.retrainPause ch false drift true) s (retrainDone s ch))) ∧
    ((dchan s ch).state = 3 → Does (.fullRetraining ch false) s (raise (loupe s 518 0x90 7 [ch]) 8 4)) ∧
    ((dchan s ch).state = 3 → ∃ t, Does (.fullRetraining ch true) s t ∧ (dchan t ch).state = 0 ∧
      (dchan t ch).retrain = false) ∧
    ((dchan s ch).state ≠ 3 → ∀ ok, Does (.fullRetraining ch ok) s s)

/-- R522, R524 to R526, R529 (derived): a grant of a pool goes to the pick of its waiting requests; a returned buffer
goes to the head of its free list, and one the memory lost is taken out of use, and a buffer that is not out is
refused and counted; a rebuild ends with the free buffers in ascending order; a class 1 wait that times out ends its
read with Command Interrupted. -/
def Obligations.BufferPools : Prop :=
  ∀ (s : State) (p : Nat) (l : List Req) (ok : Bool) (r : Req) (a who t b rid : Nat),
    (poolPick (pool (poolWait s p l) p) (pool (poolWait s p l) p).waiting = some r →
      Does (.bufferAllocate p l ok) s (updatePool (poolGrant (poolWait s p l) p r ok) p)) ∧
    (poolPick (pool (poolWait s p l) p) (pool (poolWait s p l) p).waiting = none →
      Does (.bufferAllocate p l ok) s (updatePool (poolWait s p l) p)) ∧
    (bufferAt (pool s p) p a = some (t, b) → kvGet 0 b ((pool s p).tier t).allocated ≠ 0 →
      ((pool s p).tier t).toRemove = [] → Does (.bufferReturn p a who false) s
        (updatePool (setPool s p ((pool s p).setTier t { (pool s p).tier t with
          allocated := kvPut 0 b 0 ((pool s p).tier t).allocated, stack := b :: ((pool s p).tier t).stack })) p)) ∧
    (bufferAt (pool s p) p a = none → Does (.bufferReturn p a who false) s
      (loupe (odBump s 0x9200 0x0E p) 524 0x92 6 [p, who])) ∧
    (((pool s p).tier t).rebuilding = true → Does (.freeListRebuildDone p t) s
      (let free := (List.range ((pool s p).tier t).fresh).filter fun b =>
         kvGet 0 b ((pool s p).tier t).allocated == 0 && !((pool s p).tier t).removed.contains b
       setPool s p ((pool s p).setTier t { (pool s p).tier t with rebuilding := false, stack := free }))) ∧
    (((pool s p).tier t).rebuilding = false → Does (.freeListRebuildDone p t) s s) ∧
    ((pool s p).waiting.contains r = true → r.cls = 0 → Does (.bufferWaitTimeout p r rid) s
      (let u := odBump s 0x9200 0x0C p
       loupe (setPool u p { pool s p with urgent := some r }) 529 0x92 6 [p, r.port])) ∧
    (∀ k, (pool s p).waiting.contains r = true → r.cls = 1 → cmd? s rid = some k →
      Does (.bufferWaitTimeout p r rid) s
        (let u := odBump s 0x9200 0x0C p
         let u := setPool u p { pool u p with waiting := (pool u p).waiting.filter fun q => q != r }
         finishCmd { u with reads := u.reads.filter fun x => x.rid != rid } { k with status := 0x021 })) ∧
    ((pool s p).waiting.contains r = false → Does (.bufferWaitTimeout p r rid) s s) ∧
    (bufferAt (pool s p) p a = some (1, b) → kvGet 0 b ((pool s p).tier 1).allocated ≠ 0 →
      ((pool s p).tier 1).toRemove = [] → Does (.bufferReturn p a who true) s
        (updatePool (setPool s p ((pool s p).setTier 1 { (pool s p).tier 1 with
          allocated := kvPut 0 b 0 ((pool s p).tier 1).allocated
          removed := addTo b ((pool s p).tier 1).removed })) p)) ∧
    (∀ u x c, ((pool u p).tier (tierOf u p r.cls)).rebuilding = false →
      ((pool u p).tier (tierOf u p r.cls)).take r.cls = some (c, x) →
      poolGrant u p r true = setPool u p (let v := (pool u p).setTier (tierOf u p r.cls) x
        { v with ptr := v.ptr.set r.cls (r.port + 1), waiting := v.waiting.filter fun q => q != r
                 urgent := if v.urgent = some r then none else v.urgent }))

/-- R484 (derived; the message codes are the model's choice, log entry 61): the answers of an MCTP endpoint that is
up, the pages NVMe-MI carries, and a new endpoint ID discards the binding's staging set. R486, R594 (derived): a
dynamic address is taken from ENTDAA and from a SETDASA to the device's static address; the target reset pattern and a
held-down SCL reset the bus interface; HDR is entered and left. R223, R225, R243, R598 (derived): a FLIT that its
replay cures is counted as corrected, one that needs recovery as link recovery; a periodic retraining takes a channel
out of service and brings it back at the rate found. -/
def Obligations.ManagementLinks : Prop :=
  (∀ (s : State) (b eid : Nat), mctpUp s b = true →
    (eid ≠ 0 → eid ≠ 0xFF → Does (.setEndpointId b eid) s (mctpOut (dropSet { s with
      mgmt.eids := kvPut 0 b eid s.mgmt.eids } (.mgmt b)) b 0x00 [0x01, 0x00, 0x00, eid, 0])) ∧
    (eid = 0 ∨ eid = 0xFF → Does (.setEndpointId b eid) s (mctpOut s b 0x00 [0x01, 0x02])) ∧
    Does (.getEndpointId b) s (mctpOut s b 0x00 [0x02, 0x00, kvGet 0 b s.mgmt.eids, 0x00, 0x00]) ∧
    Does (.getMctpVersionSupport b) s (mctpOut s b 0x00 [0x04, 0x00, 1, 0xF1F3F100]) ∧
    Does (.getMessageTypeSupport b) s (mctpOut s b 0x00 [0x05, 0x00, 5, 0x00, 0x04, 0x05, 0x06, 0x7E]) ∧
    Does (.getVendorDefinedMessageSupport b) s (mctpOut s b 0x00 [0x06, 0x00, 0xFF, 0x00, 0x1F3B, 0x0000]) ∧
    Does (.nvmeMiMessage b .mediaHealth) s (miPage s b 0 (mediaPage s)) ∧
    (∀ lens, Does (.nvmeMiMessage b (.contractLog lens)) s (miPage s b 0 (contractPage s lens))) ∧
    Does (.nvmeMiMessage b .smart) s (miPage s b 0 (.words (smartPage s 0))) ∧
    Does (.nvmeMiMessage b .supportedLogPages) s (miPage s b 0 supportedLogs) ∧
    (∀ remap first count, Does (.nvmeMiMessage b (.ledgerLog 0 remap first count)) s
      (miPage s b (ledgerPage s 0 [] remap first count).1 (ledgerPage s 0 [] remap first count).2)) ∧
    (∀ p, inService s = true → miPage s b 0 p = mctpOut s b 0x04 (0 :: payloadWords p)) ∧
    (∀ r, Does (.nvmeMiMessage b (.dictRead (.read r))) s
      (dictRequest s (.mgmt b) (.read r) none fun s => readOd s (.mgmt b) r false)) ∧
    (∀ ops secured spares, ops ≠ [] → ops.length ≤ 256 → reaches s (.mgmt b) = true →
      Does (.nvmeMiMessage b (.dictWrite ops secured spares)) s
        (runList { who := .mgmt b, secured := secured, a := none, twinSpares := spares } ops 0 s))) ∧
  (∀ (s : State) (bus a : Nat),
    (mctpUp s bus = true → kvGet 0 bus s.mgmt.addrs = 0 →
      Does (.entdaa bus a) s { s with mgmt.addrs := kvPut 0 bus a s.mgmt.addrs } ∧
      Does (.setdasa bus (staticAddress s) a) s { s with mgmt.addrs := kvPut 0 bus a s.mgmt.addrs }) ∧
    (kvGet 0 bus s.mgmt.addrs ≠ 0 → Does (.entdaa bus a) s s ∧ Does (.setdasa bus (staticAddress s) a) s s) ∧
    (∀ st, st ≠ staticAddress s → Does (.setdasa bus st a) s s) ∧
    Does (.targetResetPattern bus) s (resetBus s bus) ∧
    Does (.smbusSclTimeout bus) s (resetBus s bus) ∧
    Does (.hdrEntry bus) s { s with mgmt.hdr := addTo bus s.mgmt.hdr } ∧
    Does (.hdrExitPattern bus) s { s with mgmt.hdr := s.mgmt.hdr.filter fun b => b != bus } ∧
    (kvWf 0 s.mgmt.addrs → kvGet 0 bus (resetBus s bus).mgmt.addrs = 0 ∧ bus ∉ (resetBus s bus).mgmt.hdr)) ∧
  (∀ (s : State) (port ch rate : Nat),
    (s.host.cfgServed = true → port = 0 ∨ s.host.bifurcated = true →
      Does (.flitCheckFailure port true) s (loupe (odBump s 0x4000 0x0B) 225 0x10 1 [port]) ∧
      Does (.flitCheckFailure port false) s
        (loupe (hostTrains (odBump (odBump s 0x4000 0x0C) 0x1020 0x02 port)) 225 0x10 4 [port])) ∧
    (s.host.cfgServed = false → ∀ ok, Does (.flitCheckFailure port ok) s s) ∧
    ((chan s ch).state = 0 → s.rst.life = .service →
      Does (.periodicChannelRetraining ch rate false) s
        (((chanDies ch).filter fun d => (die s d).st == .idle).foldl (fun s d => startReinit s d 13) (setChanState s ch 2))) ∧
    ((chan s ch).state = 2 → chanQuiet s ch = true →
      Does (.periodicChannelRetraining ch rate true) s (nextLoad (setChanState (rateFound
        (((chanDies ch).filter fun d => (ctx s d).entry == some 13).foldl (fun s d => endEntry s d 0) s) ch rate) ch 0))) ∧
    ((chan s ch).state ≠ 2 → Does (.periodicChannelRetraining ch rate true) s s))

/-- R532 to R541, R573 (derived): the reset sources. Power-on and the AON brown-out reset every block, clear the
retained memory and leave their cause bit alone; a core brown-out resets at once and keeps it; the other sources run
the pre-reset flush first when hold-up is armed, and reset at once when it is not; the internal fatals carry their
sub-cause. -/
def Obligations.ResetSources : Prop :=
  ∀ (s : State), s.rst.life ≠ .inReset → Nat.land s.rst.asserted 7 = 0 → s.power.hold = .running →
    (∃ t, Does .powerOn s t ∧ t.rst.life = .inReset ∧ t.rst.cause = 1 ∧ t.loupe.kept = [] ∧ t.ciph.retained = none ∧
      t.dict.durable = s.dict.durable) ∧
    (∃ t, Does .aonBrownOut s t ∧ t.rst.life = .inReset ∧ t.rst.cause = 4 ∧ t.loupe.kept = [] ∧
      t.ciph.retained = none ∧ t.dict.durable = s.dict.durable) ∧
    (∃ t, Does .coreBrownOut s t ∧ t.rst.life = .inReset ∧ t.rst.cause = setBit 1 s.rst.cause ∧
      t.loupe.kept = s.loupe.kept ∧ t.ciph.retained = s.ciph.retained) ∧
    (∃ t, Does .perstAssert s t ∧ t.pins.pcieIdle = true ∧ t.rst.asserted.testBit 3 = true ∧
      t.rst.cause = setBit 3 s.rst.cause ∧ (s.power.armed = false → t.rst.life = .inReset) ∧
      (s.power.armed = true → t.rst.life = s.rst.life ∧ t.power.hold = .flush ∧ t.host.cmds = [])) ∧
    (∃ t, Does .managementReset s t ∧ t.rst.cause = setBit 6 s.rst.cause ∧
      (s.power.armed = false → t.rst.life = .inReset) ∧
      (s.power.armed = true → t.rst.life = s.rst.life ∧ t.power.hold = .flush ∧ t.host.cmds = [])) ∧
    (s.rst.life = .service → s.rst.recordDurable = true → ∃ t, Does .watchdogExpiry s t ∧
      t.rst.cause = setBit 4 s.rst.cause ∧ t.rst.bootFailures = s.rst.bootFailures ∧
      (s.power.armed = false → t.rst.life = .inReset)) ∧
    (s.rst.cause.testBit 8 = false → s.power.armed = false → s.rst.recordDurable = false →
      (∃ t, Does .ftlFirmwareAssertion s t ∧ t.rst.life = .inReset ∧
        t.rst.cause = setBit 8 s.rst.cause + 8 * 2 ^ 16 ∧ t.rst.bootFailures = s.rst.bootFailures + 1) ∧
      (∃ t, Does .korlaCoreMachineCheck s t ∧ t.rst.life = .inReset ∧
        t.rst.cause = setBit 8 s.rst.cause + 9 * 2 ^ 16 ∧ t.rst.bootFailures = s.rst.bootFailures + 1) ∧
      (s.rst.life = .stage1 → ∃ t, Does .bootTimerExpiry s t ∧ t.rst.life = .inReset ∧
        t.rst.cause = setBit 8 s.rst.cause + 7 * 2 ^ 16 ∧ t.rst.bootFailures = s.rst.bootFailures + 1)) ∧
    (s.rst.life = .service → Does .bootTimerExpiry s s) ∧
    (s.rst.life = .maintenance → Does .watchdogExpiry s s)

/-- R532 to R539, R543, R573 to R576 (derived): a held source is released when its level goes away, the flush's seal
or its 50 ms limit asserts the reset, and the device leaves reset once no source is asserted and the test mode does
not hold it: its straps are latched and its reset count, at most 15, goes up. -/
def Obligations.ResetsEnd : Prop :=
  ∀ (s : State) (v supply : Nat),
    (s.rst.asserted.testBit 3 = true → Does .perstDeassert s { s with rst.asserted := s.rst.asserted - 8 }) ∧
    (s.rst.asserted.testBit 3 = false → Does .perstDeassert s s) ∧
    (s.rst.asserted = 5 → Does (.supplyWithinRange 0) s { s with rst.asserted := 0 }) ∧
    (s.rst.asserted.testBit 1 = true → supply ≠ 0 →
      Does (.supplyWithinRange supply) s { s with rst.asserted := s.rst.asserted - 2 }) ∧
    (s.rst.asserted.testBit 7 = true →
      Does .thermalTripRelease s { s with rst.asserted := s.rst.asserted - 128, pins.trip := false }) ∧
    Does .perstGlitch s (odBump s 0xB000 0x04) ∧
    (s.power.hold = .flush → flushWritten s = true → ∃ t, Does .preResetFlushSeal s t ∧ t.rst.life = .inReset ∧
      t.power.hold = .running ∧ ∀ i ∈ t.power.images, i.seq = t.power.imageSeq → i.sealed = true) ∧
    (s.power.hold = .running → Does .preResetFlushSeal s s ∧ Does .preResetFlushLimit s s) ∧
    (s.power.hold = .flush → ∃ t, Does .preResetFlushLimit s t ∧ t.rst.life = .inReset ∧
      t.power.hold = .running ∧ t.power.images = s.power.images) ∧
    (s.rst.life = .inReset → s.rst.asserted = 0 → s.rst.testHold = false → Does (.releaseCountDone v) s
      { s with rst.life := if v / 8 % 4 = 3 then .qspiRelease else .stage0
               rst.cause := if s.rst.cause / 2 ^ 24 % 16 < 15 then s.rst.cause + 2 ^ 24 else s.rst.cause
               rst.straps := v % 256 }) ∧
    (s.rst.life ≠ .inReset ∨ s.rst.asserted ≠ 0 ∨ s.rst.testHold = true → Does (.releaseCountDone v) s s) ∧
    (∀ high, Does (.testModeHold high) s { s with rst.testHold := high }) ∧
    Does .refclkLoss s { s with rst.ringOsc := true } ∧
    Does .refclkRestore s { s with rst.ringOsc := false } ∧
    (s.rst.life ≠ .inReset → v = s.rst.straps → Does (.strapCheck v) s s) ∧
    (∀ i, s.rst.life ≠ .inReset →
      ((List.range 8).filter fun j => v.testBit j != s.rst.straps.testBit j && !(od s 0xB000 0x07).testBit j) = [i] →
      Does (.strapCheck v) s (loupe (odSet s 0xB000 0x07 0 (setBit i (od s 0xB000 0x07))) 574 0xB0 3 [i]))

/-- R407, R411, R540, R542 to R548 (derived): the boot stages. Stage 1 halts on a bad loader, after three failed boots
and without DRAM, and otherwise boots the slot it chose; stage 2 captures and clears the reset causes and leaves the
boot record fresh and retained; stage 3 applies the dictionary to the pins; a write of 0 in the halt clears the
failures. -/
def Obligations.BootStages : Prop :=
  ∀ (s : State) (f : BootFacts) (g : SealFacts),
    (s.rst.life = .stage0 → f.stage1Valid = false → ∃ t, Does (.stage1Loader f) s t ∧ t.rst.life = .halt 0 ∧
      t.pins.alert = true ∧ t.pins.wpLow = true ∧ t.pins.led0Blink = true) ∧
    (s.rst.life = .stage0 → s.rst.logicFailed = 0 → f.stage1Valid = true → f.dramRate = 0 ∨ 3 ≤ s.rst.bootFailures →
      ∃ t, Does (.stage1Loader f) s t ∧ t.rst.life = .halt 1 ∧ t.pins.wpLow = true) ∧
    (∀ slot, s.rst.life = .stage0 → s.rst.logicFailed = 0 → f.stage1Valid = true → f.dramRate ≠ 0 →
      f.dramConfigOk = true → s.rst.bootFailures < 3 → s.ciph.alarmResets < 3 →
      slotBooted (readSlots s f) = some slot →
      ∃ t, Does (.stage1Loader f) s t ∧ t.rst.life = .stage1 ∧ t.host.cfgServed = true) ∧
    (s.rst.life ≠ .stage0 → Does (.stage1Loader f) s s) ∧
    (s.rst.life = .stage1 → g.unitsOk = false →
      ∃ t, Does (.stage2Sealed g) s t ∧ t.rst.life = .halt 2 ∧ t.pins.wpLow = true) ∧
    (s.rst.life = .stage1 → g.unitsOk = true → g.entropyOk = true → ∃ t, Does (.stage2Sealed g) s t ∧
      t.rst.life = .stage2 ∧ t.rst.captured = s.rst.cause ∧ t.rst.cause = 0 ∧ t.pins.hbOut = true ∧
      t.ciph.drbgOk = true ∧ t.ciph.fresh.isSome = true ∧ t.ciph.retained = t.ciph.fresh) ∧
    (s.rst.life = .stage2 → ∃ t, Does .stage3Ftl s t ∧ t.rst.life = .stage3 ∧ t.pins.ioApplied = true ∧
      t.pins.clkreq = true ∧ t.zones = s.zones) ∧
    (s.rst.life ≠ .stage2 → Does .stage3Ftl s s) ∧
    (∀ n, s.rst.life = .halt n → Does .bootFailureClear s { s with rst.bootFailures := 0 }) ∧
    (s.rst.life = .service → Does .bootFailureClear s s) ∧
    Does (.maintenanceRequest 1) s { s with rst.maintain := true } ∧
    Does (.maintenanceRequest 0) s { s with rst.maintain := false }

/-- R561 to R566 (derived): a periodic trigger takes a snapshot, a wanted flush moves the entries that are not flushed
to the flush area, the live buffer is emptied, the freeze ends, and the alert is released outside the boot halt. -/
def Obligations.LoupeRuns : Prop :=
  ∀ (s : State) (trigger : Nat),
    (od s 0xA300 0x01 trigger = 1 → od s 0xA300 0x08 trigger ≠ 0 → trigger < 64 → s.rst.life ≠ .inReset →
      s.loupe.frozen = false → s.loupe.live.length < 2048 → ∃ t, Does (.loupeTriggerPeriod trigger) s t ∧
        t.loupe.nextSeq = s.loupe.nextSeq + 1 ∧ ∃ e ∈ t.loupe.live, e.seq = s.loupe.nextSeq ∧ e.trigger = trigger ∧
          e.nextAsn = s.adm.nextAsn) ∧
    (od s 0xA300 0x01 trigger ≠ 1 → Does (.loupeTriggerPeriod trigger) s s) ∧
    (s.loupe.flushing = true → ∃ t, Does .loupeFlush s t ∧ t.loupe.flushing = false ∧
      (∀ e ∈ t.loupe.live, e.flushed = true) ∧ (∀ e ∈ t.loupe.kept, e.flushed = true) ∧
      t.loupe.flash.length ≤ 262144 ∧ t.zones = s.zones) ∧
    (s.loupe.flushing = false → Does .loupeFlush s s) ∧
    Does .loupeEmpty s { s with loupe.live := [] } ∧
    Does .loupeResume s { s with loupe.frozen := false } ∧
    (s.rst.life = .service → Does .alertReleaseRead s { s with pins.alert := false }) ∧
    (∀ n, s.rst.life = .halt n → Does .alertReleaseRead s s)

/-- R564: while frozen, an entry below severity 7 is not recorded and is counted as dropped, and a severity 7 entry is
recorded; the management role's write of 0 to OD 0xA310:09 (LOUPE_RESUME) ends the freeze. -/
def Obligations.FrozenLoupeKeepsSeverity7 : Prop :=
  ∀ (s : State) (rule subject sev : Nat) (detail : List Nat), s.loupe.frozen = true →
    (sev ≠ 7 → loupe s rule subject sev detail = { s with
      loupe.nextSeq := s.loupe.nextSeq + 1
      loupe.liveDrops := kvPut 0 sev (kvGet 0 sev s.loupe.liveDrops + 1) s.loupe.liveDrops
      loupe.droppedSince := s.loupe.droppedSince + 1 }) ∧
    (s.loupe.live.length < 2048 ∨ (∃ e ∈ s.loupe.live, e.sev ≤ 7) →
      ∃ e ∈ (loupe s rule subject 7 detail).loupe.live, e.seq = s.loupe.nextSeq ∧ e.sev = 7) ∧
    Does .loupeResume s { s with loupe.frozen := false }

/-- R549, R550 (derived): the block resets. An idle block loses its own state and nothing else; a block that is not
idle, or that does not exist, keeps it. R552 to R557 (derived): built-in self-test. Logic BIST starts in the
maintenance state only, records its failing partitions and ends in a reset; an online pass starts in service only and
goes from partition to partition, and a decoder or placement engine that passes stays in service while one that fails
leaves it; a self-test of the PF starts a pass. -/
def Obligations.BlockResetsAndSelfTest : Prop :=
  (∀ (s : State) (i : Nat),
    (i < 64 → chanIdle s i = true → Does (.blockResetFlashChannel i) s (
      let s := (chanDies i).foldl (fun s d => setCtx s d {}) (setChan s i { chan s i with
        bus := [], ce := none, holder := none, ptrHigh := 0, ptrLow := 0, phyRegs := [], faulted := false })
      if (chan s i).state = 3 then s else setChanState s i 3)) ∧
    (i < 64 → chanIdle s i = false → Does (.blockResetFlashChannel i) s s) ∧
    (64 ≤ i → i < 256 → Does (.blockResetFlashChannel i) s s) ∧
    (i < 16 → i ∈ s.ciph.badLanes → Does (.blockResetCipherLane i) s
      { s with ciph.lanes := s.ciph.lanes.set i {} }) ∧
    (i < 16 → i ∉ s.ciph.badLanes → Does (.blockResetCipherLane i) s s) ∧
    (i < 16 → Does (.blockResetSoftDecoder i) s { s with sched.softPtr := 0 }) ∧
    (i < 16 → Does (.blockResetPlacementEngine i) s { s with sched.placePtrs := [0, 0, 0] }) ∧
    (i < 2 → (eng s i).phase = 0 ∨ (eng s i).phase = 4 → Does (.blockResetLoopEngine i) s (setEng s i
      { phase := 0, code := (eng s i).code, image := (eng s i).image, lastD := (eng s i).lastD
        tickNo := (eng s i).tickNo, ticks := (eng s i).ticks })) ∧
    (i < 2 → (eng s i).phase = 3 → Does (.blockResetLoopEngine i) s s) ∧
    (s.pair.detached = true → ∃ t, Does .blockResetMirrorLink s t ∧ t.pair.linkUp = false ∧ t.pair.session = false ∧
      t.pair.unacked = [] ∧ t.pair.txSeq = 1 ∧ t.pair.rxSeq = 0 ∧ t.zones = s.zones ∧ t.host = s.host) ∧
    (s.pair.detached = false → pairPhase s ≠ 0 → Does .blockResetMirrorLink s s) ∧
    (i < 3 → od s 0x5110 0x01 (i + 1) = 3 → Does (.blockResetCascadePort i) s
      (setMember s (i + 1) { serial := (member s (i + 1)).serial })) ∧
    (i < 3 → od s 0x5110 0x01 (i + 1) = 2 → Does (.blockResetCascadePort i) s s) ∧
    Does .blockResetTracePort s s ∧
    (s.loupe.flushing = false → Does .blockResetLoupe s { s with loupe.live := [] }) ∧
    (s.loupe.flushing = true → Does .blockResetLoupe s s)) ∧
  (∀ (s : State) (g : List Nat) (sig : Nat) (a : Adm) (lanes : List Nat),
    (s.rst.life = .maintenance → Does .logicBistStart s { s with rst.logicRunning := true }) ∧
    (s.rst.life ≠ .maintenance → Does .logicBistStart s s) ∧
    (s.rst.life = .maintenance → s.rst.logicRunning = true → s.power.armed = false → s.power.hold = .running →
      ∃ t, Does (.logicBistDone g) s t ∧ t.rst.life = .inReset ∧ t.rst.logicRunning = false ∧
        t.rst.logicFailed =
          ((List.range 32).filter fun p => g.getD p 0 != Config.goldenLogic p).foldl (fun m p => m + 2 ^ p) 0 ∧
        t.rst.cause = setBit 6 s.rst.cause) ∧
    (s.rst.logicRunning = false → Does (.logicBistDone g) s s) ∧
    (s.rst.life = .service → s.bist.running = false →
      Does .onlinePassStart s { s with bist.running := true, bist.next := 0 }) ∧
    (s.rst.life ≠ .service → Does .onlinePassStart s s) ∧
    (s.bist.running = true → s.power.hold = .running → 96 ≤ s.bist.next → s.bist.next < 127 →
      sig = Config.goldenMemory s.bist.next → ∃ t, Does (.memoryBistStep sig) s t ∧
        t.bist.next = s.bist.next + 1 ∧ s.bist.next ∉ t.bist.failed ∧ t.bist.decodersOut = s.bist.decodersOut ∧
        t.bist.running = true) ∧
    (s.bist.running = true → s.power.hold = .running → 96 ≤ s.bist.next → s.bist.next < 112 →
      sig ≠ Config.goldenMemory s.bist.next → ∃ t, Does (.memoryBistStep sig) s t ∧
        t.bist.next = s.bist.next + 1 ∧ s.bist.next ∈ t.bist.failed ∧ s.bist.next - 96 ∈ t.bist.decodersOut) ∧
    (s.bist.running = true → s.power.hold = .running → 112 ≤ s.bist.next → s.bist.next < 127 →
      sig ≠ Config.goldenMemory s.bist.next → ∃ t, Does (.memoryBistStep sig) s t ∧
        t.bist.next = s.bist.next + 1 ∧ s.bist.next ∈ t.bist.failed ∧ s.bist.next - 112 ∈ t.bist.enginesOut) ∧
    (s.bist.running = false → Does (.memoryBistStep sig) s s) ∧
    (AdminServed s a → s.bist.selfTest = 0 → s.bist.running = false →
      Does (.deviceSelfTestShort a lanes) s (adminDone { s with
        bist.selfTest := 1, bist.selfTestLanes := lanes, bist.running := true, bist.next := 0 } a 0) ∧
      Does (.deviceSelfTestExtended a lanes) s (adminDone { s with
        bist.selfTest := 2, bist.selfTestLanes := lanes, bist.running := true, bist.next := 0 } a 0)) ∧
    (AdminServed s a → s.bist.selfTest ≠ 0 → Does (.deviceSelfTestShort a lanes) s (adminDone s a 0x11D) ∧
      Does (.deviceSelfTestExtended a lanes) s (adminDone s a 0x11D)))

/-- R3, R10, R47, R48, R78 to R81, R354, R396, R607 (derived; status values of the NVM Express command set are the
model's choice, log entry 13): a namespace that can be planned on this device is created with the lowest free
identifier and the class, quotas, format and protection of its request; a create in the preserve state is refused; the
end of a namespace that may end begins and, where nothing else holds the namespace, is done at once: a deleted
namespace is gone, a formatted one has its new format, and a key change gives it a
new salt and generation 1; an attach or detach of functions none of which refuses changes their lists, and the first
refusal ends it; FDP is switched while no namespace exists. -/
def Obligations.NamespacesComeAndGo : Prop :=
  ∀ (s : State) (a : Adm) (nsid lbaf pit : Nat) (n : Ns), AdminServed s a → pairRole s = 0 →
    (∀ zoned size l p parity pclass actives opens handles zero free zs es,
      let c := CreateReq.sized ⟨zoned, size, l, p, parity, pclass, actives, opens, handles⟩
      planCreate s c zero free = (0, zs, es) → (∀ e ∈ es, e.2.2 = 0) →
        Does (.namespaceCreate (.host a) zoned size ⟨l, p⟩ parity ⟨pclass, handles⟩ actives opens zero free) s
          (adminDone (addNs s c (freeNsid s) zs [] []) a 0 (freeNsid s)) ∧
        ∃ m, (addNs s c (freeNsid s) zs [] []).nss = s.nss ++ [m] ∧ m.nsid = freeNsid s ∧ m.zoned = zoned ∧
          m.size = c.size ∧ m.lbaf = l ∧ m.pit = p ∧ m.parity = parity ∧ m.pclass = pclass ∧ m.gen = 1 ∧
          m.zones = (if zoned then zs else []) ∧ m.poolRows = (if zoned then [] else zs)) ∧
    (s.adm.preserve = true → ∀ zoned size l p parity pclass actives opens handles zero free,
      Does (.namespaceCreate (.host a) zoned size ⟨l, p⟩ parity ⟨pclass, handles⟩ actives opens zero free) s
        (adminDone s a 0x0C6)) ∧
    (ns? s nsid = some n →
      let del : NsEnd :=
        { cmd := 0, delete := true, lbaf := 0, pit := 0, erase := false, newKey := false, salt := none }
      let fmt (erase key : Bool) : NsEnd :=
        { cmd := 0, delete := false, lbaf := lbaf, pit := pit, erase := erase, newKey := key, salt := none }
      let d := admCmd s a codeDelete nsid .ending
      let f := admCmd s a codeFormat nsid .ending
      (endStatus s n del = 0 → Does (.namespaceDelete (.host a) nsid) s
        (beginEnd d.1 n del (some d.2) [codeDelete, nsid, 0, 0, 0, 0])) ∧
      (endStatus s n (fmt false false) = 0 → Does (.formatNvmNoSecureErase (.host a) nsid ⟨lbaf, pit⟩) s
        (beginEnd f.1 n (fmt false false) (some f.2) [codeFormat, nsid, lbaf, pit, 0, 0])) ∧
      (endStatus s n (fmt true true) = 0 → Does (.formatNvmUserDataErase (.host a) nsid ⟨lbaf, pit⟩) s
        (beginEnd f.1 n (fmt true true) (some f.2) [codeFormat, nsid, lbaf, pit, 1, 1])) ∧
      (endStatus s n (fmt false true) = 0 → Does (.formatNvmCryptoErase (.host a) nsid ⟨lbaf, pit⟩) s
        (beginEnd f.1 n (fmt false true) (some f.2) [codeFormat, nsid, lbaf, pit, 0, 1])) ∧
      (s.host.cmds = [] → s.pair.asked = [] → n.extents = [] → partsOut s s.host.nextId = false →
        (endStatus s n del = 0 → ∃ t, Does (.namespaceDelete (.host a) nsid) s t ∧ ns? t nsid = none ∧
          t.host.cmds = []) ∧
        (endStatus s n (fmt false false) = 0 → ∃ t m, Does (.formatNvmNoSecureErase (.host a) nsid ⟨lbaf, pit⟩) s t ∧
          ns? t nsid = some m ∧ m.lbaf = lbaf ∧ m.pit = pit ∧ m.ending = none ∧ m.salt = n.salt ∧ t.host.cmds = []) ∧
        (endStatus s n (fmt true true) = 0 → ∃ t m, Does (.formatNvmUserDataErase (.host a) nsid ⟨lbaf, pit⟩) s t ∧
          ns? t nsid = some m ∧ m.lbaf = lbaf ∧ m.pit = pit ∧ m.ending = none ∧ m.gen = 1 ∧ m.rot = none ∧
          t.host.cmds = []) ∧
        (endStatus s n (fmt false true) = 0 → ∃ t m, Does (.formatNvmCryptoErase (.host a) nsid ⟨lbaf, pit⟩) s t ∧
          ns? t nsid = some m ∧ m.lbaf = lbaf ∧ m.pit = pit ∧ m.ending = none ∧ m.gen = 1 ∧ m.rot = none ∧
          t.host.cmds = []))) ∧
    (ns? s nsid = none → Does (.namespaceDelete (.host a) nsid) s (adminDone s a 0x00B) ∧
      Does (.formatNvmCryptoErase (.host a) nsid ⟨lbaf, pit⟩) s (adminDone s a 0x00B)) ∧
    (∀ fns, ns? s nsid = some n → (∀ f ∈ fns, attachStatus s nsid fns f = 0) →
      Does (.namespaceAttach a nsid fns) s (adminDone (lensContractEvents (attachAll s nsid fns)) a 0)) ∧
    (∀ fns, ns? s nsid = some n → (∀ f ∈ fns, detachStatus s nsid f = 0) →
      Does (.namespaceDetach a nsid fns) s (adminDone (lensContractEvents (fns.foldl (fun s f =>
        setFn s f { fnc s f with attached := (fnc s f).attached.filter fun x => x != nsid }) s)) a 0)) ∧
    (∀ f, ns? s nsid = some n → 512 < f → Does (.namespaceAttach a nsid [f]) s (adminDone s a 0x11C) ∧
      Does (.namespaceDetach a nsid [f]) s (adminDone s a 0x11C)) ∧
    (∀ group enable, s.nss = [] → group = 1 → Does (.setFeaturesFdp a group enable none) s
      (adminDone { s with host.fdp := enable } a 0)) ∧
    (∀ enable h types, Does (.setFeaturesFdp a 1 enable (some (h, types))) s
      (adminDone { s with host.fdpEnabled := kvPut 0 h types s.host.fdpEnabled } a 0)) ∧
    (∀ group enable events, group ≠ 1 → Does (.setFeaturesFdp a group enable events) s (adminDone s a 0x002))

/-- R3, R33, R59, R85, R398 (derived; status values as in log entry 13): a sanitize that is not refused answers and
draws a new data-key root, which takes the place of the old one at once where no command holds an ASN, with no key
left in the cache; Overwrite is refused with 0x02; an abort ends the command in its slot or an asynchronous event
request, or completes with DW0 1 where it finds none; and an asynchronous event request is held or takes the oldest
waiting event. R64, R79, R86, R101 to R103, R248, R358, R566 (derived): the log pages. The admission ledger is read in
whole slots of its own position; the PF's pages complete with their contents; a reader that retains no event drops it.
-/
def Obligations.SanitizeAbortEventsAndLogs : Prop :=
  (∀ (s : State) (a : Adm), AdminServed s a →
    (pairRole s = 0 → (∀ n ∈ s.nss, n.extents = []) →
      (sanitizeRefused s true = 0 →
        Does (.sanitizeBlockErase (.host a)) s (beginSanitize (adminDone s a 0) true)) ∧
      (sanitizeRefused s false = 0 →
        Does (.sanitizeCryptoErase (.host a)) s (beginSanitize (adminDone s a 0) false)) ∧
      (s.host.cmds = [] → ∀ erase, let t := beginSanitize (adminDone s a 0) erase
        t.host.sanitizeStatus = 1 ∧ t.ciph.root = some (draw s % 2 ^ 256) ∧
          t.ciph.stored = some (draw s % 2 ^ 256) ∧ t.ciph.pendingRoot = none ∧ t.ciph.cache = [] ∧
          t.ciph.erased = false)) ∧
    Does (.sanitizeOverwrite a) s (adminDone s a 0x002) ∧
    (∀ sq cid, 0 < sq → (fnc s 0).rd = none → (fnc s 0).wr = none → s.host.granted = [] → s.host.cmds = [] →
      Does (.abort a sq cid) s (adminDone s a 0 1)) ∧
    (∀ sq cid x, 0 < sq → (fnc s 0).rd = some x → x.io.fn = 0 → x.io.sq = sq → x.io.cid = cid →
      Does (.abort a sq cid) s (adminDone (post (setFn s 0 { fnc s 0 with rd := none }) 0 sq cid
        (curGen (setFn s 0 { fnc s 0 with rd := none }) 0) 0x007 0 0 .none 0xFFFFFFFF 0 0 x.io.cqAddr) a 0)) ∧
    (∀ cid cqAddr rest, (fnc s 0).aers = (cid, cqAddr) :: rest → Does (.abort a 0 cid) s
      (adminDone (post (setFn s 0 { fnc s 0 with aers := (fnc s 0).aers.filter fun x => x.1 != cid }) 0 0 cid
        (curGen (setFn s 0 { fnc s 0 with aers := (fnc s 0).aers.filter fun x => x.1 != cid }) 0)
          0x007 0 0 .none 0xFFFFFFFF 0 0 cqAddr) a 0)) ∧
    (∀ t i rest, (fnc s 0).events = (t, i) :: rest → Does (.asynchronousEventRequest a) s
      (adminDone (setFn s 0 { fnc s 0 with events := rest }) a 0 (t + i * 256))) ∧
    ((fnc s 0).events = [] → Does (.asynchronousEventRequest a) s
      (setFn s 0 { fnc s 0 with aers := (fnc s 0).aers ++ [(a.cid, a.cqAddr)] }))) ∧
  (∀ (s : State) (a : Adm), AdminServed s a →
    (∀ remap offset length, length % 64 = 0 → offset % 64 = 0 → length ≤ 2097152 →
      let p := ledgerPage s 0 (fnc s 0).attached remap (offset / 64) (length / 64)
      Does (.admissionLedgerLog a 0 remap false ⟨offset, length⟩ none) s (adminDone s a p.1 0 p.2 length) ∧
      Does (.admissionLedgerLog a 0 remap true ⟨offset / 64, length⟩ none) s (adminDone s a p.1 0 p.2 length)) ∧
    (∀ first count slot, s.adm.floor ≤ first → slot < count →
      ∃ l, ledgerPage s 0 (fnc s 0).attached false first count = (0, .slots l) ∧ l.length = count ∧
        (∀ r, s.adm.recs.find? (fun x => x.r.asn == first + slot && decide (first + slot ≤ sealedHead s)) = some r →
          l[slot]? = some (recImage r.r))) ∧
    (∀ position remap offset length, length % 64 ≠ 0 → Does (.admissionLedgerLog a position remap false ⟨offset, length⟩
      none) s (adminDone s a 0x002)) ∧
    Does (.mediaHealthLog a) s (adminDone s a 0 0 (mediaPage s) (Payload.bytes (mediaPage s))) ∧
    (∀ lens, Does (.lensContractLog a lens) s
      (adminDone s a 0 0 (contractPage s lens) (Payload.bytes (contractPage s lens)))) ∧
    (∀ source offset length, Does (.loupeLog a source offset length) s (adminDone s a
      (loupePage s source offset length).1 0 (loupePage s source offset length).2 length)) ∧
    Does (.smartHealthLog a true) s (adminDone s a 0 0 (.words (smartPage s 0)) 512) ∧
    Does (.smartHealthLog a false) s (adminDone (setFn (dropEvents s 0 1 false) 0
      { fnc (dropEvents s 0 1 false) 0 with reliability := false }) a 0 0 (.words (smartPage s 0)) 512) ∧
    (∀ nsid, (let l := ((fnc s 0).changed.filter fun e => e.1 == nsid).map (·.2)
      Does (.changedZoneListLog a nsid true) s (adminDone s a 0 0 (.words (l.length :: l)) 4096) ∧
      Does (.changedZoneListLog a nsid false) s (adminDone (dropEvents (setFn s 0 { fnc s 0 with
        changed := (fnc s 0).changed.filter fun e => e.1 != nsid }) 0 2 false) a 0 0
          (.words (l.length :: l)) 4096))) ∧
    Does (.fdpLogs a 0) s (adminDone s a 0 0 (.words [s.host.fdpHost, s.host.fdpMedia, s.host.fdpErased])) ∧
    Does (.fdpLogs a 2) s (adminDone s a 0 0 (.words
      (s.host.fdpEvents.length :: s.host.fdpEvents.flatMap fun e => [e.1, e.2.1, e.2.2]))) ∧
    (∀ which, 4 ≤ which → Does (.fdpLogs a which) s (adminDone s a 0x002)) ∧
    (∀ hostInitiated, Does (.telemetryLog a hostInitiated) s (adminDone s a 0 0 (.words (
      [if hostInitiated then 7 else 8, s.loupe.telemetry, s.loupe.kept.length, s.loupe.live.length] ++
        (s.loupe.kept.map entryImage ++ s.loupe.live.map entryImage))))))

/-- R457 to R481 (derived): a management requester's read, staged read and description of an element are answered with
the bytes or the status of the element; a write goes to its staging set; a discard and an expiry empty that set; an
empty list ends a host's command with 0x02. R466, R470 to R478 (derived): one requester's commit is answered with the
status of its checks, and an accepted set that nothing delays takes effect with it; a commit of an empty set is
answered with 0; an accepted save is answered when it is durable, and the copy of the dictionary in flash changes; a
script load is staged in order and committed. -/
def Obligations.DictionaryAndCommits : Prop :=
  (∀ (s : State) (m : Nat) (r : OdReq) (v : Nat) (e : OdElem), reaches s (.mgmt m) = true → r.target = 0 →
    odFind r.obj r.elem = some e → odAddressIn s r.obj r.elem r.inst = 0 →
    (readServed s (.mgmt m) r.obj = true → mayRead (.mgmt m) e r.inst = true → r.obj ≠ 0xA310 → r.obj ≠ 0x3120 →
      ∀ off len, readPiece e r = some (off, len) →
      Does (.dictRead (.mgmt m) r none) s
        (answer s (.mgmt m) r 0 len (bytesAt off len (viewFor s (.mgmt m) r.obj r.elem r.inst))) ∧
      Does (.dictReadStaged (.mgmt m) r none) s
        (answer s (.mgmt m) r 0 len (bytesAt off len (stagedView s (staging s (.mgmt m)) r.obj r.elem r.inst)))) ∧
    (readServed s (.mgmt m) r.obj = true → mayRead (.mgmt m) e r.inst = false →
      Does (.dictRead (.mgmt m) r none) s (answer s (.mgmt m) r 0x20)) ∧
    (readServed s (.mgmt m) r.obj = true →
      Does (.dictDescribe (.mgmt m) r none) s (answer s (.mgmt m) r 0 48 (descriptor e r.inst))) ∧
    (r.obj ≠ 0xF010 → listBytes [.write r v] ≤ 16384 →
      Does (.dictWrite { who := .mgmt m, secured := false, a := none, twinSpares := 0 } [.write r v]) s
      (answer (stageWrite s (.mgmt m) r v false).1 (.mgmt m) r (stageWrite s (.mgmt m) r v false).2)) ∧
    (mayAct s (.mgmt m) false = true → Does (.discard (.mgmt m) false) s (answer (dropSet s (.mgmt m)) (.mgmt m)
      { obj := 0xF010, elem := 0, inst := 0, target := 0, offset := 0, length := 1 } 0)) ∧
    (mayAct s (.mgmt m) false = false → Does (.discard (.mgmt m) false) s (answer s (.mgmt m)
      { obj := 0xF010, elem := 0, inst := 0, target := 0, offset := 0, length := 1 } 0x20)) ∧
    Does (.stagingSetExpiry m) s (dropSet s (.mgmt m)) ∧
    (∀ t ∈ (dropSet s (.mgmt m)).dict.sets, t.who = .mgmt m → t.entries = []) ∧
    (∀ a spares, a.fn = 0 → accepts s 0 = true →
      Does (.dictWrite { who := .pf, secured := false, a := some a, twinSpares := spares } []) s
        (dictDone s a 0x002 0 0 .none))) ∧
  (∀ (s u : State) (m : Nat) (t : Taken), reaches s (.mgmt m) = true →
    let q : CommitReq := { who := .mgmt m, secured := false, a := none, twinSpares := 0 }
    let w : State := { s with dict.rankPtr := s.dict.rankPtr.set 2 (m + 1) }
    (commitOne w q = (u, t) → t.contract = 0 → isPending t = false → t.reset = false → t.q = q →
      Does (.commit [q]) s (commitAnswer u (.mgmt m) t.status [])) ∧
    (commitOne w q = (u, t) → t.contract = 0 → t.status = 0 → isPending t = true → t.reset = false → t.q = q →
      Does (.commit [q]) s (keepAnswer u t [] 0 [])) ∧
    (s.rst.life = .service → (staging s (.mgmt m)).entries = [] → mayCommit w q = true →
      commitOne w q = (w, { q := q, status := 0 }) ∧ Does (.commit [q]) s (commitAnswer w (.mgmt m) 0 [])) ∧
    (mayCommit w q = false → commitOne w q = (w, { q := q, status := 0x20 }) ∧
      Does (.commit [q]) s (commitAnswer w (.mgmt m) 0x20 [])) ∧
    (∀ b, b.forwarded = false → b.epoch = 0 → b.status = 0 → b.superseded = [] → b.rest = [] → b.q.a = none →
      (staging s (.mgmt m)).answering = [b] → Does (.commitDurable (.mgmt m) 0) s (commitAnswer (saveKeys
        (setStaging { s with dict.copy := 1 - s.dict.copy } { staging s (.mgmt m) with answering := [] }) b.saved)
          (.mgmt m) 0 [])) ∧
    ((staging s (.mgmt m)).answering = [] → Does (.commitDurable (.mgmt m) 0) s s) ∧
    (∀ image channels, Does (.dieScriptLoad q image channels) s (runList q
      [.write { obj := 0x3200, elem := 1, inst := 0, target := 0, offset := 0, length := 8480 } image,
       .write { obj := 0x3200, elem := 2, inst := 0, target := 0, offset := 0, length := 8 } channels,
       .write { obj := 0xF010, elem := 0, inst := 0, target := 0, offset := 0, length := 1 } 1] 0 s)))

/-- R242 to R247, R317 to R326 (derived): a die that is out and may return starts its probation, with its channel
training where that was out; a channel's return returns its dies; the pair controls act in the states that allow them.
-/
def Obligations.ReturnsAndPairControls : Prop :=
  ∀ (s : State) (d ch : Nat), s.rst.life = .service →
    (dieReturnStatus s d = 0 → (die s d).service = 1 → (chan s (dieChan d)).state = 0 →
      Does (.dieReturn d) s (startReinit (setDie s d { die s d with
        service := 2, phase := 1, st := .idle, cleanFrames := 0, verified := [] }) d 8)) ∧
    (dieReturnStatus s d = 0 → (die s d).service = 1 → (chan s (dieChan d)).state = 3 →
      Does (.dieReturn d) s (setChanState (startReinit (setDie s d { die s d with
        service := 2, phase := 1, st := .idle, cleanFrames := 0, verified := [] }) d 8) (dieChan d) 2)) ∧
    (dieReturnStatus s d ≠ 0 → Does (.dieReturn d) s s) ∧
    (channelReturnStatus s ch = 0 → (chan s ch).state = 3 → Does (.channelReturn ch) s
      ((chanDies ch).foldl dieReturn (setChanState s ch 2))) ∧
    (channelReturnStatus s ch ≠ 0 → Does (.channelReturn ch) s s) ∧
    (pairPhase s = 0 → Does .pairAttach s
      { s with pair.detached := false, pair.linkUp := false, pair.session := false }) ∧
    (pairPhase s ≠ 0 → pairRole s = 1 → Does .pairDetach s (separate s)) ∧
    (pairPhase s ≠ 0 → pairRole s = 2 → Does .pairDetach s (sendFrame s 0 0x04 [3, 0])) ∧
    (pairRole s = 1 → pairPhase s = 4 → s.pair.handing = false →
      Does .handover s { s with pair.handing := true, adm.holdAll := true }) ∧
    (pairPhase s ≠ 4 → Does .handover s s) ∧
    (s.pair.fenced = true → od s 0x5000 0x0B = 1 → s.pair.linkUp = false → s.pair.promoted = true →
      Does .discardHistoryAndAttach s
        (odSave (odSave (discardAbove s (od s 0x5000 0x07)) 0x5000 0x0B 0 0) 0x5000 0x01 0 2)) ∧
    (s.pair.fenced = false → Does .discardHistoryAndAttach s s) ∧
    (s.pair.detached = true → s.pair.bootWait = false → ∃ t, Does .clearPairing s t ∧ t.pair.linkUp = false ∧ t.pair.session = false ∧
      t.pair.detached = false) ∧
    (s.pair.detached = false → s.pair.fenced = false → Does .clearPairing s s)

/-- R36, R42 (derived; log entry 8 names the idle step, a DESIGN CHOICE): step of a state with a command in front is
exec of that command with the queue's rest; a step on an empty queue returns the toggle of every crossing and sends
the next frame of the Mirror link, and leaves a state in which nothing waits for either as it is. -/
def Obligations.StepRunsTheFrontCommand : Prop :=
  (∀ (c : Instr) (rest : List Instr) (s : State), s.pending = c :: rest → step s = exec c { s with pending := rest }) ∧
    (∀ (s : State), s.pending = [] → step s = .next (txGrant (returnToggles s)) ∧
      ∀ e ∈ (txGrant (returnToggles s)).toggles, e.2.out = false) ∧
    ∀ (s : State), s.pending = [] → s.pair.txq = [] → s.toggles = [] → step s = .next s

/-- R497 (the canonical form is the model's): every step from a state whose DRAM bytes are in canonical form
(addresses rising, no byte listed that reads as zero) answers a state whose DRAM bytes are in canonical form. -/
def Obligations.DramStaysCanonical : Prop :=
  ∀ (s t : State), kvWf 0 s.dram.mem → step s = .next t → kvWf 0 t.dram.mem

/-- Every command but the three that carry a DRAM address answers a next state in every state and leaves every byte of
DRAM as it was, or loses them all at a device reset; no command touches the waiting commands. R418, R419: the minimum
security version never falls, whatever command runs. -/
def Obligations.EveryCommandRuns : Prop :=
  ((∀ (c : Instr) (s : State), (∀ ch l p, c ≠ .dramRequestGrant ch l p) → (∀ a p b, c ≠ .scrubRead a p b) →
    (∀ b, c ≠ .dramInitBlock b) → ∃ t, Does c s t ∧ t.pending = s.pending ∧
      (t.dram.mem = s.dram.mem ∨ t.dram.mem = [])) ∧
  ∀ (c : Instr) (s t : State), Does c s t → t.pending = s.pending) ∧
  (∀ (s t : State), step s = .next t → s.ciph.otpMin ≤ t.ciph.otpMin)

/-- R532, R538 to R540, R545, R590 (derived; the values the spec leaves open are those of log entry 6): the device
right after the power-on reset is at boot stage 0, with the power-on cause and one reset counted, serves nothing,
keeps its PCIe lanes idle and WP# low, has no command waiting, and its DRAM bytes are in canonical form. The table
gives no row any bits: no word spells a command, and a word put in front of the queue changes nothing. -/
def Obligations.ResetState : Prop :=
  (State.reset.pending = [] ∧ State.reset.rst.cause = 0x01000001 ∧ State.reset.rst.life = .stage0 ∧ State.reset.pins.wpLow = true ∧
    State.reset.pins.pcieIdle = true ∧ State.reset.host.cfgServed = false ∧ State.reset.power.armed = false ∧
    State.reset.dram.mem = [] ∧ kvWf 0 State.reset.dram.mem ∧ State.reset.adm.nextAsn = 1 ∧ State.reset.dict.durable = [] ∧
    ∀ fn, accepts State.reset fn = false) ∧
  (∀ (s : State) (nbits w : Nat), decodeTableWord nbits w = none ∧ s.withFetchWord nbits w = s)
end

