-- ==== Sys2Proof/Laws/Kv.lean ====
section
/-! SUPPORT. Sparse maps: reading after writing, and that every write keeps the canonical form. -/

namespace Sys2Proof.Machine

variable {α : Type}

@[simp] theorem kvGet_nil (d : α) (k : Nat) : kvGet d k [] = d := rfl

theorem kvGet_cons (d : α) (k : Nat) (e : Nat × α) (m : Kv α) :
    kvGet d k (e :: m) = if k = e.1 then e.2 else kvGet d k m := rfl

/-- A key below every listed key reads the default. -/
theorem kvGet_of_lt (d : α) (k : Nat) (m : Kv α) (h : ∀ e ∈ m, k < e.1) : kvGet d k m = d := by
  induction m with
  | nil => rfl
  | cons e t ih =>
    have he := h e (List.mem_cons_self ..)
    rw [kvGet_cons, if_neg (by omega)]
    exact ih fun x hx => h x (List.mem_cons_of_mem _ hx)

variable [DecidableEq α]

theorem kvWf_nil (d : α) : kvWf d ([] : Kv α) := ⟨List.Pairwise.nil, by simp⟩

theorem kvWf_cons (d : α) (e : Nat × α) (m : Kv α) :
    kvWf d (e :: m) ↔ (∀ x ∈ m, e.1 < x.1) ∧ e.2 ≠ d ∧ kvWf d m := by
  simp only [kvWf, List.map_cons, List.pairwise_cons, List.mem_map, List.mem_cons]
  constructor
  · rintro ⟨⟨h, p⟩, v⟩
    exact ⟨fun x hx => h _ ⟨x, hx, rfl⟩, v e (.inl rfl), p, fun x hx => v x (.inr hx)⟩
  · rintro ⟨h, v, p, q⟩
    refine ⟨⟨?_, p⟩, ?_⟩
    · rintro _ ⟨x, hx, rfl⟩; exact h x hx
    · rintro x (rfl | hx)
      · exact v
      · exact q x hx

/-- The keys of a map after a write are among the keys before it and the key written. -/
theorem kvPut_mem (d : α) (k : Nat) (v : α) (m : Kv α) (e : Nat × α) (h : e ∈ kvPut d k v m) : e = (k, v) ∨ e ∈ m := by
  induction m with
  | nil => unfold kvPut at h; split at h <;> simp_all
  | cons x t ih =>
    obtain ⟨k', v'⟩ := x
    unfold kvPut at h
    split at h
    · split at h <;> simp_all
    · split at h
      · split at h
        · exact .inr (List.mem_cons_of_mem _ h)
        · rcases List.mem_cons.1 h with h | h
          · exact .inl h
          · exact .inr (List.mem_cons_of_mem _ h)
      · rcases List.mem_cons.1 h with h | h
        · exact .inr (h ▸ List.mem_cons_self ..)
        · exact (ih h).imp id (List.mem_cons_of_mem _)

/-- A write keeps the canonical form. -/
theorem kvWf_put (d : α) (k : Nat) (v : α) (m : Kv α) (h : kvWf d m) : kvWf d (kvPut d k v m) := by
  induction m with
  | nil =>
    unfold kvPut; split
    · exact h
    · exact (kvWf_cons ..).2 ⟨by simp, ‹_›, h⟩
  | cons e t ih =>
    obtain ⟨k', v'⟩ := e
    obtain ⟨hk, hv, ht⟩ := (kvWf_cons ..).1 h
    unfold kvPut
    split
    · split
      · exact h
      · refine (kvWf_cons ..).2 ⟨?_, ‹_›, h⟩
        intro x hx
        rcases List.mem_cons.1 hx with rfl | hx
        · assumption
        · have := hk x hx; dsimp only at *; omega
    · split
      · split
        · exact ht
        · rename_i e _; subst e
          exact (kvWf_cons ..).2 ⟨hk, ‹_›, ht⟩
      · refine (kvWf_cons ..).2 ⟨?_, hv, ih ht⟩
        intro x hx
        rcases kvPut_mem _ _ _ _ _ hx with rfl | hx
        · dsimp only; omega
        · exact hk x hx

/-- A run of writes keeps the canonical form. -/
theorem kvWf_putRun (d : α) (k : Nat) (l : List α) (m : Kv α) (h : kvWf d m) : kvWf d (kvPutRun d k l m) := by
  induction l generalizing k m with
  | nil => exact h
  | cons v t ih => exact ih _ _ (kvWf_put _ _ _ _ h)

/-- Entries taken out leave the canonical form. -/
theorem kvWf_filter (d : α) (m : Kv α) (p : Nat × α → Bool) (h : kvWf d m) : kvWf d (m.filter p) := by
  refine ⟨?_, fun e he => h.2 e (List.mem_of_mem_filter he)⟩
  exact List.Pairwise.sublist (List.Sublist.map _ (List.filter_sublist ..)) h.1

/-- A key reads what was written to it. -/
theorem kvGet_put_self (d : α) (k : Nat) (v : α) (m : Kv α) (h : kvWf d m) : kvGet d k (kvPut d k v m) = v := by
  induction m with
  | nil => unfold kvPut; split <;> simp_all [kvGet_cons]
  | cons e t ih =>
    obtain ⟨k', v'⟩ := e
    obtain ⟨hk, hv, ht⟩ := (kvWf_cons ..).1 h
    unfold kvPut
    split
    · split
      · rename_i hlt hd
        rw [hd]; apply kvGet_of_lt
        intro x hx
        rcases List.mem_cons.1 hx with rfl | hx
        · exact hlt
        · have := hk x hx; dsimp only at *; omega
      · simp [kvGet_cons]
    · split
      · rename_i e; subst e
        split
        · rename_i hd
          rw [hd]; exact kvGet_of_lt _ _ _ hk
        · simp [kvGet_cons]
      · rw [kvGet_cons, if_neg (by assumption)]
        exact ih ht

/-- Every other key reads as before. -/
theorem kvGet_put_other (d : α) (k j : Nat) (v : α) (m : Kv α) (h : kvWf d m) (hj : j ≠ k) :
    kvGet d j (kvPut d k v m) = kvGet d j m := by
  induction m with
  | nil => unfold kvPut; split <;> simp [kvGet_cons, hj]
  | cons e t ih =>
    obtain ⟨k', v'⟩ := e
    obtain ⟨hk, hv, ht⟩ := (kvWf_cons ..).1 h
    unfold kvPut
    split
    · split
      · rfl
      · rw [kvGet_cons, if_neg hj]
    · split
      · rename_i e; subst e
        split
        · rw [kvGet_cons, if_neg hj]
        · simp [kvGet_cons, hj]
      · rw [kvGet_cons, kvGet_cons, ih ht]

/-- A run of writes leaves every key outside the run. -/
theorem kvGet_putRun_other (d : α) (k j : Nat) (l : List α) (m : Kv α) (h : kvWf d m) (hj : j < k ∨ k + l.length ≤ j) :
    kvGet d j (kvPutRun d k l m) = kvGet d j m := by
  induction l generalizing k m with
  | nil => rfl
  | cons v t ih =>
    rw [List.length_cons] at hj
    rw [kvPutRun, ih _ _ (kvWf_put _ _ _ _ h) (by omega), kvGet_put_other _ _ _ _ _ h (by omega)]

/-- Each key of a run reads the run's value. -/
theorem kvGet_putRun_self (d : α) (k i : Nat) (l : List α) (m : Kv α) (h : kvWf d m) (hi : i < l.length) :
    kvGet d (k + i) (kvPutRun d k l m) = l[i] := by
  induction l generalizing k i m with
  | nil => simp at hi
  | cons v t ih =>
    rw [kvPutRun]
    cases i with
    | zero => rw [kvGet_putRun_other _ _ _ _ _ (kvWf_put _ _ _ _ h) (by omega)]; exact kvGet_put_self _ _ _ _ h
    | succ i =>
      rw [show k + (i + 1) = k + 1 + i by omega, ih _ _ _ (kvWf_put _ _ _ _ h) (by simpa using hi)]
      simp

/-- The rest of a map in canonical form is in canonical form. -/
theorem kvWf_tail (d : α) (e : Nat × α) (m : Kv α) (h : kvWf d (e :: m)) : kvWf d m := ((kvWf_cons ..).1 h).2.2

end Sys2Proof.Machine
end

