-- ==== Sys2Proof/Laws/Commands.lean ====
section
/-! SUPPORT. What the shared paths of the commands do once their conditions hold: the words of Sys2Proof/Safety.lean
bring a command to its meaning. -/

namespace Sys2Proof.Machine

/-! Host commands. -/

/-- Taking a command up keeps everything but its grant, the internal numbers and the time its lens's commands have reached
the fabric. -/
theorem startCmd_fields (s : State) (op : IoOp) (c : IoCmd) :
    (upState s op c).nss = s.nss ∧ (upState s op c).dict = s.dict ∧ (upState s op c).pair = s.pair ∧
      (upState s op c).win = s.win ∧ (upState s op c).zones = s.zones ∧ (upState s op c).sched = s.sched ∧
      (upState s op c).host.cmds = s.host.cmds ∧ (upState s op c).host.fns = s.host.fns ∧
      (upState s op c).host.cq = s.host.cq ∧ (upState s op c).adm.preserve = s.adm.preserve ∧
      (upState s op c).casc = s.casc ∧ (upState s op c).free = s.free := ⟨rfl, rfl, rfl, rfl, rfl, rfl, rfl, rfl, rfl, rfl, rfl, rfl⟩

/-- A command taken up is the host's, under the next internal number, with the crossing time in order. -/
theorem startCmd_cmd (s : State) (op : IoOp) (c : IoCmd) :
    (upCmd s op c).op = op ∧ (upCmd s op c).id = s.host.nextId ∧ (upCmd s op c).status = 0 ∧ (upCmd s op c).origin = 0 ∧
      (upCmd s op c).io = { c with cross := Nat.max c.cross (kvGet 0 0 s.adm.crossed) } := ⟨rfl, rfl, rfl, rfl, rfl⟩

/-- The entry found for an identifier has that identifier. -/
theorem ns?_nsid {s : State} {i : Nat} {n : Ns} (h : ns? s i = some n) : n.nsid = i := by
  simpa using List.find?_some h

/-- A served command is past checks 1 to 6. -/
theorem withChecks_served {s : State} {op : IoOp} {c : IoCmd} {n : Ns} (h : Served s op c n)
    (f : State → Cmd → State) : withChecks s op c f = f (upState s op c) (upCmd s op c) := by
  obtain ⟨a, b, _⟩ := h
  simp [withChecks, a, b]

/-- A served command finds its namespace. -/
theorem withNs_served {s : State} {op : IoOp} {c : IoCmd} {n : Ns} (h : Served s op c n)
    (f : Ns → State) : withNs (upState s op c) (upCmd s op c) f = f n := by
  have : ns? (upState s op c) (upCmd s op c).io.nsid = some n := h.2.2
  simp only [withNs, this]

/-- An admin command of the physical function that is taken reaches its meaning. -/
theorem withAdmin_served {s : State} {a : Adm} (h : AdminServed s a) (b : Bool) (f : State → State) :
    withAdmin s a b f = f s := by
  obtain ⟨x, y⟩ := h
  unfold withAdmin
  rw [y] at x ⊢
  simp [x]

/-- A TDISP request over the DOE session reaches its meaning. -/
theorem tdRequest_served {s : State} {lens : Nat} (h1 : s.rst.life = .service) (h2 : 3 ∈ s.ciph.sessions)
    (h3 : (fnc s lens).lens ≠ .disabled) (f : State → State) : tdRequest s lens f = f s := by
  simp [tdRequest, *]

/-! Frames. -/

/-- A frame that is taken in has its effect in the state that keeps its sequence. -/
theorem receive_taken {s : State} {h : FrameHdr} (r : Received s h) (f : State → State) :
    receive s h f = f (taken s h) := by
  obtain ⟨a, b, c, d⟩ := r
  unfold receive
  rw [if_neg (by simp [a, b]), if_neg (by omega), if_neg (by omega)]

/-! Die script instructions. -/

/-- An instruction that may run has its effect once it is counted. -/
theorem scriptStep_ready {s : State} {d op : Nat} {w : Word32} (h : ScriptReady s d op w) (body : State → Ctx → State) :
    scriptStep s d op w body = body (scriptNext s d) (ticked s d) := by
  obtain ⟨a, b, c, e, f, g, j, i⟩ := h
  have m : scriptMeets s d op w = true := by simp only [scriptMeets, e, i]; simp
  unfold scriptStep takeBus
  simp only [b, c, e, f, m]
  rw [if_neg (by simp; intro x; simp [x] at a)]
  simp [Nat.not_le.2 g, scriptNext, ticked, b, j]

/-- A word of an undefined opcode, one with a reserved bit, an instruction past the count and an index past the code are
script faults. -/
theorem scriptStep_fault {s : State} {d op : Nat} {w : Word32} (h1 : (ctx s d).entry.isSome = true)
    (h2 : (ctx s d).waiting = false) (h3 : (chan s (dieChan d)).holder = some d)
    (m : scriptMeets s d op w = true) (h : wOp w ≠ op ∨ wReserved w ≠ 0 ∨ 65536 ≤ (ctx s d).count ∨ pastEnd s d = true)
    (body : State → Ctx → State) :
    scriptStep s d op w body = scriptFault s d := by
  unfold scriptStep takeBus
  simp only [h2, h3, m]
  rw [if_neg (by simp; intro x; simp [x] at h1)]
  simp [h]

/-! Loop instructions. -/

/-- An instruction that may run has its effect once it is counted. -/
theorem loopStep_ready {s : State} {k op : Nat} {w : Word32} (h : LoopReady s k op w) (body : State → Engine → State) :
    loopStep s k op w body = body (loopNext s k) (loopTicked s k) := by
  obtain ⟨a, b, c, e, i⟩ := h
  have m : loopMeets (eng s k) op w = true := by simp only [loopMeets, c, i]; simp
  unfold loopStep
  rw [if_neg (by simp [a, m]), if_neg (by omega), if_neg (by simp [c]), if_neg (by simp [e])]

/-- Saturation of an accumulator, and of a data word. -/
theorem accSat_eq (v : Int) : accSat v = max (-2 ^ 39) (min (2 ^ 39 - 1) v) := by
  unfold accSat clampInt accMin accMax; omega
theorem q15Sat_eq (v : Int) : q15Sat v = max (-32768) (min 32767 v) := by
  unfold q15Sat clampInt; omega
theorem accOver_iff (v : Int) : accOver v = true ↔ v < -2 ^ 39 ∨ 2 ^ 39 - 1 < v := by
  unfold accOver accMin accMax
  simp only [Bool.or_eq_true, decide_eq_true_eq]

/-- An accumulator instruction writes its saturated value and counts a saturation. -/
theorem loopAcc_ready {s : State} {k op : Nat} {w : Word32} (h : LoopReady s k op w) (f : Engine → Int) :
    loopAcc k op w s f = accWrites s k w (f (loopTicked s k)) := by
  simp only [loopAcc, loopStep_ready h, accSat_eq, accOver_iff]

/-- A data word instruction writes a word that is not an input. -/
theorem loopWord_ready {s : State} {k op : Nat} {w : Word32} (h : LoopReady s k op w) (g : 0x20 ≤ lwM w)
    (f : Engine → Int) : loopWord k op w s f = wordWrites s k w (f (loopTicked s k)) := by
  simp only [loopWord, loopStep_ready h]
  rw [if_neg (by omega)]

end Sys2Proof.Machine
end

