-- ==== Sys2Proof/Laws/Recorder.lean ====
section
/-! SUPPORT. What a counter and a Loupe entry can touch, said once: the dictionary store, the recorder and its pins. -/

namespace Sys2Proof.Machine

/-- A counter changes the dictionary store only. -/
theorem odBump_writes (s : State) (obj elem inst n : Nat) :
    ∃ d, odBump s obj elem inst n = { s with dict := d } := ⟨_, rfl⟩

/-- Storing an entry in the live buffer changes the recorder only. -/
theorem loupeLive_writes (s : State) (e : LEntry) : ∃ l, loupeLive s e = { s with loupe := l } := by
  unfold loupeLive; split <;> exact ⟨_, rfl⟩

/-- Storing an entry in the retained memory changes the recorder only. -/
theorem loupeKeep_writes (s : State) (e : LEntry) : ∃ l, loupeKeep s e = { s with loupe := l } := by
  unfold loupeKeep; split <;> exact ⟨_, rfl⟩

/-- What an entry may touch. -/
def Says (s t : State) : Prop := ∃ l p d, t = { s with loupe := l, pins := p, dict := d }

theorem Says.refl (s : State) : Says s s := ⟨s.loupe, s.pins, s.dict, rfl⟩

theorem Says.trans {s t u : State} (a : Says s t) (b : Says t u) : Says s u := by
  obtain ⟨l, p, d, rfl⟩ := a
  obtain ⟨l2, p2, d2, rfl⟩ := b
  exact ⟨l2, p2, d2, rfl⟩

theorem Says.ite {s a b : State} (c : Prop) [Decidable c] (ha : Says s a) (hb : Says s b) :
    Says s (if c then a else b) := by split <;> assumption

theorem loupeLive_says (s : State) (e : LEntry) : Says s (loupeLive s e) := by
  obtain ⟨l, h⟩ := loupeLive_writes s e
  exact h ▸ ⟨l, s.pins, s.dict, rfl⟩

theorem loupeKeep_says (s : State) (e : LEntry) : Says s (loupeKeep s e) := by
  obtain ⟨l, h⟩ := loupeKeep_writes s e
  exact h ▸ ⟨l, s.pins, s.dict, rfl⟩

/-- A Loupe entry changes the recorder, the pins and the dictionary's counters only. -/
theorem loupeEntry_says (s : State) (rule subject sev : Nat) (detail : List Nat) (t : Option Nat) :
    Says s (loupeEntry s rule subject sev detail t) := by
  unfold loupeEntry
  extract_lets acts e _ s1 _ s2 s3 _ s4 _ s5 _ s6 _ s7 s8 _
  refine Says.ite _ ⟨_, _, _, rfl⟩ ?_
  have h2 : Says s s2 := Says.trans ⟨_, _, _, rfl⟩ (loupeLive_says s1 e)
  have h3 : Says s s3 := Says.ite _ (h2.trans (loupeKeep_says s2 e)) h2
  have h4 : Says s s4 := Says.ite _ (h3.trans ⟨_, _, _, rfl⟩) h3
  have h5 : Says s s5 := Says.ite _ (h4.trans ⟨_, _, _, rfl⟩) h4
  have h6 : Says s s6 := Says.ite _ (h5.trans ⟨_, _, _, rfl⟩) h5
  have h7 : Says s s7 := Says.ite _ (h6.trans ⟨_, _, _, rfl⟩) h6
  have h8 : Says s s8 := by
    cases t
    · exact h7
    · exact h7.trans ⟨_, _, _, rfl⟩
  exact Says.ite _ (h8.trans ⟨_, _, _, rfl⟩) h8

/-- An event changes the recorder, the pins and the dictionary's counters only. -/
theorem loupe_says (s : State) (rule subject sev : Nat) (detail : List Nat) :
    Says s (loupe s rule subject sev detail) :=
  loupeEntry_says _ _ _ _ _ _

/-- So do the events of a list. -/
theorem loupes_say {α : Type} (f : State → α → State) (h : ∀ s a, Says s (f s a)) (l : List α) (s : State) :
    Says s (l.foldl f s) := by
  induction l generalizing s with
  | nil => exact Says.refl s
  | cons a t ih => exact (h s a).trans (ih _)

end Sys2Proof.Machine
end

