-- ==== Sys2Proof/Laws/HostPaths.lean ====
section
/-! SUPPORT. What the host paths do: a command's end, a read of zones without media, and the admission of the only
command of a lone device. -/

namespace Sys2Proof.Machine

/-- A namespace that is not ending is left alone. -/
theorem settleNs_none (s : State) (i : Nat) (h : ∀ n, ns? s i = some n → n.ending = none) : settleNs s i = s := by
  unfold settleNs; cases hn : ns? s i with
  | none => rfl
  | some n => simp [h n hn]
/-- Outside a sanitize nothing is settled. -/
theorem settleSan_idle (s : State) (h : s.host.sanitizeStatus ≠ 2) : settleSanitize s = s := by
  unfold settleSanitize; rw [if_pos (by simp [h])]

/-- What a log mark writes: function state and dictionary counters. -/
abbrev Marks (s t : State) : Prop := ∃ f d, t = { s with host.fns := f, dict := d }
/-- Marks chain. -/
theorem Marks.trans {s t u : State} (h : Marks s t) (k : Marks t u) : Marks s u := by
  obtain ⟨f, d, rfl⟩ := h; obtain ⟨g, e, rfl⟩ := k; exact ⟨g, e, rfl⟩
/-- A write to host memory marks the log and counts. -/
theorem dmaWrite_marks (s : State) (n a b c : Nat) : Marks s (dmaWrite s n a b c) := by
  unfold dmaWrite; dsimp only; (repeat' split) <;> exact ⟨_, _, rfl⟩
/-- A completion marks and touches the completion list only. -/
theorem post_writes (s : State) (n sq cid gen st d0 d1 : Nat) (p : Payload) (a b c d : Nat) :
    ∃ t q, Marks s t ∧ post s n sq cid gen st d0 d1 p a b c d = { t with host.cq := q } := by
  unfold post
  split
  · exact ⟨s, s.host.cq, ⟨_, _, rfl⟩, rfl⟩
  split
  · exact ⟨_, _, (dmaWrite_marks _ _ _ _ _).trans (dmaWrite_marks _ _ _ _ _), rfl⟩
  split
  · exact ⟨s, s.host.cq, ⟨_, _, rfl⟩, rfl⟩
  dsimp only; split
  · exact ⟨odBump s 0x6220 7 n, s.host.cq, ⟨_, _, rfl⟩, rfl⟩
  · exact ⟨odBump (odBump s 0x6220 7 n) 0x6220 8 n, s.host.cq, ⟨_, _, rfl⟩, rfl⟩
/-- A command of this controller ends with marks and its completion. -/
theorem endCmd_writes (s : State) (k : Cmd) (p : Payload) (h : k.origin = 0) :
    ∃ t q, Marks (dropCmd s k.id) t ∧ endCmd s k p = { t with host.cq := q } := by
  unfold endCmd; simp only [h]
  obtain ⟨t, q, ht, h⟩ := post_writes (setFn (dropCmd s k.id) k.io.fn { fnc (dropCmd s k.id) k.io.fn with commands := (fnc (dropCmd s k.id) k.io.fn).commands + 1 }) k.io.fn k.io.sq k.io.cid k.gen k.status k.dw0 k.dw1 p k.io.pasid k.io.dptr
      (k.io.nlb * extBytes (match ns? (setFn (dropCmd s k.id) k.io.fn { fnc (dropCmd s k.id) k.io.fn with commands := (fnc (dropCmd s k.id) k.io.fn).commands + 1 }) k.io.nsid with | some n => n.lbaf | none => 0)) k.io.cqAddr
  exact ⟨t, q, .trans ⟨_, _, rfl⟩ ht, h⟩

/-- A command of this controller's own ends: its completion is posted and nothing else ends with it. -/
theorem finishCmd_quiet (s : State) (k : Cmd) (p : Payload) (h1 : ∀ n, ns? s k.io.nsid = some n → n.ending = none)
    (h2 : s.host.sanitizeStatus ≠ 2) (h0 : k.origin = 0) : finishCmd s k p = endCmd s k p := by
  obtain ⟨t, q, ⟨f, e, rfl⟩, h⟩ := endCmd_writes s k p h0
  unfold finishCmd
  rw [settleNs_none _ _ (by rw [h]; exact h1), settleSan_idle _ (by rw [h]; exact h2)]

/-- The generation test does not see other fields of a function. -/
theorem genOk_setFn (s : State) (n i g : Nat) (v : Fn) (w : kvWf {} s.host.fns) (a : v.gen = (fnc s i).gen) (b : v.genWait = (fnc s i).genWait) :
    genOk (setFn s i v) n g = genOk s n g := by
  have : ∀ n, (fnc (setFn s i v) n).gen = (fnc s n).gen ∧ (fnc (setFn s i v) n).genWait = (fnc s n).genWait := by
    intro n; simp only [fnc, setFn]
    by_cases h : n = i
    · subst h; rw [kvGet_put_self _ _ _ _ w]; exact ⟨a, b⟩
    · rw [kvGet_put_other _ _ _ _ _ w h]; exact ⟨rfl, rfl⟩
  simp [genOk, curGen, this]
/-- A command of a live generation ends with its entry. -/
theorem endCmd_posts (s : State) (k : Cmd) (p : Payload) (h0 : k.origin = 0) (h1 : s.power.hold = .running) (w : kvWf {} s.host.fns)
    (h2 : genOk s k.io.fn k.gen = true) : (endCmd s k p).host.cq = s.host.cq ++
      [{ fn := k.io.fn, sq := k.io.sq, cid := k.io.cid, status := k.status, dw0 := k.dw0, dw1 := k.dw1, payload := p }] := by
  unfold endCmd; simp only [h0]
  have g : genOk (setFn (dropCmd s k.id) k.io.fn { fnc (dropCmd s k.id) k.io.fn with commands := (fnc (dropCmd s k.id) k.io.fn).commands + 1 }) k.io.fn k.gen = true := by
    exact (genOk_setFn (dropCmd s k.id) k.io.fn k.io.fn k.gen { fnc (dropCmd s k.id) k.io.fn with commands := (fnc (dropCmd s k.id) k.io.fn).commands + 1 } w rfl rfl).trans h2
  unfold post
  rw [if_neg (by simp [setFn, dropCmd, h1]), if_pos g]
  dsimp only
  generalize (if p.isNone = true then 0 else _) = len
  obtain ⟨a, b, e⟩ := (dmaWrite_marks (setFn (dropCmd s k.id) k.io.fn { fnc (dropCmd s k.id) k.io.fn with commands := (fnc (dropCmd s k.id) k.io.fn).commands + 1 }) k.io.fn k.io.pasid k.io.dptr len).trans (dmaWrite_marks _ k.io.fn k.io.pasid k.io.cqAddr 16)
  rw [e]
  rfl
/-- So does one that finishes with nothing else ending. -/
theorem finish_posts (s : State) (k : Cmd) (p : Payload) (h1 : ∀ n, ns? s k.io.nsid = some n → n.ending = none)
    (h2 : s.host.sanitizeStatus ≠ 2) (h0 : k.origin = 0) (h3 : s.power.hold = .running) (w : kvWf {} s.host.fns)
    (h4 : genOk s k.io.fn k.gen = true) : (finishCmd s k p).host.cq = s.host.cq ++
      [{ fn := k.io.fn, sq := k.io.sq, cid := k.io.cid, status := k.status, dw0 := k.dw0, dw1 := k.dw1, payload := p }] := by
  rw [finishCmd_quiet s k p h1 h2 h0]; exact endCmd_posts s k p h0 h3 w h4
/-- A served command finds its namespace alive, no sanitize and a running device. -/
theorem served_quiet {s : State} {op c n} (h : Served s op c n) : n.ending = none ∧ s.host.sanitizeStatus ≠ 2 ∧ s.power.hold = .running := by
  obtain ⟨a, b, d⟩ := h
  simp only [checks, d] at b
  refine ⟨?_, ?_, ?_⟩
  · by_contra x
    have : n.ending.isSome = true := by cases hn : n.ending <;> simp_all
    simp only [this] at b
    revert b; (repeat' split) <;> simp_all
  · intro x
    simp only [x] at b
    revert b; (repeat' split) <;> simp_all
  · simp [accepts, inService] at a; exact a.1.1.1.1.1.2

/-- A read of blocks that need no media and wait for no write has all it needs. -/
theorem serveRead_zero (s : State) (n : Ns) (k : Cmd) (hn : ns? s k.io.nsid = some n) (he : n.extents = []) (hz : n.zoned = true)
    (hp : n.pit = 0) (z : Nat) (h0 : 0 < k.io.nlb) (hzz : ∀ i < k.io.nlb, n.zoneOf (k.io.slba + i) = some z)
    (hst : (zone s z).st = .empty) (hc : s.host.cmds = []) :
    serveRead s n k = tryRead (holdCmd (placeGrant s 0 0)
      { k with stage := .reading, snap := List.replicate k.io.nlb (some 0), waits := [], need := [] }) k.id := by
  set lbas := (List.range k.io.nlb).map (k.io.slba + ·) with hl
  have mem : ∀ l ∈ lbas, n.zoneOf l = some z := by
    intro l h; simp only [hl, List.mem_map, List.mem_range] at h; obtain ⟨i, hi, rfl⟩ := h; exact hzz i hi
  have hpos : ∀ l, n.posOf l = none := by intro l; simp [Ns.posOf, he]
  have hpend : ∀ l, pendingWriter s n.nsid l = none := by intro l; simp [pendingWriter, hc]
  have hbz : ∀ l ∈ lbas, blockZero s n l = true := by intro l h; simp [blockZero, hz, mem l h, hst]
  have hba : ∀ l ∈ lbas, blockAt s n l = 0 := by intro l h; simp [blockAt, hbz l h]
  have huz : ∀ u, unitZero s n lbas u = true := by
    intro u; simp only [unitZero, List.all_eq_true, List.mem_filter]; intro l h; exact hbz l h.1
  have hoff : (lbas.any fun l => match n.zoneOf l with
      | some z => (match n.posOf l with | some p => p == casPos s | none => true) && (zone s z).st == .offline
      | none => false) = false := by
    simp only [List.any_eq_false]; intro l h; simp [mem l h, hpos, hst]
  have hun : ((unitsOf n.bpu k.io.slba k.io.nlb).filter fun u => (match n.posOf (u * n.bpu) with | some p => p == casPos s | none => true) && !unitZero s n lbas u) = [] := by
    simp [huz]
  unfold serveRead
  simp only [← hl]
  rw [if_neg]
  · simp only [hpos, huz, Bool.not_true, Bool.and_false, Bool.true_and, hpend, Option.isNone_none, List.filter_false, List.find?_nil, List.filterMap_nil, List.filter_nil, List.map_nil, List.append_nil, List.foldl_nil, List.any_nil]
    have hs : (lbas.map fun l => if (blockZero s n l || !(pairRole s == 2 && pairPhase s == 3 && (zone s ((n.zoneOf (l / n.bpu * n.bpu)).getD 0)).marked.isSome)) = true then some (blockAt s n l) else none) = List.replicate k.io.nlb (some 0) := by
      rw [List.eq_replicate_iff]
      refine ⟨by simp [hl], fun b hb => ?_⟩
      obtain ⟨l, h, rfl⟩ := List.mem_map.1 hb
      simp [hbz l h, hba l h]
    have hw : ∀ (L acc : List Nat), L.foldl (fun acc _ => acc) acc = acc := by intro L acc; simp
    rw [hs, hw]
  · simp only [Bool.and_eq_true, not_and, hz, true_implies, List.any_eq_true, not_exists]
    intro l h; simp [mem l h, hpos, hst]

/-- It ends at once with zeroes. -/
theorem serveRead_zero_ends (s : State) (n : Ns) (k : Cmd) (hn : ns? s k.io.nsid = some n) (he : n.extents = []) (hz : n.zoned = true)
    (hp : n.pit = 0) (z : Nat) (h0 : 0 < k.io.nlb) (hzz : ∀ i < k.io.nlb, n.zoneOf (k.io.slba + i) = some z)
    (hst : (zone s z).st = .empty) (hc : s.host.cmds = []) (k1 : Cmd)
    (hk : k1 = if k.status = 0 ∧ k.op = .compare ∧ k.cmp ≠ List.replicate k.io.nlb (n.flip 0) then
      { k with stage := .reading, snap := List.replicate k.io.nlb (some 0), waits := [], need := [], status := stCompare } else
      { k with stage := .reading, snap := List.replicate k.io.nlb (some 0), waits := [], need := [] }) :
    let k0 : Cmd := { k with stage := .reading, snap := List.replicate k.io.nlb (some 0), waits := [], need := [] }
    let t := holdCmd (placeGrant s 0 0) k0
    serveRead s n k = finishCmd (setFn t k1.io.fn { fnc t k1.io.fn with
      readUnits := (fnc t k1.io.fn).readUnits + (if k1.op = .read ∧ k1.status = 0 then k1.io.nlb else 0) }) k1
      (if k1.op = .read ∧ k1.status = 0 then .blocks (List.replicate k.io.nlb (n.flip 0)) else .none) := by
  intro k0 t
  rw [serveRead_zero s n k hn he hz hp z h0 hzz hst hc]
  have e2 : tryRead t k.id = readDone t k0 := by
    unfold tryRead
    have : cmd? t k.id = some k0 := by simp [t, cmd?, holdCmd, placeGrant, hc, k0]
    rw [this]
    simp [k0]; omega
  have hd : readData t k0 = List.replicate k.io.nlb (n.flip 0) := by
    unfold readData
    have : ns? t k0.io.nsid = some n := hn
    rw [this]; simp [k0]
  have hpi : ∀ l, piFails n k0.io l = none := by intro l; simp [piFails, hp]
  have hn' : ns? t k0.io.nsid = some n := hn
  change tryRead t k.id = _
  rw [e2]
  unfold readDone
  rw [hd, hn']
  simp only [Option.bind_some, hpi, ite_self, piStatus]
  rw [hk]
/-- A rotation over one candidate takes it. -/
theorem rotPick_one (p i : Nat) : rotPick p [i] = some i := by
  unfold rotPick; by_cases h : p ≤ i <;> simp [h]
/-- The images of an admission depend on its result only. -/
theorem withUndo_congr (f g : State → State) (s : State) (h : f s = g s) : withUndo f s = withUndo g s := by
  unfold withUndo; rw [h]

/-- Namespaces, sanitize state, cascade and the next ASN are as they were. -/
abbrev Mild (s t : State) : Prop :=
  t.nss = s.nss ∧ t.host.sanitizeStatus = s.host.sanitizeStatus ∧ t.casc = s.casc ∧ t.adm.nextAsn = s.adm.nextAsn

abbrev MildZ (s t : State) : Prop := Mild s t ∧ t.zones = s.zones

theorem Mild.trans {s t u : State} (h : Mild s t) (k : Mild t u) : Mild s u :=
  ⟨k.1.trans h.1, k.2.1.trans h.2.1, k.2.2.1.trans h.2.2.1, k.2.2.2.trans h.2.2.2⟩

theorem MildZ.trans {s t u : State} (h : MildZ s t) (k : MildZ t u) : MildZ s u := ⟨h.1.trans k.1, k.2.trans h.2⟩

theorem MildZ.refl (s : State) : MildZ s s := ⟨⟨rfl, rfl, rfl, rfl⟩, rfl⟩

theorem mildZ_foldl {α : Type} (f : State → α → State) (h : ∀ s a, MildZ s (f s a)) (l : List α) (s : State) : MildZ s (l.foldl f s) := by
  induction l generalizing s with
  | nil => exact .refl s
  | cons a t ih => exact (h s a).trans (ih _)

theorem Says.mild {s t : State} (h : Says s t) : MildZ s t := by obtain ⟨l, p, d, rfl⟩ := h; exact .refl _

theorem Marks.mild {s t : State} (h : Marks s t) : MildZ s t := by obtain ⟨l, p, rfl⟩ := h; exact .refl _

theorem post_mild (s : State) (n sq cid gen st d0 d1 : Nat) (p : Payload) (a b c d : Nat) : MildZ s (post s n sq cid gen st d0 d1 p a b c d) := by
  obtain ⟨t, q, ht, h⟩ := post_writes s n sq cid gen st d0 d1 p a b c d
  rw [h]; exact ht.mild

theorem answerAer_mild (s : State) (n : Nat) (r : Nat × Nat) (a b : Nat) : MildZ s (answerAer s n r a b) := by
  unfold answerAer; dsimp only
  have h := (dmaWrite_marks s n 0xFFFFFFFF r.2 16).mild
  exact ⟨⟨h.1.1, h.1.2.1, h.1.2.2.1, h.1.2.2.2⟩, h.2⟩

theorem aen_mild (s : State) (n etype info : Nat) : MildZ s (aen s n etype info) := by
  unfold aen; dsimp only; split
  · exact MildZ.trans (⟨⟨rfl, rfl, rfl, rfl⟩, rfl⟩ : MildZ s (setFn s n _)) (answerAer_mild ..)
  · exact .refl _

theorem zoneChanged_mild (s : State) (a b : Nat) : MildZ s (zoneChanged s a b) := by
  unfold zoneChanged; exact mildZ_foldl _ (fun s n => MildZ.trans (⟨⟨rfl, rfl, rfl, rfl⟩, rfl⟩ : MildZ s (setFn s n _)) (aen_mild ..)) _ _

theorem reliability_mild (s : State) (a : Nat) : MildZ s (reliability s a) := by
  unfold reliability; refine mildZ_foldl _ (fun s n => ?_) _ _
  dsimp only; split
  · exact .refl _
  · exact MildZ.trans (⟨⟨rfl, rfl, rfl, rfl⟩, rfl⟩ : MildZ s (setFn s n _)) (aen_mild ..)

theorem sendFrame_mild (s : State) (k : Nat) (b : List Nat) : MildZ s (sendFrame s 0 k b) := .refl _

theorem setRing_mild (s : State) (i : Nat) (v : Ring) : MildZ s (setRing s i v) := ⟨⟨rfl, rfl, rfl, rfl⟩, rfl⟩

theorem dropRewrites_mild (s : State) (z : Nat) : MildZ s (dropRewrites s z) := by
  unfold dropRewrites; refine mildZ_foldl _ (fun s n => ?_) _ _
  dsimp only; split <;> exact .refl _

theorem freeWindow_mild (s : State) (l : List Nat) : MildZ s (freeWindow s l) := by
  unfold freeWindow; refine mildZ_foldl _ (fun s n => ?_) _ _
  exact ⟨⟨rfl, rfl, rfl, rfl⟩, rfl⟩

theorem releaseActive_mild (s : State) (z : Nat) : MildZ s (releaseActive s z) := by
  unfold releaseActive; split
  · split <;> exact .refl _
  · exact .refl _

theorem freeZoneCells_mild (s : State) (z : Nat) : MildZ s (freeZoneCells s z) := by
  unfold freeZoneCells; split <;> exact .refl _

/-- The states of all zones are as they were. -/
abbrev SameSt (s t : State) : Prop := kvWf {} s.zones → kvWf {} t.zones ∧ ∀ y, ((zone t y).st, (zone t y).wp) = ((zone s y).st, (zone s y).wp)

abbrev MildS (s t : State) : Prop := Mild s t ∧ SameSt s t

theorem MildS.trans {s t u : State} (h : MildS s t) (k : MildS t u) : MildS s u :=
  ⟨h.1.trans k.1, fun w => ⟨(k.2 (h.2 w).1).1, fun y => ((k.2 (h.2 w).1).2 y).trans ((h.2 w).2 y)⟩⟩

theorem MildZ.st {s t : State} (h : MildZ s t) : MildS s t := ⟨h.1, fun w => by rw [h.2]; exact ⟨w, fun y => by simp only [zone, h.2]⟩⟩

theorem MildS.refl (s : State) : MildS s s := (MildZ.refl s).st

theorem mildS_foldl {α : Type} (f : State → α → State) (h : ∀ s a, MildS s (f s a)) (l : List α) (s : State) : MildS s (l.foldl f s) := by
  induction l generalizing s with
  | nil => exact .refl s
  | cons a t ih => exact (h s a).trans (ih _)

theorem setZone_same (s : State) (z : Nat) (v : Zone) (h : (v.st, v.wp) = ((zone s z).st, (zone s z).wp)) : MildS s (setZone s z v) := by
  refine ⟨⟨rfl, rfl, rfl, rfl⟩, fun w => ⟨kvWf_put _ _ _ _ w, fun y => ?_⟩⟩
  unfold zone setZone
  by_cases e : y = z
  · subst e; rw [kvGet_put_self _ _ _ _ w]; exact h
  · rw [kvGet_put_other _ _ _ _ _ w e]

theorem zone_setZone (s : State) (z : Nat) (v : Zone) (w : kvWf {} s.zones) : zone (setZone s z v) z = v := by
  simp only [zone, setZone, kvGet_put_self _ _ _ _ w]

theorem markZone_same (s : State) (z o : Nat) : MildS s (markZone s z o) := by
  unfold markZone; split
  · exact setZone_same _ _ _ rfl
  · exact .refl _

theorem giveCell_same (i a : Nat) (p : Bool) (s : State) (u : Nat × Nat) : MildS s (giveCell i a p s u) := by
  unfold giveCell; dsimp only
  have key : ∀ us x r, MildS s (setRing (setZone s u.1 { zone s u.1 with units := us }) x r) := by
    intro us x r; exact MildS.trans (setZone_same _ _ { zone s u.1 with units := us } rfl) (MildZ.refl _).st
  exact key ..

theorem allocCells_same (s : State) (i a : Nat) (p : Bool) (u : List (Nat × Nat)) : MildS s (allocCells s i a p u) := by
  unfold allocCells; split
  · exact .refl _
  · dsimp only
    refine MildS.trans (MildS.trans (?_ : MildS s _) (mildS_foldl _ (fun _ _ => giveCell_same ..) _ _)) (mildS_foldl _ (fun _ _ => giveCell_same ..) _ _)
    exact (MildZ.refl s).st

theorem completeFolds_same (s : State) (z a : Nat) (l : List Nat) : MildS s (completeFolds s z a l) := setZone_same _ _ _ rfl

theorem rzrOnFull_same (s : State) (n : Ns) (z : Nat) : MildS s (rzrOnFull s n z) := by
  unfold rzrOnFull; split
  · exact MildS.trans (setZone_same s z { zone s z with rzr := true } rfl) (zoneChanged_mild ..).st
  · exact .refl _

theorem leaveEmpty_same (s : State) (n : Ns) (z a : Nat) : MildS s (leaveEmpty s n z a) := by
  unfold leaveEmpty; split
  · dsimp only; exact setZone_same _ _ _ rfl
  · exact .refl _

theorem unmapZone_st (s : State) (z : Nat) (st : ZState) (w : kvWf {} s.zones) :
    Mild s (unmapZone s z st) ∧ kvWf {} (unmapZone s z st).zones ∧ (zone (unmapZone s z st) z).st = st := by
  unfold unmapZone; dsimp only
  have h := ((releaseActive_mild s z).trans (freeZoneCells_mild _ _)).trans (dropRewrites_mild (freeZoneCells (releaseActive s z) z) z)
  have k := h.trans (freeWindow_mild (dropRewrites (freeZoneCells (releaseActive s z) z) z) ((zone (dropRewrites (freeZoneCells (releaseActive s z) z) z) z).units.filterMap fun e => e.2.held))
  generalize freeWindow _ _ = t at *
  have w' : kvWf {} t.zones := by rw [k.2]; exact w
  exact ⟨k.1.trans ⟨rfl, rfl, rfl, rfl⟩, kvWf_put _ _ _ _ w', by rw [zone_setZone _ _ _ (by exact w')]⟩

/-- The state that each action leaves its zone in. -/
def sentTo (s : State) (z : Nat) (a : ZoneAct) : ZState :=
  match a with
  | .openZ => .explOpen
  | .closeZ => if (zone s z).wp = 0 then .empty else .closed
  | .finishZ => .full
  | .resetZ => .empty
  | .offlineZ => .offline

/-- A Zone Management Send leaves its zone in the table's state. -/
theorem applySend_st (s : State) (n : Ns) (z asn : Nat) (a : ZoneAct) (p : s.adm.preserve = false) (w : kvWf {} s.zones)
    (c : a = .closeZ → (zone s z).st.isOpen = true) :
    Mild s (applySend s n z asn a) ∧ kvWf {} (applySend s n z asn a).zones ∧ (zone (applySend s n z asn a) z).st =
sentTo s z a := by
  unfold sentTo
  have fin : ∀ (t u : State) (v : Zone), MildZ s t → MildS (setZone t z v) u → Mild s u ∧ kvWf {} u.zones ∧ (zone u z).st = v.st := by
    intro t u v h k
    have w' : kvWf {} t.zones := by rw [h.2]; exact w
    obtain ⟨a, b⟩ := k.2 (kvWf_put _ _ _ _ w')
    exact ⟨h.1.trans (Mild.trans ⟨rfl, rfl, rfl, rfl⟩ k.1), a, by have := congrArg Prod.fst (b z); rw [zone_setZone _ _ _ w'] at this; exact this⟩
  cases a with
  | openZ =>
    simp only [applySend, p]; rw [if_neg (by simp)]
    have := leaveEmpty_same s n z asn
    split
    · obtain ⟨x, _⟩ := this.2 w
      exact ⟨this.1, kvWf_put _ _ _ _ x, by rw [zone_setZone _ _ _ x]⟩
    · exact fin s _ { zone s z with st := .explOpen } (.refl _) (.refl _)
  | closeZ =>
    simp only [applySend, c rfl, if_true, closeZoneAt]
    split
    · exact fin _ _ { zone s z with st := .empty, ring := none } (releaseActive_mild s z) (.refl _)
    · exact fin _ _ { zone s z with st := .closed } (.refl _) (.refl _)
  | finishZ =>
    simp only [applySend]
    split
    · rename_i h; exact ⟨⟨rfl, rfl, rfl, rfl⟩, w, h⟩
    · unfold finishZoneAt; dsimp only
      generalize (if (zone s z).st = .empty then _ else _ : Zone) = v0
      refine fin _ _ { v0 with st := .full, finish := some v0.wp } (releaseActive_mild s z) ?_
      refine MildS.trans (MildS.trans (MildS.trans ?_ (completeFolds_same ..)) (rzrOnFull_same ..)) (markZone_same ..)
      split
      · exact allocCells_same ..
      · exact .refl _
  | resetZ =>
    simp only [applySend]
    split
    · rename_i h; exact ⟨⟨rfl, rfl, rfl, rfl⟩, w, h⟩
    · obtain ⟨b1, b2, b3⟩ := unmapZone_st s z .empty w
      obtain ⟨x1, x2⟩ := markZone_same (unmapZone s z .empty) z 0
      obtain ⟨x3, x4⟩ := x2 b2
      exact ⟨b1.trans x1, x3, (Prod.mk.inj (x4 z)).1.trans b3⟩
  | offlineZ =>
    simp only [applySend]
    split
    · rename_i h; exact ⟨⟨rfl, rfl, rfl, rfl⟩, w, h⟩
    · obtain ⟨b1, b2, b3⟩ := unmapZone_st s z .offline w
      obtain ⟨x1, x2⟩ := markZone_same (unmapZone s z .offline) z 0
      obtain ⟨x3, x4⟩ := x2 b2
      exact ⟨b1.trans x1, x3, (Prod.mk.inj (x4 z)).1.trans b3⟩

/-- The fields a record leaves. -/
abbrev Recd (s t : State) (m : Nat) : Prop :=
  t.nss = s.nss ∧ t.host = s.host ∧ t.casc = s.casc ∧ t.adm.nextAsn = s.adm.nextAsn + m ∧ t.zones = s.zones

theorem Recd.ite {s a b : State} {m : Nat} (c : Prop) [Decidable c] (ha : Recd s a m) (hb : Recd s b m) : Recd s (if c then a else b) m := by
  split <;> assumption

theorem Recd.loupe {s a : State} {m : Nat} (h : Recd s a m) (x y z : Nat) (l : List Nat) : Recd s (loupe a x y z l) m := by
  obtain ⟨_, _, _, e⟩ := loupe_says a x y z l; rw [e]; exact h

theorem Recd.send {s a : State} {m : Nat} (h : Recd s a m) (k : Nat) (l : List Nat) : Recd s (sendFrame a 0 k l) m := h

theorem addRecord_says (s : State) (r : LedgerRec) (b : Bool) (id : Nat) : Recd s (addRecord s r b id) 1 := by
  unfold addRecord
  extract_lets s1 s2 s3 s4 s5 s6 s7 s8 s9
  have h3 : Recd s s3 1 := ⟨rfl, rfl, rfl, rfl, rfl⟩
  have h6 : Recd s s6 1 := ⟨rfl, rfl, rfl, rfl, rfl⟩
  have h8 : Recd s s8 1 := h6
  have h9 : Recd s s9 1 := .ite _ (.ite _ (.ite _ (.loupe h8 ..) h8) h6) h3
  exact .ite _ (.send h9 ..) h9

theorem conclude_quiet (s : State) (k : Cmd) (h4 : ∀ n, ns? s k.io.nsid = some n → n.ending = none)
    (h5 : s.host.sanitizeStatus ≠ 2) (h6 : k.origin = 0) :
    (conclude s k).zones = s.zones ∧ (conclude s k).adm = s.adm ∧ (conclude s k).nss = s.nss ∧
      (conclude s k).host.sanitizeStatus = s.host.sanitizeStatus := by
  unfold conclude
  split
  · exact ⟨rfl, rfl, rfl, rfl⟩
  · rw [finishCmd_quiet _ _ _ h4 h5 h6]
    obtain ⟨t, q, ⟨f, d, rfl⟩, e⟩ := endCmd_writes s k .none h6
    rw [e]; exact ⟨rfl, rfl, rfl, rfl⟩

/-- A command with nothing left goes on without touching zones or sequence numbers. -/
theorem sendProgress_last (s : State) (k : Cmd) (h1 : k.io.selectAll = false) (h2 : k.posLeft = []) (h3 : s.casc.members = [])
    (h4 : ∀ n, ns? s k.io.nsid = some n → n.ending = none) (h5 : s.host.sanitizeStatus ≠ 2) (h6 : k.origin = 0) :
    (sendProgress s k).zones = s.zones ∧ (sendProgress s k).adm = s.adm := by
  unfold sendProgress; dsimp only
  rw [if_neg (by simp [h1])]
  split
  · rename_i h _; simp [h2] at h
  · rw [if_neg (by simp [partsOut, h3])]
    split
    · exact ⟨rfl, rfl⟩
    · unfold conclude
      split
      · exact ⟨rfl, rfl⟩
      · rw [finishCmd_quiet _ _ _ ?_ ?_ ?_]
        · obtain ⟨t, q, ⟨f, d, rfl⟩, e⟩ := endCmd_writes { s with pair.asked := s.pair.asked.filter fun i => i != k.id } { k with zonesLeft := [] } .none h6
          rw [e]; exact ⟨rfl, rfl⟩
        · exact h4
        · exact h5
        · exact h6
/-- The sequencer of a lone device takes its only command. -/
theorem calm_pick (t : State) (n : Ns) (k : Cmd) (b0 : inService t = true) (b1 : pairRole t = 0) (b2 : t.pair.fenced = false)
    (b3 : t.adm.spent = false) (b4 : t.adm.nextAsn < 2 ^ 64 - 1) (b5 : t.adm.afterClose = none) (b6 : t.adm.due = [])
    (b7 : holdFull t = false) (b8 : t.host.cmds = [k]) (b9 : k.stage = .point) (c1 : k.io.selectAll = false) (c2 : k.held = false)
    (c3 : ns? t k.io.nsid = some n) (c7 : rowHeld t n k k.zone = false) :
    execAsnSequencerPick t = .next (withUndo (fun t => admitPick { t with adm.seqPtr := t.adm.seqPtr } k.zone k) t) := by
  have p1 : settleSelectAll t = t := by simp [settleSelectAll, b8, c1]
  have p2 : zonePicks t = [(k.zone, k)] := by
    simp [zonePicks, b8, pointZone, b9, c1, zonePick, earliest, rotPick_one, addTo]
  have p3 : holdPicks t = t := by
    simp [holdPicks, p2, c3, c7]
  have p4 : seqPick t = some (k.zone, k, t.adm.seqPtr) := by
    simp [seqPick, p2, c2, rotPick_one]
  unfold execAsnSequencerPick
  refine congrArg _ (withUndo_congr _ _ _ ?_)
  have ne : ¬ t.adm.nextAsn = 2 ^ 64 - 1 := by omega
  dsimp only
  rw [if_neg (by simp [b0, b1, b2]), if_neg (by simp [b3]), if_neg ne]
  simp only [b5, Option.bind_none, b6]
  rw [if_neg (by simp [b7])]
  simp only [p1, p3, p4, b5, b6]

/-- The state in which an admitted command takes effect. -/
def atPoint (t : State) (k : Cmd) : State :=
  setZone { t with adm.afterClose := none, adm.zonePtr := kvPut 0 k.zone (k.index + 1) t.adm.zonePtr } k.zone { zone t k.zone with lastAdm := t.adm.nextAsn }
/-- What taking a command at its point changes. -/
theorem atPoint_says (t : State) (k : Cmd) (w : kvWf {} t.zones) : Mild t (atPoint t k) ∧ kvWf {} (atPoint t k).zones ∧
    (atPoint t k).adm.preserve = t.adm.preserve ∧ (zone (atPoint t k) k.zone).st = (zone t k.zone).st ∧
    (zone (atPoint t k) k.zone).wp = (zone t k.zone).wp := by
  unfold atPoint
  have e := zone_setZone { t with adm.afterClose := none, adm.zonePtr := kvPut 0 k.zone (k.index + 1) t.adm.zonePtr } k.zone { zone t k.zone with lastAdm := t.adm.nextAsn } w
  refine ⟨⟨rfl, rfl, rfl, rfl⟩, kvWf_put _ _ _ _ w, rfl, ?_, ?_⟩ <;> rw [e]
/-- An allowed action is admitted. -/
theorem admit_send (t : State) (n : Ns) (k : Cmd) (a : ZoneAct) (c1 : k.io.selectAll = false) (c3 : ns? t k.io.nsid = some n)
    (c4 : k.op = .zoneSend a) (c5 : k.io.slba = n.startOf k.zone) (c6 : sendOutcome t n k.zone t.adm.nextAsn a = { status := 0 }) :
    admitPick { t with adm.seqPtr := t.adm.seqPtr } k.zone k =
      admitSend (atPoint t k) n { k with zonesLeft := trimZones (atPoint t k) k } k.zone t.adm.nextAsn a := by
  have o : outcome t n k k.zone t.adm.nextAsn = { status := 0 } := by simp [outcome, c4, c1, c5, c6]
  unfold admitPick
  have c3' : ns? { t with adm.seqPtr := t.adm.seqPtr } k.io.nsid = some n := c3
  rw [c3']
  dsimp only
  rw [show outcome { t with adm.seqPtr := t.adm.seqPtr } n k k.zone t.adm.nextAsn = { status := 0 } from o]
  simp only [c4]
  rfl
/-- An allowed write is admitted. -/
theorem admit_write (t : State) (n : Ns) (k : Cmd) (c3 : ns? t k.io.nsid = some n)
    (c4 : ∀ a, k.op ≠ .zoneSend a) (c6 : writeOutcome t n k.zone t.adm.nextAsn k.op k.io.slba k.io.nlb = { status := 0 }) :
    admitPick { t with adm.seqPtr := t.adm.seqPtr } k.zone k = admitWrite (atPoint t k) n k k.zone t.adm.nextAsn := by
  have o : outcome t n k k.zone t.adm.nextAsn = { status := 0 } := by
    unfold outcome; split
    · rename_i a h; exact absurd h (c4 a)
    · exact c6
  unfold admitPick
  have c3' : ns? { t with adm.seqPtr := t.adm.seqPtr } k.io.nsid = some n := c3
  rw [c3']
  dsimp only
  rw [show outcome { t with adm.seqPtr := t.adm.seqPtr } n k k.zone t.adm.nextAsn = { status := 0 } from o]
  dsimp only
  rw [if_neg (by decide)]
  split
  · rename_i a h; exact absurd h (c4 a)
  · rfl

/-- A write moves the pointer and opens or fills its zone. -/
theorem advance_st (s : State) (n : Ns) (z asn nlb : Nat) (p : Bool) (w : kvWf {} s.zones) :
    Mild s (advance s n z asn nlb p) ∧ kvWf {} (advance s n z asn nlb p).zones ∧
      (zone (advance s n z asn nlb p) z).wp = (zone s z).wp + nlb ∧
      (zone (advance s n z asn nlb p) z).st = (if n.zcap ≤ (zone s z).wp + nlb then .full else if (zone s z).st = .explOpen then .explOpen else .implOpen) := by
  unfold advance
  have l : MildS s (if (zone s z).st = .empty then leaveEmpty s n z asn else s) := by
    split
    · exact leaveEmpty_same ..
    · exact .refl _
  dsimp only
  generalize (if (zone s z).st = .empty then leaveEmpty s n z asn else s) = t at *
  obtain ⟨l1, l2⟩ := l
  obtain ⟨tw, lz⟩ := l2 w
  obtain ⟨e1, e2⟩ := Prod.mk.inj (lz z)
  rw [e1, e2]
  simp only [decide_eq_true_eq]
  generalize hV : (if n.zcap ≤ (zone s z).wp + nlb then ZState.full else if (zone s z).st = .explOpen then .explOpen else .implOpen) = st
  have vw := kvWf_put {} z { zone t z with wp := (zone s z).wp + nlb, st := st } t.zones tw
  have key : ∀ u, MildS (setZone t z { zone t z with wp := (zone s z).wp + nlb, st := st }) u →
      Mild s u ∧ kvWf {} u.zones ∧ (zone u z).wp = (zone s z).wp + nlb ∧ (zone u z).st = st := by
    intro u k
    obtain ⟨a, b⟩ := k.2 vw
    have := b z
    rw [zone_setZone _ _ _ tw] at this
    obtain ⟨x, y⟩ := Prod.mk.inj this
    exact ⟨l1.trans (Mild.trans ⟨rfl, rfl, rfl, rfl⟩ k.1), a, y, x⟩
  apply key
  refine MildS.trans (MildS.trans (MildS.trans ?_ (markZone_same ..)) (completeFolds_same ..)) (rzrOnFull_same ..)
  dsimp only
  cases (zone t z).ring with
  | none => dsimp only; exact .refl _
  | some inst =>
    dsimp only
    split
    · exact MildS.trans (allocCells_same ..) (setRing_mild ..).st
    · exact allocCells_same ..

theorem holdUnits_same (s : State) (z f : Nat) (l : List Nat) : MildS s (holdUnits s z f l) := by
  unfold holdUnits; refine mildS_foldl _ (fun s u => ?_) _ _
  dsimp only; split
  · exact .refl _
  · have key : ∀ us x v, MildS s (setFn { setZone s z { zone s z with units := us } with win := x } f v) := by
      intro us x v; exact MildS.trans (setZone_same _ _ { zone s z with units := us } rfl) (MildZ.refl _).st
    exact key ..

theorem calm_send (t : State) (n : Ns) (k : Cmd) (a : ZoneAct) (b0 : inService t = true) (b1 : pairRole t = 0) (b2 : t.pair.fenced = false)
    (b3 : t.adm.spent = false) (b4 : t.adm.nextAsn < 2 ^ 64 - 1) (b5 : t.adm.afterClose = none) (b6 : t.adm.due = [])
    (b7 : holdFull t = false) (b8 : t.host.cmds = [k]) (b9 : k.stage = .point) (c1 : k.io.selectAll = false) (c2 : k.held = false)
    (c3 : ns? t k.io.nsid = some n) (c4 : k.op = .zoneSend a) (c5 : k.io.slba = n.startOf k.zone)
    (c6 : sendOutcome t n k.zone t.adm.nextAsn a = { status := 0 }) (c7 : rowHeld t n k k.zone = false)
    (p : t.adm.preserve = false) (w : kvWf {} t.zones) (cl : a = .closeZ → (zone t k.zone).st.isOpen = true)
    (m0 : t.casc.members = []) (q1 : n.ending = none) (q2 : t.host.sanitizeStatus ≠ 2) (q3 : k.origin = 0) (q4 : k.posLeft = []) :
    ∃ u, execAsnSequencerPick t = .next u ∧ (zone u k.zone).st = sentTo t k.zone a ∧ u.adm.nextAsn = t.adm.nextAsn + 1 := by
  refine ⟨_, calm_pick t n k b0 b1 b2 b3 b4 b5 b6 b7 b8 b9 c1 c2 c3 c7, ?_⟩
  unfold withUndo
  dsimp only
  rw [admit_send t n k a c1 c3 c4 c5 c6]
  obtain ⟨ux, uw, up, u1, u2⟩ := atPoint_says t k w
  generalize atPoint t k = U at *
  have ua : sentTo U k.zone a = sentTo t k.zone a := by simp only [sentTo, u1, u2]
  obtain ⟨m, mw, mz⟩ := applySend_st U n k.zone t.adm.nextAsn a (up.trans p) uw (by rw [u1]; exact cl)
  have m' := ux.trans m
  rw [ua] at mz
  clear uw up ua ux m
  unfold admitSend; dsimp only
  generalize applySend U n k.zone t.adm.nextAsn a = A at *
  have r := addRecord_says A (commandRecord A n { k with zonesLeft := trimZones U k } k.zone t.adm.nextAsn stOk (n.startOf k.zone)) true k.id
  generalize addRecord A _ true _ = R at *
  generalize hG : (if a = .offlineZ ∧ (zone U k.zone).st ≠ .offline then reliability R n.nsid else R) = G
  have g : MildZ R G := by
    rw [← hG]; split
    · exact reliability_mild ..
    · exact .refl _
  clear hG
  generalize hK : ({ k with zonesLeft := _, asns := _, unmapLeft := _ } : Cmd) = K
  have k1 : K.io = k.io ∧ K.posLeft = [] ∧ K.origin = 0 := by rw [← hK]; exact ⟨rfl, q4, q3⟩
  have nss : G.nss = t.nss := g.1.1.trans (r.1.trans m'.1)
  obtain ⟨z1, z2⟩ := sendProgress_last (setCmd G K) K (by rw [k1.1]; exact c1) k1.2.1 (by
      rw [show (setCmd G K).casc = G.casc from rfl, g.1.2.2.1, r.2.2.1, m'.2.2.1]; exact m0) (by
      intro x hx
      have : ns? (setCmd G K) K.io.nsid = ns? t k.io.nsid := by
        unfold ns?; rw [k1.1, show (setCmd G K).nss = G.nss from rfl, nss]
      rw [this, c3] at hx; cases hx; exact q1) (by
      rw [show (setCmd G K).host.sanitizeStatus = G.host.sanitizeStatus from rfl, g.1.2.1, r.2.1, m'.2.1]; exact q2) k1.2.2
  constructor
  · rw [← mz]; simp only [zone]
    rw [z1, show (setCmd G K).zones = G.zones from rfl, g.2, r.2.2.2.2]
  · rw [z2, show (setCmd G K).adm = G.adm from rfl, g.1.2.2.2, r.2.2.2.1, m'.2.2.2]

/-- One record more, the same zone states. -/
abbrev R1 (A R : State) : Prop :=
  R.nss = A.nss ∧ R.host.sanitizeStatus = A.host.sanitizeStatus ∧ R.adm.nextAsn = A.adm.nextAsn + 1 ∧ SameSt A R

theorem R1.ite {A a b : State} (c : Prop) [Decidable c] (ha : R1 A a) (hb : R1 A b) : R1 A (if c then a else b) := by
  split <;> assumption

theorem MildZ.same {s t : State} (h : t.zones = s.zones) : SameSt s t :=
  fun w => by rw [h]; exact ⟨w, fun y => by simp only [zone, h]⟩

theorem calm_write (t : State) (n : Ns) (k : Cmd) (b0 : inService t = true) (b1 : pairRole t = 0) (b2 : t.pair.fenced = false)
    (b3 : t.adm.spent = false) (b4 : t.adm.nextAsn < 2 ^ 64 - 1) (b5 : t.adm.afterClose = none) (b6 : t.adm.due = [])
    (b7 : holdFull t = false) (b8 : t.host.cmds = [k]) (b9 : k.stage = .point) (c1 : k.io.selectAll = false) (c2 : k.held = false)
    (c3 : ns? t k.io.nsid = some n) (c4 : ∀ a, k.op ≠ .zoneSend a)
    (c6 : writeOutcome t n k.zone t.adm.nextAsn k.op k.io.slba k.io.nlb = { status := 0 }) (c7 : rowHeld t n k k.zone = false)
    (w : kvWf {} t.zones) (q1 : n.ending = none) (q2 : t.host.sanitizeStatus ≠ 2) (q3 : k.origin = 0) :
    ∃ u, execAsnSequencerPick t = .next u ∧ (zone u k.zone).wp = (zone t k.zone).wp + k.io.nlb ∧
      (zone u k.zone).st = (if n.zcap ≤ (zone t k.zone).wp + k.io.nlb then .full else if (zone t k.zone).st = .explOpen then .explOpen else .implOpen) ∧
      u.adm.nextAsn = t.adm.nextAsn + 1 := by
  refine ⟨_, calm_pick t n k b0 b1 b2 b3 b4 b5 b6 b7 b8 b9 c1 c2 c3 c7, ?_⟩
  unfold withUndo
  dsimp only
  rw [admit_write t n k c3 c4 c6]
  obtain ⟨ux, uw, up, u1, u2⟩ := atPoint_says t k w
  generalize atPoint t k = U at *
  obtain ⟨m, mw, mz, ms⟩ := advance_st (placeGrant U 1 1) n k.zone t.adm.nextAsn k.io.nlb false uw
  have m' : Mild t _ := ux.trans (Mild.trans ⟨rfl, rfl, rfl, rfl⟩ m)
  rw [show zone (placeGrant U 1 1) k.zone = zone U k.zone from rfl] at mz ms
  rw [u1, u2] at ms
  rw [u2] at mz
  clear uw up ux m
  unfold admitWrite; dsimp only
  generalize advance (placeGrant U 1 1) n k.zone t.adm.nextAsn k.io.nlb false = A at *
  have key : ∀ R : State, R1 A R →
      (zone R k.zone).wp = (zone t k.zone).wp + k.io.nlb ∧
      (zone R k.zone).st = (if n.zcap ≤ (zone t k.zone).wp + k.io.nlb then .full else if (zone t k.zone).st = .explOpen then .explOpen else .implOpen) ∧
      R.adm.nextAsn = t.adm.nextAsn + 1 := by
    rintro R ⟨r1, r2, r3, r4⟩
    obtain ⟨x, y⟩ := Prod.mk.inj ((r4 mw).2 k.zone)
    exact ⟨y.trans mz, x.trans ms, by rw [r3, m'.2.2.2]⟩
  have add : ∀ r b, R1 A (addRecord A r b k.id) := fun r b => by
    obtain ⟨x1, x2, x3, x4, x5⟩ := addRecord_says A r b k.id
    exact ⟨x1, by rw [x2], x4, MildZ.same x5⟩
  generalize hT : (if k.op = .writeZeroes then _ else _ : State) = T
  suffices h : R1 A T from key _ h
  rw [← hT]
  clear hT key
  refine R1.ite _ ?_ ?_
  · refine R1.ite _ ?_ ?_
    · have hold : ∀ r, R1 A (holdUnits (addRecord A r true k.id) k.zone k.io.fn (unitsOf n.bpu (zone U k.zone).wp k.io.nlb)) := fun r => by
        obtain ⟨x1, x2, x3, x4⟩ := add r true
        obtain ⟨⟨y1, y2, y3, y4⟩, y5⟩ := holdUnits_same (addRecord A r true k.id) k.zone k.io.fn (unitsOf n.bpu (zone U k.zone).wp k.io.nlb)
        exact ⟨y1.trans x1, y2.trans x2, y4.trans x3, fun w => ⟨(y5 (x4 w).1).1, fun y => ((y5 (x4 w).1).2 y).trans ((x4 w).2 y)⟩⟩
      have h := hold { commandRecord A n k k.zone t.adm.nextAsn stOk (if k.op = .zoneAppend then n.startOf k.zone + (zone U k.zone).wp else k.io.slba) with
        dataCheck := dataCheck n.lbaf (List.replicate k.io.nlb 0) }
      generalize holdUnits _ k.zone k.io.fn _ = H at *
      obtain ⟨h1, h2, h3, h4⟩ := h
      generalize hK : ({ k with asns := _, dw0 := _, dw1 := _ } : Cmd) = K
      have k1 : K.io = k.io ∧ K.origin = 0 := by rw [← hK]; exact ⟨rfl, q3⟩
      obtain ⟨e1, e2, e3, e4⟩ := conclude_quiet (setCmd H K) K (by
        intro x hx
        have : ns? (setCmd H K) K.io.nsid = ns? t k.io.nsid := by
          unfold ns?; rw [k1.1, show (setCmd H K).nss = H.nss from rfl, h1, m'.1]
        rw [this, c3] at hx; cases hx; exact q1) (by
        rw [show (setCmd H K).host.sanitizeStatus = H.host.sanitizeStatus from rfl, h2, m'.2.1]; exact q2) k1.2
      exact ⟨e3.trans h1, e4.trans h2, (congrArg Admission.nextAsn e2).trans h3, fun w => by
        have := h4 w
        unfold zone at this ⊢
        rw [e1]; exact this⟩
    · exact add ..
  · exact add ..

theorem calm_to (s : State) (c : IoCmd) (n : Ns) (z : Nat) (a : ZoneAct) (i : Instr) (d1 : s.host.cmds = []) (d2 : s.adm.due = [])
    (d3 : s.adm.afterClose = none) (d4 : pairRole s = 0) (d5 : s.pair.fenced = false) (d6 : s.adm.spent = false)
    (d7 : s.adm.nextAsn < 2 ^ 64 - 1) (d8 : holdFull s = false) (d9 : s.casc.members = []) (hp : s.adm.preserve = false)
    (w : kvWf {} s.zones) (he : n.extents = []) (hs : c.selectAll = false) (hz : n.zoneOf c.slba = some z)
    (hl : c.slba = n.startOf z) (h : Served s (.zoneSend a) c n) (q1 : n.ending = none) (q2 : s.host.sanitizeStatus ≠ 2)
    (sv : inService s = true)
    (e : exec i s = .next (toPoint (upState s (.zoneSend a) c) n (upCmd s (.zoneSend a) c)))
    (o : sendOutcome s n z s.adm.nextAsn a = { status := 0 }) (rh : rowHeld s n (upCmd s (.zoneSend a) c) z = false)
    (cl : a = .closeZ → (zone s z).st.isOpen = true) :
    ∃ t u, Does i s t ∧ Does .asnSequencerPick t u ∧ (zone u z).st = sentTo s z a ∧ u.adm.nextAsn = s.adm.nextAsn + 1 := by
  have g : toPoint (upState s (.zoneSend a) c) n (upCmd s (.zoneSend a) c) =
      setCmd (holdCmd (upState s (.zoneSend a) c) { upCmd s (.zoneSend a) c with zone := z }) { upCmd s (.zoneSend a) c with zone := z, stage := .point } := by
    have a1 : (upCmd s (.zoneSend a) c).io.selectAll = false := hs
    have a2 : (upCmd s (.zoneSend a) c).io.slba = c.slba := rfl
    have a3 : pairRole (holdCmd (upState s (.zoneSend a) c) { upCmd s (.zoneSend a) c with zone := z }) ≠ 2 := by
      intro x; exact absurd (d4.symm.trans x) (by decide)
    have a5 : (upState s (.zoneSend a) c).adm.spent = false := d6
    have a6 : n.posOf c.slba = none := by simp [Ns.posOf, he]
    unfold toPoint
    simp [a1, a2, a5, hz, a6, seekPoint, a3]
  rw [g] at e
  have tc : (setCmd (holdCmd (upState s (.zoneSend a) c) { upCmd s (.zoneSend a) c with zone := z }) { upCmd s (.zoneSend a) c with zone := z, stage := .point }).host.cmds = [{ upCmd s (.zoneSend a) c with zone := z, stage := .point }] := by
    have : (upState s (.zoneSend a) c).host.cmds = [] := d1
    simp [setCmd, holdCmd, this]
  obtain ⟨u, x1, x2, x3⟩ := calm_send (setCmd (holdCmd (upState s (.zoneSend a) c) { upCmd s (.zoneSend a) c with zone := z }) { upCmd s (.zoneSend a) c with zone := z, stage := .point }) n { upCmd s (.zoneSend a) c with zone := z, stage := .point } a sv d4 d5 d6 d7 d3 d2 d8 tc rfl hs rfl h.2.2 rfl hl o (Eq.trans (by
      simp only [rowHeld, ringFor, cellsNeeded]
      rfl) rh)
    hp w cl d9 q1 q2 rfl rfl
  exact ⟨_, u, e, x1, x2, x3⟩

theorem calm_tow (s : State) (c : IoCmd) (n : Ns) (z : Nat) (a : IoOp) (i : Instr) (d1 : s.host.cmds = []) (d2 : s.adm.due = [])
    (d3 : s.adm.afterClose = none) (d4 : pairRole s = 0) (d5 : s.pair.fenced = false) (d6 : s.adm.spent = false)
    (d7 : s.adm.nextAsn < 2 ^ 64 - 1) (d8 : holdFull s = false) (d9 : s.casc.members = []) (hp : s.adm.preserve = false)
    (w : kvWf {} s.zones) (he : n.extents = []) (hs : c.selectAll = false) (hz : n.zoneOf c.slba = some z)
    (h : Served s a c n) (q1 : n.ending = none) (q2 : s.host.sanitizeStatus ≠ 2)
    (sv : inService s = true)
    (e : exec i s = .next (toPoint (upState s a c) n (upCmd s a c)))
    (zs : ∀ b, a ≠ .zoneSend b)
    (o : writeOutcome s n z s.adm.nextAsn a c.slba c.nlb = { status := 0 }) (rh : rowHeld s n (upCmd s a c) z = false) :
    ∃ t u, Does i s t ∧ Does .asnSequencerPick t u ∧ (zone u z).wp = (zone s z).wp + c.nlb ∧
      (zone u z).st = (if n.zcap ≤ (zone s z).wp + c.nlb then .full else if (zone s z).st = .explOpen then .explOpen else .implOpen) ∧
      u.adm.nextAsn = s.adm.nextAsn + 1 := by
  have g : toPoint (upState s a c) n (upCmd s a c) =
      setCmd (holdCmd (upState s a c) { upCmd s a c with zone := z }) { upCmd s a c with zone := z, stage := .point } := by
    have a1 : (upCmd s a c).io.selectAll = false := hs
    have a2 : (upCmd s a c).io.slba = c.slba := rfl
    have a3 : pairRole (holdCmd (upState s a c) { upCmd s a c with zone := z }) ≠ 2 := by
      intro x; exact absurd (d4.symm.trans x) (by decide)
    have a5 : (upState s a c).adm.spent = false := d6
    have a6 : n.posOf c.slba = none := by simp [Ns.posOf, he]
    unfold toPoint
    simp [a1, a2, a5, hz, a6, seekPoint, a3]
  rw [g] at e
  have tc : (setCmd (holdCmd (upState s a c) { upCmd s a c with zone := z }) { upCmd s a c with zone := z, stage := .point }).host.cmds = [{ upCmd s a c with zone := z, stage := .point }] := by
    have : (upState s a c).host.cmds = [] := d1
    simp [setCmd, holdCmd, this]
  obtain ⟨u, x1, x2, x3, x4⟩ := calm_write (setCmd (holdCmd (upState s a c) { upCmd s a c with zone := z }) { upCmd s a c with zone := z, stage := .point }) n { upCmd s a c with zone := z, stage := .point } sv d4 d5 d6 d7 d3 d2 d8 tc rfl hs rfl h.2.2 zs o (Eq.trans (by
      simp only [rowHeld, ringFor, cellsNeeded]
      rfl) rh)
    w q1 q2 rfl
  exact ⟨_, u, e, x1, x2, x3, x4⟩

/-- A rotation over copies of one candidate takes it. -/
theorem rotPick_only (p n : Nat) (l : List Nat) (h : n ∈ l) (a : ∀ m ∈ l, m = n) : rotPick p l = some n := by
  unfold rotPick
  split
  · rename_i x hx
    rw [List.min?_eq_some_iff] at hx
    rw [a x (List.mem_filter.1 hx.1).1]
  · rw [List.min?_eq_some_iff]
    exact ⟨h, fun b hb => by rw [a b hb]⟩

/-! The blocks that a host sends (R48). -/

@[simp] theorem Ns.extendAll_length (n : Ns) (count : Nat) (data metadata : List Nat) :
    (n.extendAll count data metadata).length = count := by simp [Ns.extendAll]

/-- Block i of a transfer is its data and its metadata, cut to the format's bytes. -/
theorem Ns.extendAll_get (n : Ns) (count : Nat) (data metadata : List Nat) (i : Nat) (h : i < count) :
    (n.extendAll count data metadata)[i]? = some (n.cut (n.extend (data.getD i 0) (metadata.getD i 0))) := by
  simp [Ns.extendAll, List.getElem?_range h]

end Sys2Proof.Machine
end

