-- ==== Sys2Proof/Laws/DiePaths.lean ====
section
/-! SUPPORT. What the die scheduler does when nothing else waits: a read, a program or an erase asked of a free die
starts, and the end of an entry starts nothing. -/

namespace Sys2Proof.Machine

/-- A die written reads back. -/
theorem die_setDie (s : State) (d : Nat) (v : Die) (w : kvWf {} s.dies) : die (setDie s d v) d = v := kvGet_put_self _ _ _ _ w

/-- A read is the default or a listed entry. -/
theorem kvGet_mem (d : α) (k : Nat) (m : Kv α) : kvGet d k m = d ∨ (k, kvGet d k m) ∈ m := by
  induction m with
  | nil => exact .inl rfl
  | cons e t ih =>
    rw [kvGet_cons]; split
    · rename_i h; right; rw [h]; exact List.mem_cons_self ..
    · rcases ih with h | h
      · exact .inl h
      · exact .inr (List.mem_cons_of_mem _ h)

/-- A listed entry reads as it is listed. -/
theorem kvGet_of_mem {α : Type} [DecidableEq α] (d : α) (m : Kv α) (w : kvWf d m) (e : Nat × α) (h : e ∈ m) : kvGet d e.1 m = e.2 := by
  induction m with
  | nil => simp at h
  | cons x t ih =>
    rw [kvGet_cons]
    rw [kvWf_cons] at w
    rcases List.mem_cons.1 h with g | g
    · subst g; simp
    · rw [if_neg (by have := w.1 e g; omega)]; exact ih w.2.2 g

/-- Only the written entry and entries under other keys are in a map after a write. -/
theorem kvPut_mem_wf {α : Type} [DecidableEq α] (d : α) (k : Nat) (v : α) (m : Kv α) (w : kvWf d m) (e : Nat × α) (h : e ∈ kvPut d k v m) :
    e = (k, v) ∨ (e ∈ m ∧ e.1 ≠ k) := by
  by_cases c : e.1 = k
  · left
    have := kvGet_of_mem d _ (kvWf_put d k v m w) e h
    rw [c, kvGet_put_self _ _ _ _ w] at this
    exact Prod.ext c this.symm
  · rcases kvPut_mem _ _ _ _ _ h with g | g
    · exact .inl g
    · exact .inr ⟨g, c⟩

/-- No die but d has a request waiting. -/
def Others (s : State) (d : Nat) : Prop := ∀ e ∈ s.dies, e.1 ≠ d → e.2.queue = []

/-- Writing die d leaves the others. -/
theorem others_set {s : State} {d : Nat} (h : Others s d) (w : kvWf {} s.dies) (v : Die) : Others (setDie s d v) d := by
  intro e he hne
  rcases kvPut_mem_wf _ _ _ _ w _ he with g | g
  · rw [g] at hne; exact absurd rfl hne
  · exact h e g.1 hne

/-- With the queue of d empty too, nothing waits. -/
theorem others_none {s : State} {d : Nat} (h : Others s d) (w : kvWf {} s.dies) (q : (die s d).queue = []) : NoQueue s := by
  intro e he
  by_cases c : e.1 = d
  · have := kvGet_of_mem ({} : Die) s.dies w e he
    rw [← this, c]; exact q
  · exact h e he c

theorem NoQueue.others {s : State} (h : NoQueue s) (d : Nat) : Others s d := fun e he _ => h e he

/-- The share of time changes the die only, and not its queue. -/
theorem useShare_dies (s : State) (d cls : Nat) (slc : Bool) : useShare s d cls slc = s ∨ ∃ v : Die, useShare s d cls slc = setDie s d v ∧ v.queue = (die s d).queue := by
  unfold useShare; split
  · exact .inr ⟨_, rfl, rfl⟩
  · exact .inl rfl

/-- With nothing waiting every queue is empty. -/
theorem noQueue_die {s : State} (h : NoQueue s) (d : Nat) : (die s d).queue = [] := by
  rcases kvGet_mem {} d s.dies with g | g
  · unfold die; rw [g]
  · exact h _ g

/-- Writing a die with an empty queue keeps it so. -/
theorem noQueue_put {s : State} (h : NoQueue s) (d : Nat) (v : Die) (e : v.queue = []) : NoQueue (setDie s d v) := by
  intro x hx; rcases kvPut_mem _ _ _ _ _ hx with g | g
  · rw [g]; exact e
  · exact h x g

/-- With nothing waiting no job is picked. -/
theorem workPick_none {s : State} (h : NoQueue s) (e : Nat) : workPick s e = none := by
  unfold workPick
  have : (s.dies.filterMap fun x => if x.2.queue.isEmpty then none else (nextReq s e x.1).bind fun q => q.work.map fun w => (x.1, w)) = [] := by
    rw [List.filterMap_eq_nil_iff]; intro a ha; simp [h a ha]
  rw [this]; rfl

/-- With nothing waiting nothing is served. -/
theorem serve_quiet {s : State} (h : NoQueue s) (e : Nat) : serve s e = s := by
  unfold serve; cases workWaiting s with
  | zero => rfl
  | succ n => unfold runWork; rw [workPick_none h]

/-- With nothing waiting a die starts nothing. -/
theorem pump_quiet {s : State} (h : NoQueue s) (d : Nat) : pump s d = s := by
  unfold pump; rw [noQueue_die h]; exact serve_quiet h _

/-- The waits of class 2 and above are not counted. -/
theorem countWait_bulk (s : State) (r : RdUnit) (w : Rat) (h : 2 ≤ servedClass s r) : countWait s r w = s := by
  unfold countWait; rw [if_pos (.inl (by omega))]

/-- A read asked of a free die with nothing waiting anywhere starts at once. -/
theorem enqueueRead_starts (s : State) (d : Nat) (q : DReq) (h : NoQueue s) (w : kvWf {} s.dies) (i : (die s d).st = .idle)
    (qw : q.work = none) (c : canStart s s.sched.slotUs d q = true) (wc : kvWf {} s.ctxs) :
    (die (enqueueRead s d q) d).st = .reading ∧ (die (enqueueRead s d q) d).reading = [q] ∧
      (die (enqueueRead s d q) d).queue = [] ∧ (ctx (enqueueRead s d q) d).entry = some 0 := by
  have hq := noQueue_die h d
  have e0 : enqueue s q (die s d).queue = [q] := by simp [enqueue, hq]
  unfold enqueueRead
  rw [e0]
  generalize hT : setDie s d { die s d with queue := [q] } = T
  have tw : kvWf {} T.dies := by rw [← hT]; exact kvWf_put _ _ _ _ w
  have td : die T d = { die s d with queue := [q] } := by rw [← hT]; exact die_setDie _ _ _ w
  have tc : canStart T T.sched.slotUs d q = true := by
    rw [← c]; unfold canStart dieFree; rw [td, qw]
    have a1 : T.chans = s.chans ∧ T.sched = s.sched := by rw [← hT]; exact ⟨rfl, rfl⟩
    have a2 : shareLeft T d q.cls q.slc = shareLeft s d q.cls q.slc := by
      unfold shareLeft; rw [td]
      rw [← hT]; rfl
    simp only [a2, chan, a1]
  have tn : nextReq T T.sched.slotUs d = some q := by
    unfold nextReq; rw [td]; simp [tc]
  unfold pump
  have e1 : pumpN d (die T d).queue.length T = startEntry (setDie (useShare T d q.cls q.slc) d { die (useShare T d q.cls q.slc) d with st := .reading, reading := [q], queue := [] }) d 0 (rowBlock T d (q.page / 1024)) q.plane (q.page % 1024) 0 (codewordBytes (setDie (useShare T d q.cls q.slc) d { die (useShare T d q.cls q.slc) d with st := .reading, reading := [q], queue := [] }) d (readExtra (setDie (useShare T d q.cls q.slc) d { die (useShare T d q.cls q.slc) d with st := .reading, reading := [q], queue := [] }) q.rid)) q.slc 0 0 (q.cls == 1) := by
    rw [td]
    simp only [List.length_cons, List.length_nil, Nat.zero_add]
    unfold pumpN
    rw [tn, td]
    have b : batch T d q = [q] := by
      unfold batch; rw [td]; simp [combine]
    simp only [qw, Option.isSome_none, b, i]
    simp [td, i]
  rw [e1]
  clear e1
  have ot : Others T d := by rw [← hT]; exact others_set (NoQueue.others h d) w _
  generalize hU : useShare T d q.cls q.slc = U
  have uo : Others U d ∧ kvWf {} U.dies ∧ U.ctxs = s.ctxs := by
    rw [← hU]
    rcases useShare_dies T d q.cls q.slc with g | ⟨v, g, _⟩ <;> rw [g]
    · exact ⟨ot, tw, by rw [← hT]; rfl⟩
    · exact ⟨others_set ot tw _, kvWf_put _ _ _ _ tw, by rw [← hT]; rfl⟩
  generalize hV : setDie U d { die U d with st := .reading, reading := [q], queue := [] } = V
  have vd : die V d = { die U d with st := .reading, reading := [q], queue := [] } := by rw [← hV]; exact die_setDie _ _ _ uo.2.1
  have vq : NoQueue V := others_none (by rw [← hV]; exact others_set uo.1 uo.2.1 _) (by rw [← hV]; exact kvWf_put _ _ _ _ uo.2.1) (by rw [vd])
  have vc : V.ctxs = s.ctxs := by rw [← hV]; exact uo.2.2
  rw [serve_quiet (by exact vq)]
  refine ⟨?_, ?_, ?_, ?_⟩
  · exact (congrArg Die.st (show die _ d = die V d from rfl)).trans (by rw [vd])
  · exact (congrArg Die.reading (show die _ d = die V d from rfl)).trans (by rw [vd])
  · exact (congrArg Die.queue (show die _ d = die V d from rfl)).trans (by rw [vd])
  · unfold startEntry setCtx ctx; dsimp only
    rw [kvGet_put_self _ _ _ _ (by rw [vc]; exact wc)]

/-- With nothing waiting a job is the only request. -/
theorem enqueueWork_eq (s : State) (d : Nat) (w : Work) (h : NoQueue s) :
    enqueueWork s d w = setDie s d { die s d with queue := [{ cls := workQueue w, rid := 0, unit := 0, plane := 0, page := 0, member := false, slc := false, work := some w }] } := by
  unfold enqueueWork; rw [noQueue_die h d]; simp [enqueue]

/-- A job or erase asked of a die that may start it, with nothing else waiting, is the one that starts. -/
theorem serve_starts (s : State) (d e : Nat) (w : Work) (h : NoQueue s) (wd : kvWf {} s.dies)
    (c : canStart (enqueueWork s d w) e d { cls := workQueue w, rid := 0, unit := 0, plane := 0, page := 0, member := false, slc := false, work := some w } = true)
    (n : NoQueue (startWork (enqueueWork s d w) d w)) :
    serve (enqueueWork s d w) e = startWork (enqueueWork s d w) d w := by
  set T := enqueueWork s d w with hT
  set q : DReq := { cls := workQueue w, rid := 0, unit := 0, plane := 0, page := 0, member := false, slc := false, work := some w } with hq
  have eT : T = setDie s d { die s d with queue := [q] } := enqueueWork_eq s d w h
  have td : die T d = { die s d with queue := [q] } := by rw [eT]; exact die_setDie _ _ _ wd
  have tw : kvWf {} T.dies := by rw [eT]; exact kvWf_put _ _ _ _ wd
  have ot : Others T d := by rw [eT]; exact others_set (NoQueue.others h d) wd _
  have hin : (d, die T d) ∈ T.dies := by
    rcases kvGet_mem {} d T.dies with g | g
    · exfalso
      have : (die T d).queue = [] := by unfold die; rw [g]
      rw [td] at this; simp at this
    · exact g
  have nx : nextReq T e d = some q := by unfold nextReq; rw [td]; simp [c]
  have pk : workPick T e = some (d, w) := by
    unfold workPick
    have all : ∀ x ∈ (T.dies.filterMap fun x => if x.2.queue.isEmpty then none else (nextReq T e x.1).bind fun q => q.work.map fun w => (x.1, w)), x = (d, w) := by
      intro x hx
      obtain ⟨a, ha, hb⟩ := List.mem_filterMap.1 hx
      by_cases ca : a.1 = d
      · split at hb
        · cases hb
        · rw [ca, nx] at hb; simp [hq] at hb; exact hb.symm
      · rw [ot a ha ca] at hb; simp at hb
    have one : (d, w) ∈ (T.dies.filterMap fun x => if x.2.queue.isEmpty then none else (nextReq T e x.1).bind fun q => q.work.map fun w => (x.1, w)) := by
      refine List.mem_filterMap.2 ⟨_, hin, ?_⟩
      rw [td, nx]; simp [hq]
    generalize (T.dies.filterMap fun x => if x.2.queue.isEmpty then none else (nextReq T e x.1).bind fun q => q.work.map fun w => (x.1, w)) = L at *
    have m : (L.map fun c => workClass T c.1 c.2).min? = some (workClass T d w) := by
      rw [List.min?_eq_some_iff]
      exact ⟨List.mem_map.2 ⟨_, one, rfl⟩, fun b hb => by obtain ⟨x, hx, rfl⟩ := List.mem_map.1 hb; rw [all x hx]⟩
    dsimp only
    rw [m]
    dsimp only
    have f1 : L.filter (fun c => workClass T c.1 c.2 == workClass T d w) = L := by
      rw [List.filter_eq_self]; intro x hx; rw [all x hx]; simp
    rw [f1]
    rw [rotPick_only _ (dieGroup d) _ (List.mem_map.2 ⟨_, one, rfl⟩) (by intro b hb; obtain ⟨x, hx, rfl⟩ := List.mem_map.1 hb; rw [all x hx])]
    dsimp only
    have f2 : L.filter (fun c => dieGroup c.1 == dieGroup d) = L := by
      rw [List.filter_eq_self]; intro x hx; rw [all x hx]; simp
    rw [f2]
    rw [rotPick_only _ (dieFacet d) _ (List.mem_map.2 ⟨_, one, rfl⟩) (by intro b hb; obtain ⟨x, hx, rfl⟩ := List.mem_map.1 hb; rw [all x hx])]
    dsimp only
    cases hf : L.find? (fun c => dieFacet c.1 == dieFacet d) with
    | none => rw [List.find?_eq_none] at hf; exact absurd (hf _ one) (by simp)
    | some x => rw [all x (List.mem_of_find?_eq_some hf)]
  have ww : ∃ m, workWaiting T = m + 1 := by
    have : 0 < workWaiting T := by
      unfold workWaiting
      have key : ∀ (l : List (Nat × Die)) (a : Nat), a ≤ l.foldl (fun a e => a + (e.2.queue.filter fun q => q.work.isSome).length) a := by
        intro l; induction l with
        | nil => intro a; exact Nat.le_refl _
        | cons x t ih => intro a; exact Nat.le_trans (by dsimp only; omega) (ih _)
      have key2 : ∀ (l : List (Nat × Die)) (a : Nat), (d, die T d) ∈ l → 0 < l.foldl (fun a e => a + (e.2.queue.filter fun q => q.work.isSome).length) a := by
        intro l; induction l with
        | nil => intro a h; simp at h
        | cons x t ih =>
          intro a h
          rcases List.mem_cons.1 h with g | g
          · rw [List.foldl_cons, ← g]
            refine Nat.lt_of_lt_of_le ?_ (key t _)
            rw [td]; simp [hq]
          · exact ih _ g
      exact key2 _ _ hin
    exact ⟨workWaiting T - 1, by omega⟩
  obtain ⟨m, hm⟩ := ww
  unfold serve
  rw [hm]; unfold runWork
  rw [pk]
  dsimp only
  cases m with
  | zero => rfl
  | succ m => unfold runWork; rw [workPick_none n]

/-- Equal dies read equal. -/
theorem die_of {s t : State} (h : t.dies = s.dies) (d : Nat) : die t d = die s d := by unfold die; rw [h]

/-- The end of an entry keeps dies, zones, host, reads and dictionary. -/
theorem endEntry_keepsDies (s : State) (d k : Nat) : (endEntry s d k).dies = s.dies ∧ (endEntry s d k).zones = s.zones ∧
    (endEntry s d k).host = s.host ∧ (endEntry s d k).reads = s.reads ∧ (endEntry s d k).dict = s.dict := by
  unfold endEntry releaseBus countStatus; dsimp only
  (repeat' split) <;> exact ⟨rfl, rfl, rfl, rfl, rfl⟩

/-- A program starts on an idle die. -/
theorem startProgram_starts (T : State) (d : Nat) (job : ProgJob) (i : (die T d).st = .idle) (w : kvWf {} T.dies) (wc : kvWf {} T.ctxs)
    (o : Others T d) (q : (die T d).queue.filter (fun q => q.work != some (.program job)) = []) :
    NoQueue (startProgram T d job) ∧ (die (startProgram T d job) d).st = .programming ∧ (die (startProgram T d job) d).job = some job ∧
      (die (startProgram T d job) d).queue = [] ∧ (ctx (startProgram T d job) d).entry = some 1 := by
  unfold startProgram
  have d0 : die (dropWork T d (.program job)) d = { die T d with queue := [] } := by
    unfold dropWork; rw [die_setDie _ _ _ w, q]
  have w0 : kvWf {} (dropWork T d (.program job)).dies := kvWf_put _ _ _ _ w
  have o0 : Others (dropWork T d (.program job)) d := others_set o w _
  have c0 : (dropWork T d (.program job)).ctxs = T.ctxs := rfl
  generalize dropWork T d (.program job) = A at *
  dsimp only
  rw [if_neg (by rw [d0]; simp [i])]
  have st : (die A d).st = .idle := by rw [d0]; exact i
  have hB : ∀ c1 : Prop, [Decidable c1] → ∀ c2 : Prop, [Decidable c2] → ∀ g x y v, let B := setGrp (if c2 then useProgram (if c1 then darkOne A g else A) x y g else (if c1 then darkOne A g else A)) g v
      B.dies = A.dies ∧ B.ctxs = A.ctxs := by
    intro c1 _ c2 _ g x y v
    unfold darkOne useProgram
    dsimp only
    (repeat' split) <;> exact ⟨rfl, rfl⟩
  generalize hb : setGrp _ (dieGroup d) _ = B
  have bd : B.dies = A.dies ∧ B.ctxs = A.ctxs := by rw [← hb]; exact hB ..
  have b1 : die B d = { die T d with queue := [] } := by unfold die; rw [bd.1]; exact d0
  simp only [st, b1]
  have bw : kvWf {} B.dies := by rw [bd.1]; exact w0
  have nq : ∀ v : Die, v.queue = [] → NoQueue (setDie B d v) := by
    intro v hv
    refine others_none (d := d) (others_set (by intro e he hne; rw [bd.1] at he; exact o0 e he hne) bw _) (kvWf_put _ _ _ _ bw) (by rw [die_setDie _ _ _ bw]; exact hv)
  have vd := die_setDie B d { die T d with st := .programming, job := some job, queue := [] } bw
  refine ⟨?_, ?_, ?_, ?_, ?_⟩
  · exact nq _ rfl
  · exact (congrArg Die.st vd)
  · exact (congrArg Die.job vd)
  · exact (congrArg Die.queue vd)
  · unfold startEntry setCtx ctx; dsimp only
    rw [kvGet_put_self _ _ _ _ (by rw [show (setDie B d _).ctxs = B.ctxs from rfl, bd.2, c0]; exact wc)]

/-- An erase starts. -/
theorem startErase_starts (T : State) (d b : Nat) (w : kvWf {} T.dies) (wc : kvWf {} T.ctxs)
    (o : Others T d) (q : (die T d).queue.filter (fun q => q.work != some (.erase b)) = []) :
    NoQueue (startErase T d b) ∧ (die (startErase T d b) d).st = .erasing ∧ (die (startErase T d b) d).erase = some b ∧
      (die (startErase T d b) d).suspends = 0 ∧ (startErase T d b).sched.eraseUsed = T.sched.eraseUsed + 1 ∧
      (ctx (startErase T d b) d).entry = some 2 := by
  unfold startErase
  have d0 : die (dropWork T d (.erase b)) d = { die T d with queue := [] } := by
    unfold dropWork; rw [die_setDie _ _ _ w, q]
  have w0 : kvWf {} (dropWork T d (.erase b)).dies := kvWf_put _ _ _ _ w
  have o0 : Others (dropWork T d (.erase b)) d := others_set o w _
  have c0 : (dropWork T d (.erase b)).ctxs = T.ctxs ∧ (dropWork T d (.erase b)).sched = T.sched := ⟨rfl, rfl⟩
  generalize dropWork T d (.erase b) = A at *
  dsimp only
  generalize hb : useErase A _ (dieGroup d) = B
  have bd : B.dies = A.dies ∧ B.ctxs = A.ctxs ∧ B.sched.eraseUsed = A.sched.eraseUsed + 1 := by rw [← hb]; exact ⟨rfl, rfl, rfl⟩
  have b1 : die B d = { die T d with queue := [] } := by unfold die; rw [bd.1]; exact d0
  simp only [b1]
  have bw : kvWf {} B.dies := by rw [bd.1]; exact w0
  have nq : ∀ v : Die, v.queue = [] → NoQueue (setDie B d v) := by
    intro v hv
    refine others_none (d := d) (others_set (by intro e he hne; rw [bd.1] at he; exact o0 e he hne) bw _) (kvWf_put _ _ _ _ bw) (by rw [die_setDie _ _ _ bw]; exact hv)
  have vd := die_setDie B d { die T d with st := .erasing, erase := some b, suspends := 0, atBoundary := false, resumed := false, queue := [] } bw
  refine ⟨nq _ rfl, congrArg Die.st vd, congrArg Die.erase vd, congrArg Die.suspends vd, ?_, ?_⟩
  · exact bd.2.2.trans (by rw [c0.2])
  · unfold startEntry setCtx ctx; dsimp only
    rw [kvGet_put_self _ _ _ _ (by rw [show (setDie B d _).ctxs = B.ctxs from rfl, bd.2.1, c0.1]; exact wc)]

end Sys2Proof.Machine
end

