-- ==== Sys2Proof/Laws/FrameOps.lean ====
section
/-! SUPPORT. Frame lemmas of the named operations, the recorder, the host operations and the zones. -/

namespace Sys2Proof.Machine

open Sys2Proof

set_option maxRecDepth 4000

/-- What most operations leave alone: the queue of commands, the DRAM contents and the minimum security version. -/
abbrev Keeps (s t : State) : Prop :=
  t.pending = s.pending ∧ t.dram.mem = s.dram.mem ∧ t.ciph.otpMin = s.ciph.otpMin

@[simp] theorem keeps_iff (s t : State) : Keeps s t ↔
    t.pending = s.pending ∧ t.dram.mem = s.dram.mem ∧ t.ciph.otpMin = s.ciph.otpMin := Iff.rfl

@[simp ↓] theorem ite_pending (c : Prop) [Decidable c] (a b : State) :
    (if c then a else b).pending = if c then a.pending else b.pending := by split <;> rfl

@[simp ↓] theorem foldl_pending {α : Type} (l : List α) (f : State → α → State) (h : ∀ s a, (f s a).pending = s.pending)
    (s : State) : (l.foldl f s).pending = s.pending := by
  induction l generalizing s with
  | nil => rfl
  | cons a t ih => rw [List.foldl_cons, ih, h]

@[simp ↓] theorem foldr_pending {α : Type} (l : List α) (f : α → State → State) (h : ∀ s a, (f a s).pending = s.pending)
    (s : State) : (l.foldr f s).pending = s.pending := by
  induction l with
  | nil => rfl
  | cons a t ih => rw [List.foldr_cons, h, ih]

@[simp ↓] theorem ite_mem (c : Prop) [Decidable c] (a b : State) :
    (if c then a else b).dram.mem = if c then a.dram.mem else b.dram.mem := by split <;> rfl

@[simp ↓] theorem foldl_mem {α : Type} (l : List α) (f : State → α → State) (h : ∀ s a, (f s a).dram.mem = s.dram.mem)
    (s : State) : (l.foldl f s).dram.mem = s.dram.mem := by
  induction l generalizing s with
  | nil => rfl
  | cons a t ih => rw [List.foldl_cons, ih, h]

@[simp ↓] theorem foldr_mem {α : Type} (l : List α) (f : α → State → State) (h : ∀ s a, (f a s).dram.mem = s.dram.mem)
    (s : State) : (l.foldr f s).dram.mem = s.dram.mem := by
  induction l with
  | nil => rfl
  | cons a t ih => rw [List.foldr_cons, h, ih]

@[simp ↓] theorem ite_otp (c : Prop) [Decidable c] (a b : State) :
    (if c then a else b).ciph.otpMin = if c then a.ciph.otpMin else b.ciph.otpMin := by split <;> rfl

@[simp ↓] theorem foldl_otp {α : Type} (l : List α) (f : State → α → State) (h : ∀ s a, (f s a).ciph.otpMin = s.ciph.otpMin)
    (s : State) : (l.foldl f s).ciph.otpMin = s.ciph.otpMin := by
  induction l generalizing s with
  | nil => rfl
  | cons a t ih => rw [List.foldl_cons, ih, h]

@[simp ↓] theorem foldr_otp {α : Type} (l : List α) (f : α → State → State) (h : ∀ s a, (f a s).ciph.otpMin = s.ciph.otpMin)
    (s : State) : (l.foldr f s).ciph.otpMin = s.ciph.otpMin := by
  induction l with
  | nil => rfl
  | cons a t ih => rw [List.foldr_cons, h, ih]

theorem keeps_trans {s t u : State} (h : Keeps s t) (k : Keeps t u) : Keeps s u :=
  ⟨k.1.trans h.1, k.2.1.trans h.2.1, k.2.2.trans h.2.2⟩

theorem keeps_foldl {α : Type} (l : List α) (f : State → α → State) (h : ∀ s a, Keeps s (f s a)) (s : State) :
    Keeps s (l.foldl f s) := by
  induction l generalizing s with
  | nil => exact ⟨rfl, rfl, rfl⟩
  | cons a t ih => exact keeps_trans (h s a) (ih _)

@[simp ↓] theorem odSet_keeps (s : State) (obj elem inst v : Nat) : Keeps s (odSet s obj elem inst v) := ⟨rfl, rfl, rfl⟩

@[simp ↓] theorem odSave_keeps (s : State) (obj elem inst v : Nat) : Keeps s (odSave s obj elem inst v) := ⟨rfl, rfl, rfl⟩

@[simp ↓] theorem odBump_keeps (s : State) (obj elem : Nat) (inst : Nat) (n : Nat) : Keeps s (odBump s obj elem inst n) := by
  unfold odBump; simp

@[simp ↓] theorem setZone_keeps (s : State) (z : Nat) (v : Zone) : Keeps s (setZone s z v) := ⟨rfl, rfl, rfl⟩

@[simp ↓] theorem setRing_keeps (s : State) (r : Nat) (v : Ring) : Keeps s (setRing s r v) := ⟨rfl, rfl, rfl⟩

@[simp ↓] theorem setDie_keeps (s : State) (d : Nat) (v : Die) : Keeps s (setDie s d v) := ⟨rfl, rfl, rfl⟩

@[simp ↓] theorem setGrp_keeps (s : State) (g : Nat) (v : Group) : Keeps s (setGrp s g v) := ⟨rfl, rfl, rfl⟩

@[simp ↓] theorem setChan_keeps (s : State) (c : Nat) (v : Chan) : Keeps s (setChan s c v) := ⟨rfl, rfl, rfl⟩

@[simp ↓] theorem setCtx_keeps (s : State) (d : Nat) (v : Ctx) : Keeps s (setCtx s d v) := ⟨rfl, rfl, rfl⟩

@[simp ↓] theorem setFn_keeps (s : State) (f : Nat) (v : Fn) : Keeps s (setFn s f v) := ⟨rfl, rfl, rfl⟩

@[simp ↓] theorem setMember_keeps (s : State) (p : Nat) (v : Member) : Keeps s (setMember s p v) := ⟨rfl, rfl, rfl⟩

@[simp ↓] theorem setDchan_keeps (s : State) (c : Nat) (v : DChan) : Keeps s (setDchan s c v) := ⟨rfl, rfl, rfl⟩

@[simp ↓] theorem setPool_keeps (s : State) (p : Nat) (v : Pool) : Keeps s (setPool s p v) := ⟨rfl, rfl, rfl⟩

@[simp ↓] theorem setLane_keeps (s : State) (l : Nat) (v : Lane) : Keeps s (setLane s l v) := ⟨rfl, rfl, rfl⟩

@[simp ↓] theorem setEng_keeps (s : State) (e : Nat) (v : Engine) : Keeps s (setEng s e v) := by
  unfold setEng; simp

@[simp ↓] theorem setNs_keeps (s : State) (n : Ns) : Keeps s (setNs s n) := ⟨rfl, rfl, rfl⟩

@[simp ↓] theorem setCmd_keeps (s : State) (c : Cmd) : Keeps s (setCmd s c) := ⟨rfl, rfl, rfl⟩

@[simp ↓] theorem dropCmd_keeps (s : State) (id : Nat) : Keeps s (dropCmd s id) := ⟨rfl, rfl, rfl⟩

@[simp ↓] theorem setRdUnit_keeps (s : State) (r : RdUnit) : Keeps s (setRdUnit s r) := ⟨rfl, rfl, rfl⟩

@[simp ↓] theorem dropRdUnit_keeps (s : State) (rid unit : Nat) : Keeps s (dropRdUnit s rid unit) := ⟨rfl, rfl, rfl⟩

@[simp ↓] theorem useFree_keeps (s : State) : Keeps s (useFree s) := ⟨rfl, rfl, rfl⟩

@[simp ↓] theorem useDraw_keeps (s : State) : Keeps s (useDraw s) := ⟨rfl, rfl, rfl⟩

@[simp ↓] theorem useDraws_keeps (s : State) (k : Nat) : Keeps s (useDraws s k) := ⟨rfl, rfl, rfl⟩

@[simp ↓] theorem forEach_keeps {α : Type} (l : List α) (f : State → α → State) (s : State)
    (h : ∀ s a, Keeps s (f s a)) : Keeps s (forEach l f s) := by
  simp only [keeps_iff] at h
  unfold forEach; simp [h]

@[simp ↓] theorem hostTrains_keeps (s : State) : Keeps s (hostTrains s) := ⟨rfl, rfl, rfl⟩

@[simp ↓] theorem loupeLive_keeps (s : State) (e : LEntry) : Keeps s (loupeLive s e) := by
  unfold loupeLive; refine ⟨?_, ?_, ?_⟩ <;> (repeat' split) <;> simp

@[simp ↓] theorem loupeKeep_keeps (s : State) (e : LEntry) : Keeps s (loupeKeep s e) := by
  unfold loupeKeep; refine ⟨?_, ?_, ?_⟩ <;> (repeat' split) <;> simp

@[simp ↓] theorem loupeEntry_keeps (s : State) (rule subject sev : Nat) (detail : List Nat) (t : Option Nat) : Keeps s (loupeEntry s rule subject sev detail t) := by
  unfold loupeEntry; refine ⟨?_, ?_, ?_⟩ <;> cases t <;> simp

@[simp ↓] theorem loupe_keeps (s : State) (rule subject sev : Nat) (detail : List Nat) : Keeps s (loupe s rule subject sev detail) := by
  unfold loupe; simp

@[simp ↓] theorem dmaWrite_keeps (s : State) (n pasid a len : Nat) : Keeps s (dmaWrite s n pasid a len) := by
  unfold dmaWrite; simp

@[simp ↓] theorem post_keeps (s : State) (n sq cid gen status dw0 dw1 : Nat) (payload : Payload) (pasid dptr bytes cqAddr : Nat) : Keeps s (post s n sq cid gen status dw0 dw1 payload pasid dptr bytes cqAddr) := by
  unfold post; simp

@[simp ↓] theorem adminDone_keeps (s : State) (a : Adm) (status : Nat) (dw0 : Nat) (payload : Payload) (bytes : Nat) : Keeps s (adminDone s a status dw0 payload bytes) := by
  unfold adminDone; simp

@[simp ↓] theorem answerAer_keeps (s : State) (n : Nat) (r : Nat × Nat) (etype info : Nat) : Keeps s (answerAer s n r etype info) := by
  unfold answerAer; simp

@[simp ↓] theorem aen_keeps (s : State) (n etype info : Nat) : Keeps s (aen s n etype info) := by
  unfold aen; refine ⟨?_, ?_, ?_⟩ <;> simp <;> (repeat' split) <;> simp

@[simp ↓] theorem zoneChanged_keeps (s : State) (nsid zslba : Nat) : Keeps s (zoneChanged s nsid zslba) := by
  unfold zoneChanged; simp

@[simp ↓] theorem warnAll_keeps (s : State) (bits info : Nat) : Keeps s (warnAll s bits info) := by
  unfold warnAll; simp

@[simp ↓] theorem preserveBegins_keeps (s : State) (g : Nat) : Keeps s (preserveBegins s g) := by
  unfold preserveBegins; simp

@[simp ↓] theorem reliability_keeps (s : State) (nsid : Nat) : Keeps s (reliability s nsid) := by
  unfold reliability; simp

@[simp ↓] theorem sendFrame_keeps (s : State) (port kind : Nat) (body : List Nat) : Keeps s (sendFrame s port kind body) := by
  unfold sendFrame; simp

@[simp ↓] theorem txGrant_keeps (s : State) : Keeps s (txGrant s) := by
  unfold txGrant; refine ⟨?_, ?_, ?_⟩ <;> (repeat' split) <;> simp

@[simp ↓] theorem raiseToggle_keeps (s : State) (k : Nat) : Keeps s (raiseToggle s k) := ⟨rfl, rfl, rfl⟩

@[simp ↓] theorem returnToggles_keeps (s : State) : Keeps s (returnToggles s) := ⟨rfl, rfl, rfl⟩

@[simp ↓] theorem idle_keeps (s : State) : Keeps s (idle s) := by
  unfold idle; simp

@[simp ↓] theorem dropSet_keeps (s : State) (w : Requester) : Keeps s (dropSet s w) := by
  unfold dropSet; simp

@[simp ↓] theorem dropLinkSets_keeps (s : State) (mirror : Bool) : Keeps s (dropLinkSets s mirror) := by
  unfold dropLinkSets; simp

@[simp ↓] theorem markZone_keeps (s : State) (z off : Nat) : Keeps s (markZone s z off) := by
  unfold markZone; simp

@[simp ↓] theorem giveCell_keeps (inst asn : Nat) (pending : Bool) (s : State) (u : Nat × Nat) : Keeps s (giveCell inst asn pending s u) := by
  unfold giveCell; simp

@[simp ↓] theorem enterRows_keeps (s : State) (inst : Nat) (rows : List Nat) : Keeps s (enterRows s inst rows) := by
  unfold enterRows; simp

@[simp ↓] theorem allocCells_keeps (s : State) (inst asn : Nat) (pending : Bool) (units : List (Nat × Nat)) : Keeps s (allocCells s inst asn pending units) := by
  unfold allocCells; simp

@[simp ↓] theorem freeZoneCells_keeps (s : State) (z : Nat) : Keeps s (freeZoneCells s z) := by
  unfold freeZoneCells; refine ⟨?_, ?_, ?_⟩ <;> (repeat' split) <;> simp

@[simp ↓] theorem releaseActive_keeps (s : State) (z : Nat) : Keeps s (releaseActive s z) := by
  unfold releaseActive; refine ⟨?_, ?_, ?_⟩ <;> (repeat' split) <;> simp

@[simp ↓] theorem completeFolds_keeps (s : State) (z asn : Nat) (ws : List Nat) : Keeps s (completeFolds s z asn ws) := by
  unfold completeFolds; simp

@[simp ↓] theorem freeWindow_keeps (s : State) (owners : List Nat) : Keeps s (freeWindow s owners) := by
  unfold freeWindow; simp

@[simp ↓] theorem dropRewrites_keeps (s : State) (z : Nat) : Keeps s (dropRewrites s z) := by
  unfold dropRewrites; simp

@[simp ↓] theorem rzrEnds_keeps (s : State) (z : Nat) : Keeps s (rzrEnds s z) := by
  unfold rzrEnds; simp

@[simp ↓] theorem rzrOnFull_keeps (s : State) (n : Ns) (z : Nat) : Keeps s (rzrOnFull s n z) := by
  unfold rzrOnFull; simp

@[simp ↓] theorem unmapZone_keeps (s : State) (z : Nat) (st : ZState) : Keeps s (unmapZone s z st) := by
  unfold unmapZone; simp

@[simp ↓] theorem enterReadOnly_keeps (s : State) (z asn : Nat) : Keeps s (enterReadOnly s z asn) := by
  unfold enterReadOnly; simp

@[simp ↓] theorem leaveEmpty_keeps (s : State) (n : Ns) (z asn : Nat) : Keeps s (leaveEmpty s n z asn) := by
  unfold leaveEmpty; refine ⟨?_, ?_, ?_⟩ <;> (repeat' split) <;> simp

@[simp ↓] theorem advance_keeps (s : State) (n : Ns) (z asn nlb : Nat) (pending : Bool) : Keeps s (advance s n z asn nlb pending) := by
  unfold advance; refine ⟨?_, ?_, ?_⟩ <;> simp <;> (repeat' split) <;> simp

@[simp ↓] theorem finishZoneAt_keeps (s : State) (n : Ns) (z asn : Nat) : Keeps s (finishZoneAt s n z asn) := by
  unfold finishZoneAt; refine ⟨?_, ?_, ?_⟩ <;> simp <;> (repeat' split) <;> simp

@[simp ↓] theorem closeZoneAt_keeps (s : State) (z : Nat) : Keeps s (closeZoneAt s z) := by
  unfold closeZoneAt; simp

@[simp ↓] theorem applySend_keeps (s : State) (n : Ns) (z asn : Nat) (a : ZoneAct) : Keeps s (applySend s n z asn a) := by
  unfold applySend; refine ⟨?_, ?_, ?_⟩ <;> (repeat' split) <;> simp

@[simp ↓] theorem copyLedger_keeps (s : State) : Keeps s (copyLedger s) := ⟨rfl, rfl, rfl⟩

@[simp ↓] theorem addRecord_keeps (s : State) (r : LedgerRec) (sealNow : Bool) (id : Nat) : Keeps s (addRecord s r sealNow id) := by
  unfold addRecord; simp

@[simp ↓] theorem sealRecord_keeps (s : State) (asn status check : Nat) : Keeps s (sealRecord s asn status check) := by
  unfold sealRecord; refine ⟨?_, ?_, ?_⟩ <;> simp <;> (repeat' split) <;> simp

@[simp ↓] theorem markRegions_keeps (s : State) (n : Ns) (lba nlb : Nat) : Keeps s (markRegions s n lba nlb) := by
  unfold markRegions; simp

@[simp ↓] theorem deviceClose_keeps (s : State) (z cause : Nat) : Keeps s (deviceClose s z cause) := by
  unfold deviceClose; refine ⟨?_, ?_, ?_⟩ <;> (repeat' split) <;> simp

@[simp ↓] theorem enterPreserve_keeps (s : State) (g : Nat) : Keeps s (enterPreserve s g) := by
  unfold enterPreserve; simp

@[simp ↓] theorem takeDue_keeps (s : State) (d : Due) : Keeps s (takeDue s d) := by
  unfold takeDue; refine ⟨?_, ?_, ?_⟩ <;> (repeat' split) <;> simp

@[simp ↓] theorem journal_keeps (s : State) (typ : Nat) (body : List Nat) : Keeps s (journal s typ body) := by
  unfold journal; simp

@[simp ↓] theorem addRemap_keeps (s : State) (d row old new cause : Nat) : Keeps s (addRemap s d row old new cause) := by
  unfold addRemap; simp

end Sys2Proof.Machine
end

