-- ==== Sys2Proof/Laws/FrameHost.lean ====
section
/-! SUPPORT. Frame lemmas of the namespaces, the submission side and admission. -/

namespace Sys2Proof.Machine

open Sys2Proof

set_option maxRecDepth 4000

@[simp ↓] theorem eraseRow_keeps (s : State) (z : Nat) : Keeps s (eraseRow s z) := by
  unfold eraseRow; simp

@[simp ↓] theorem emptyZone_keeps (erase : Bool) (s : State) (z : Nat) : Keeps s (emptyZone erase s z) := by
  unfold emptyZone; simp

@[simp ↓] theorem convClear_keeps (s : State) (nsid lba nlb : Nat) : Keeps s (convClear s nsid lba nlb) := by
  unfold convClear; refine ⟨?_, ?_, ?_⟩ <;> (repeat' split) <;> simp

@[simp ↓] theorem emptyConv_keeps (erase : Bool) (s : State) (n : Ns) : Keeps s (emptyConv erase s n) := by
  unfold emptyConv; simp

@[simp ↓] theorem emptyNs_keeps (erase : Bool) (s : State) (n : Ns) : Keeps s (emptyNs erase s n) := by
  unfold emptyNs; simp

@[simp ↓] theorem setCache_keeps (s : State) (c : List (Nat × List (Nat × Nat))) : Keeps s (setCache s c) := by
  unfold setCache; simp

@[simp ↓] theorem dropKeysOf_keeps (gone : Nat × Nat → Bool) (s : State) : Keeps s (dropKeysOf gone s) := by
  unfold dropKeysOf; simp

@[simp ↓] theorem dropKeys_keeps (s : State) (nsid : Nat) : Keeps s (dropKeys s nsid) := by
  unfold dropKeys; simp

@[simp ↓] theorem tellFollower_keeps (s : State) (body : List Nat) : Keeps s (tellFollower s body) := by
  unfold tellFollower; simp

@[simp ↓] theorem formatNs_keeps (s : State) (n : Ns) (e : NsEnd) : Keeps s (formatNs s n e) := by
  unfold formatNs; refine ⟨?_, ?_, ?_⟩ <;> simp <;> (repeat' split) <;> simp

@[simp ↓] theorem freeNs_keeps (s : State) (n : Ns) : Keeps s (freeNs s n) := by
  unfold freeNs; simp

@[simp ↓] theorem newSalts_keeps (x0 : List Nat) (x1 : List Ns) (s : State) : Keeps s (newSalts x0 x1 s) := by
  induction x1 generalizing x0 s with
  | nil => cases x0 <;> exact ⟨rfl, rfl, rfl⟩
  | cons n t ih =>
    cases x0 <;> (unfold newSalts; refine ⟨?_, ?_, ?_⟩ <;> (simp [ih]; (repeat' split) <;> simp))

@[simp ↓] theorem eraseAllRows_keeps (s : State) : Keeps s (eraseAllRows s) := by
  unfold eraseAllRows; simp

@[simp ↓] theorem emptyRings_keeps (erase : Bool) (s : State) : Keeps s (emptyRings erase s) := by
  unfold emptyRings; simp

@[simp ↓] theorem emptyAll_keeps (erase : Bool) (s : State) : Keeps s (emptyAll erase s) := by
  unfold emptyAll; simp

@[simp ↓] theorem sendRoot_keeps (s : State) : Keeps s (sendRoot s) := by
  unfold sendRoot; refine ⟨?_, ?_, ?_⟩ <;> (repeat' split) <;> simp

@[simp ↓] theorem sanitizeEnd_keeps (salts : List Nat) (s : State) : Keeps s (sanitizeEnd salts s) := by
  unfold sanitizeEnd; refine ⟨?_, ?_, ?_⟩ <;> (simp <;> (repeat' split) <;> simp)

@[simp ↓] theorem endCmd_keeps (s : State) (c : Cmd) (payload : Payload) : Keeps s (endCmd s c payload) := by
  unfold endCmd; refine ⟨?_, ?_, ?_⟩ <;> (repeat' split) <;> simp

@[simp ↓] theorem settleNs_keeps (s : State) (nsid : Nat) : Keeps s (settleNs s nsid) := by
  unfold settleNs; refine ⟨?_, ?_, ?_⟩ <;> simp <;> (repeat' split) <;> simp

@[simp ↓] theorem settleSanitize_keeps (s : State) : Keeps s (settleSanitize s) := by
  unfold settleSanitize; simp

@[simp ↓] theorem finishCmd_keeps (s : State) (c : Cmd) (payload : Payload) : Keeps s (finishCmd s c payload) := by
  unfold finishCmd; simp

@[simp ↓] theorem passCrossing_keeps (s : State) (k : Nat) (c : IoCmd) : Keeps s (passCrossing s k c).1 := ⟨rfl, rfl, rfl⟩

@[simp ↓] theorem startCmd_keeps (s : State) (op : IoOp) (c : IoCmd) : Keeps s (startCmd s op c).1 := ⟨rfl, rfl, rfl⟩

@[simp ↓] theorem holdCmd_keeps (s : State) (k : Cmd) : Keeps s (holdCmd s k) := by
  unfold holdCmd; simp

@[simp ↓] theorem withChecks_keeps (s : State) (op : IoOp) (c : IoCmd) (go : State → Cmd → State)
    (h : ∀ s k, Keeps s (go s k)) : Keeps s (withChecks s op c go) := by
  simp only [keeps_iff] at h
  unfold withChecks startCmd; refine ⟨?_, ?_, ?_⟩ <;> (split <;> [rfl; skip]; dsimp only; split <;> simp [h])

@[simp ↓] theorem forwardPart_keeps (s : State) (k : Cmd) (pos first : Nat) : Keeps s (forwardPart s k pos first) := by
  unfold forwardPart; simp

@[simp ↓] theorem conclude_keeps (s : State) (k : Cmd) : Keeps s (conclude s k) := by
  unfold conclude; simp

@[simp ↓] theorem seekPoint_keeps (s : State) (k : Cmd) : Keeps s (seekPoint s k) := by
  unfold seekPoint; simp

@[simp ↓] theorem sendProgress_keeps (s : State) (k : Cmd) : Keeps s (sendProgress s k) := by
  unfold sendProgress; refine ⟨?_, ?_, ?_⟩ <;> simp <;> (repeat' split) <;> simp

@[simp ↓] theorem startAll_keeps (s : State) (n : Ns) (k : Cmd) : Keeps s (startAll s n k) := by
  unfold startAll; simp

@[simp ↓] theorem toPoint_keeps (s : State) (n : Ns) (k : Cmd) : Keeps s (toPoint s n k) := by
  unfold toPoint; refine ⟨?_, ?_, ?_⟩ <;> (repeat' split) <;> simp

@[simp ↓] theorem placeGrant_keeps (s : State) (cls unit : Nat) : Keeps s (placeGrant s cls unit) := ⟨rfl, rfl, rfl⟩

@[simp ↓] theorem convWrite_keeps (s : State) (k : Cmd) : Keeps s (convWrite s k) := by
  unfold convWrite; simp

@[simp ↓] theorem convRanges_keeps (s : State) (k : Cmd) (l : List (Nat × Nat)) : Keeps s (convRanges s k l) := by
  unfold convRanges; refine ⟨?_, ?_, ?_⟩ <;> (repeat' split) <;> simp

@[simp ↓] theorem loseUnit_keeps (s : State) (z u : Nat) : Keeps s (loseUnit s z u) := by
  unfold loseUnit; refine ⟨?_, ?_, ?_⟩ <;> simp <;> (repeat' split) <;> simp

@[simp ↓] theorem windowLost_keeps (s : State) (z u : Nat) : Keeps s (windowLost s z u) := by
  unfold windowLost; simp

@[simp ↓] theorem sramCorrected_keeps (s : State) (second : Bool) : Keeps s (sramCorrected s second) := by
  unfold sramCorrected; simp

@[simp ↓] theorem sramLost_keeps (s : State) (h : Held) : Keeps s (sramLost s h) := by
  unfold sramLost; refine ⟨?_, ?_, ?_⟩ <;> (repeat' split) <;> simp

@[simp ↓] theorem sramPath_keeps (s : State) (p : SramPath) : Keeps s (sramPath s p) := by
  unfold sramPath; refine ⟨?_, ?_, ?_⟩ <;> (repeat' split) <;> simp

@[simp ↓] theorem piStatus_keeps (s : State) (k : Cmd) (bad : Option PiField) : Keeps s (piStatus s k bad).1 := by
  unfold piStatus; refine ⟨?_, ?_, ?_⟩ <;> (repeat' split) <;> simp

@[simp ↓] theorem readDone_keeps (s : State) (k : Cmd) : Keeps s (readDone s k) := by
  unfold readDone; simp

@[simp ↓] theorem tryRead_keeps (s : State) (id : Nat) : Keeps s (tryRead s id) := by
  unfold tryRead; refine ⟨?_, ?_, ?_⟩ <;> (repeat' split) <;> simp

@[simp ↓] theorem unrecovered_keeps (s : State) (nsid fn unit : Nat) : Keeps s (unrecovered s nsid fn unit) := by
  unfold unrecovered; simp

@[simp ↓] theorem serveRead_keeps (s : State) (n : Ns) (k : Cmd) : Keeps s (serveRead s n k) := by
  unfold serveRead; refine ⟨?_, ?_, ?_⟩ <;> simp <;> (repeat' split) <;> simp

@[simp ↓] theorem withNs_keeps (s : State) (k : Cmd) (f : Ns → State)
    (h : ∀ n, Keeps s (f n)) : Keeps s (withNs s k f) := by
  simp only [keeps_iff] at h
  unfold withNs; refine ⟨?_, ?_, ?_⟩ <;> split <;> simp [h]

@[simp ↓] theorem resvDone_keeps (s : State) (k : Cmd) (n : Ns) (r : Resv) (status : Nat) (p : Payload) : Keeps s (resvDone s k n r status p) := by
  unfold resvDone; simp

@[simp ↓] theorem zoneSend_keeps (a : ZoneAct) (c : IoCmd) (s : State) : Keeps s (zoneSend a c s) := by
  unfold zoneSend; simp

@[simp ↓] theorem refuseStep_keeps (s : State) (k : Cmd) : Keeps s (refuseStep s k) := by
  unfold refuseStep; simp

@[simp ↓] theorem reportDone_keeps (s : State) (k : Cmd) : Keeps s (reportDone s k) := by
  unfold reportDone; refine ⟨?_, ?_, ?_⟩ <;> (repeat' split) <;> simp

@[simp ↓] theorem retagFn_keeps (s : State) (n : Nat) : Keeps s (retagFn s n) := by
  unfold retagFn; simp

@[simp ↓] theorem retag_keeps (s : State) : Keeps s (retag s) := by
  unfold retag; simp

@[simp ↓] theorem restartTags_keeps (s : State) : Keeps s (restartTags s) := by
  unfold restartTags; simp

@[simp ↓] theorem rebaseTags_keeps (s : State) : Keeps s (rebaseTags s) := by
  unfold rebaseTags; simp

@[simp ↓] theorem grantSlot_keeps (s : State) (n : Nat) (sl : Slot) (wr : Bool) : Keeps s (grantSlot s n sl wr) := by
  unfold grantSlot; simp

@[simp ↓] theorem holdPicks_keeps (s : State) : Keeps s (holdPicks s) := by
  unfold holdPicks
  refine ⟨foldl_pending _ _ (fun t e => ?_) _, foldl_mem _ _ (fun t e => ?_) _, foldl_otp _ _ (fun t e => ?_) _⟩ <;>
    (dsimp only; (repeat' split) <;> simp)

@[simp ↓] theorem holdUnits_keeps (s : State) (z : Nat) (fn : Nat) (us : List Nat) : Keeps s (holdUnits s z fn us) := by
  unfold holdUnits; simp

@[simp ↓] theorem admitFail_keeps (s : State) (n : Ns) (k : Cmd) (z asn : Nat) (o : ZOut) : Keeps s (admitFail s n k z asn o) := by
  unfold admitFail; simp

@[simp ↓] theorem admitWrite_keeps (s : State) (n : Ns) (k : Cmd) (z asn : Nat) : Keeps s (admitWrite s n k z asn) := by
  unfold admitWrite; simp

@[simp ↓] theorem admitSend_keeps (s : State) (n : Ns) (k : Cmd) (z asn : Nat) (a : ZoneAct) : Keeps s (admitSend s n k z asn a) := by
  unfold admitSend; simp

@[simp ↓] theorem admitPick_keeps (s : State) (z : Nat) (k : Cmd) : Keeps s (admitPick s z k) := by
  unfold admitPick; refine ⟨?_, ?_, ?_⟩ <;> simp <;> (repeat' split) <;> simp

@[simp ↓] theorem endSpent_keeps (s : State) : Keeps s (endSpent s) := by
  unfold endSpent; simp

@[simp ↓] theorem settleSelectAll_keeps (s : State) : Keeps s (settleSelectAll s) := by
  unfold settleSelectAll; simp

@[simp ↓] theorem withUndo_keeps (f : State → State) (s : State)
    (h : ∀ s, Keeps s (f s)) : Keeps s (withUndo f s) := by
  simp only [keeps_iff] at h
  unfold withUndo; simp [h]

@[simp ↓] theorem feedReads_keeps (s : State) (w : Cmd) (data : List Nat) : Keeps s (feedReads s w data) := by
  unfold feedReads; simp

@[simp ↓] theorem settleReads_keeps (s : State) : Keeps s (settleReads s) := by
  unfold settleReads; simp

@[simp ↓] theorem storeZone_keeps (s : State) (n : Ns) (k : Cmd) (z : Nat) (data : List Nat) : Keeps s (storeZone s n k z data) := by
  unfold storeZone; simp

@[simp ↓] theorem storeConv_keeps (s : State) (n : Ns) (k : Cmd) (data : List Nat) : Keeps s (storeConv s n k data) := by
  unfold storeConv; simp

@[simp ↓] theorem tellStopped_keeps (s : State) (asn key status : Nat) : Keeps s (tellStopped s asn key status) := by
  unfold tellStopped; simp

@[simp ↓] theorem sendData_keeps (s : State) (port : Nat) (n : Ns) (k : Cmd) (key asn : Nat) (data : List Nat) : Keeps s (sendData s port n k key asn data) := by
  unfold sendData; simp

@[simp ↓] theorem dataArrived_keeps (s : State) (n : Ns) (k : Cmd) (kept sent : List Nat) (bad : Option Nat) : Keeps s (dataArrived s n k kept sent bad) := by
  unfold dataArrived; simp

@[simp ↓] theorem dataUnkeyed_keeps (s : State) (k : Cmd) : Keeps s (dataUnkeyed s k) := by
  unfold dataUnkeyed; refine ⟨?_, ?_, ?_⟩ <;> (repeat' split) <;> simp

@[simp ↓] theorem onDurable_keeps (s : State) (r : JRec) : Keeps s (onDurable s r) := by
  unfold onDurable; refine ⟨?_, ?_, ?_⟩ <;> (repeat' split) <;> simp

end Sys2Proof.Machine
end

