-- ==== Sys2Proof/Laws/FrameDie.lean ====
section
/-! SUPPORT. Frame lemmas of the media, the dies, the die scripts and the apertures. -/

namespace Sys2Proof.Machine

open Sys2Proof

set_option maxRecDepth 4000

@[simp ↓] theorem lensContractEvents_keeps (s : State) : Keeps s (lensContractEvents s) := by
  unfold lensContractEvents; simp

@[simp ↓] theorem updateGroup_keeps (s : State) (g : Nat) : Keeps s (updateGroup s g) := by
  unfold updateGroup; simp

@[simp ↓] theorem updateGroups_keeps (s : State) (gs : List Nat) : Keeps s (updateGroups s gs) := by
  unfold updateGroups; simp

@[simp ↓] theorem updateWindow_keeps (s : State) : Keeps s (updateWindow s) := by
  unfold updateWindow; simp

@[simp ↓] theorem healthWarnings_keeps (s : State) : Keeps s (healthWarnings s) := by
  unfold healthWarnings; simp

@[simp ↓] theorem takeSpare_keeps (s : State) (d b : Nat) : Keeps s (takeSpare s d b) := by
  unfold takeSpare; simp

@[simp ↓] theorem exhausted_keeps (s : State) (d : Nat) : Keeps s (exhausted s d) := by
  unfold exhausted; simp

@[simp ↓] theorem queueRewrite_keeps (s : State) (d row : Nat) (urgent : Bool) : Keeps s (queueRewrite s d row urgent) := by
  unfold queueRewrite; refine ⟨?_, ?_, ?_⟩ <;> simp <;> (repeat' split) <;> simp

@[simp ↓] theorem retire_keeps (s : State) (d b : Nat) : Keeps s (retire s d b) := by
  unfold retire; simp

@[simp ↓] theorem transientMedia_keeps (s : State) (d row : Nat) : Keeps s (transientMedia s d row) := by
  unfold transientMedia; simp

@[simp ↓] theorem lastingMedia_keeps (s : State) (d row : Nat) : Keeps s (lastingMedia s d row) := by
  unfold lastingMedia; simp

@[simp ↓] theorem urgentFold_keeps (s : State) (z w : Nat) : Keeps s (urgentFold s z w) := by
  unfold urgentFold; simp

@[simp ↓] theorem unholdUnit_keeps (s : State) (z u : Nat) : Keeps s (unholdUnit s z u) := by
  unfold unholdUnit; refine ⟨?_, ?_, ?_⟩ <;> simp <;> (repeat' split) <;> simp

@[simp ↓] theorem cacheFree_keeps (s : State) : Keeps s (cacheFree s) := by
  unfold cacheFree; refine ⟨?_, ?_, ?_⟩ <;> (repeat' split) <;> simp

@[simp ↓] theorem cacheTrim_keeps (s : State) : Keeps s (cacheTrim s) := by
  unfold cacheTrim; simp

@[simp ↓] theorem stageUnit_keeps (s : State) (inst c z u : Nat) : Keeps s (stageUnit s inst c z u) := by
  unfold stageUnit; simp

@[simp ↓] theorem foldCommit_keeps (s : State) (z w : Nat) : Keeps s (foldCommit s z w) := by
  unfold foldCommit; simp

@[simp ↓] theorem readStaged_keeps (s : State) (z w f : Nat) : Keeps s (readStaged s z w f) := by
  unfold readStaged; dsimp only; split
  · simp
  · refine keeps_foldl _ _ (fun s a => ?_) s
    split <;> simp

@[simp ↓] theorem foldFacetDone_keeps (s : State) (z w f : Nat) : Keeps s (foldFacetDone s z w f) := by
  unfold foldFacetDone; simp

@[simp ↓] theorem foldFacetAbsent_keeps (s : State) (z w f : Nat) : Keeps s (foldFacetAbsent s z w f) := by
  unfold foldFacetAbsent; simp

@[simp ↓] theorem replaceReads_keeps (s : State) (qs : List DReq) : Keeps s (replaceReads s qs) := by
  unfold replaceReads; simp

@[simp ↓] theorem releaseBus_keeps (s : State) (d : Nat) : Keeps s (releaseBus s d) := by
  unfold releaseBus; simp

@[simp ↓] theorem driveBus_keeps (s : State) (d : Nat) (cs : List BusCyc) : Keeps s (driveBus s d cs) := by
  unfold driveBus; simp

@[simp ↓] theorem countStatus_keeps (s : State) (d status : Nat) : Keeps s (countStatus s d status) := by
  unfold countStatus; simp

@[simp ↓] theorem endEntry_keeps (s : State) (d status : Nat) : Keeps s (endEntry s d status) := by
  unfold endEntry; simp

@[simp ↓] theorem eraseAgain_keeps (s : State) (d b : Nat) : Keeps s (eraseAgain s d b) := by
  unfold eraseAgain; simp

@[simp ↓] theorem dieLeaves_keeps (s : State) (d : Nat) : Keeps s (dieLeaves s d) := by
  unfold dieLeaves; refine ⟨?_, ?_, ?_⟩ <;> simp <;> (repeat' split) <;> simp

@[simp ↓] theorem channelLeaves_keeps (s : State) (ch : Nat) : Keeps s (channelLeaves s ch) := by
  unfold channelLeaves; simp

@[simp ↓] theorem scriptFault_keeps (s : State) (d : Nat) : Keeps s (scriptFault s d) := by
  unfold scriptFault; simp

@[simp ↓] theorem dieOutLasting_keeps (s : State) (d : Nat) (timeout : Bool) : Keeps s (dieOutLasting s d timeout) := by
  unfold dieOutLasting; simp

@[simp ↓] theorem startEntry_keeps (s : State) (d entry block plane page column bytes : Nat) (slc : Bool) (mask v4 : Nat) (high : Bool) : Keeps s (startEntry s d entry block plane page column bytes slc mask v4 high) := by
  unfold startEntry; simp

@[simp ↓] theorem startReinit_keeps (s : State) (d entry : Nat) : Keeps s (startReinit s d entry) := by
  unfold startReinit; refine ⟨?_, ?_, ?_⟩ <;> (repeat' split) <;> simp

@[simp ↓] theorem timeoutReset_keeps (s : State) (d : Nat) (c : Ctx) : Keeps s (timeoutReset s d c) := by
  unfold timeoutReset; simp

@[simp ↓] theorem useProgram_keeps (s : State) (qlc : Bool) (cls g : Nat) : Keeps s (useProgram s qlc cls g) := ⟨rfl, rfl, rfl⟩

@[simp ↓] theorem useErase_keeps (s : State) (cls g : Nat) : Keeps s (useErase s cls g) := ⟨rfl, rfl, rfl⟩

@[simp ↓] theorem darkOne_keeps (s : State) (g : Nat) : Keeps s (darkOne s g) := by
  unfold darkOne; simp

@[simp ↓] theorem useShare_keeps (s : State) (d cls : Nat) (slc : Bool) : Keeps s (useShare s d cls slc) := by
  unfold useShare; simp

@[simp ↓] theorem dropWork_keeps (s : State) (d : Nat) (w : Work) : Keeps s (dropWork s d w) := ⟨rfl, rfl, rfl⟩

@[simp ↓] theorem startProgram_keeps (s : State) (d : Nat) (job : ProgJob) : Keeps s (startProgram s d job) := by
  unfold startProgram; simp

@[simp ↓] theorem startErase_keeps (s : State) (d b : Nat) : Keeps s (startErase s d b) := ⟨rfl, rfl, rfl⟩

@[simp ↓] theorem startWork_keeps (s : State) (d : Nat) (x0 : Work) : Keeps s (startWork s d x0) := by
  unfold startWork; refine ⟨?_, ?_, ?_⟩ <;> (repeat' split) <;> simp

@[simp ↓] theorem runWork_keeps (elapsed : Nat) (x0 : Nat) (s : State) : Keeps s (runWork elapsed x0 s) := by
  induction x0 generalizing s with
  | zero => exact ⟨rfl, rfl, rfl⟩
  | succ n ih =>
    unfold runWork; split
    · exact keeps_trans (startWork_keeps _ _ _) (ih _)
    · simp

@[simp ↓] theorem serve_keeps (s : State) (elapsed : Nat) : Keeps s (serve s elapsed) := by
  unfold serve; simp

@[simp ↓] theorem mappingFault_keeps (s : State) (d block rid : Nat) : Keeps s (mappingFault s d block rid) := by
  unfold mappingFault; refine ⟨?_, ?_, ?_⟩ <;> simp <;> (repeat' split) <;> simp

theorem pumpN_keeps (d : Nat) (x0 : Nat) (s : State) : Keeps s (pumpN d x0 s) := by
  induction x0 generalizing s with
  | zero => exact ⟨rfl, rfl, rfl⟩
  | succ n ih =>
    unfold pumpN; dsimp only; split
    · simp
    · split
      · simp
      · split
        · exact keeps_trans (mappingFault_keeps _ _ _ _) (ih _)
        · simp

@[simp ↓] theorem pump_keeps (s : State) (d : Nat) : Keeps s (pump s d) := by
  have h := pumpN_keeps d (die s d).queue.length s
  simp only [keeps_iff] at h
  unfold pump; simp [h]

@[simp ↓] theorem enqueueRead_keeps (s : State) (d : Nat) (q : DReq) : Keeps s (enqueueRead s d q) := by
  unfold enqueueRead; simp

@[simp ↓] theorem enqueueWork_keeps (s : State) (d : Nat) (w : Work) : Keeps s (enqueueWork s d w) := ⟨rfl, rfl, rfl⟩

@[simp ↓] theorem leavePeriscope_keeps (s : State) (r : RdUnit) : Keeps s (leavePeriscope s r) := by
  unfold leavePeriscope; simp

@[simp ↓] theorem cancelReqs_keeps (s : State) (r : RdUnit) : Keeps s (cancelReqs s r) := by
  unfold cancelReqs; simp

@[simp ↓] theorem unitArrived_keeps (s : State) (r : RdUnit) : Keeps s (unitArrived s r) := by
  unfold unitArrived; refine ⟨?_, ?_, ?_⟩ <;> simp <;> (repeat' split) <;> simp

@[simp ↓] theorem unitFailed_keeps (s : State) (r : RdUnit) : Keeps s (unitFailed s r) := by
  unfold unitFailed; refine ⟨?_, ?_, ?_⟩ <;> simp <;> (repeat' split) <;> simp

@[simp ↓] theorem twinOrFail_keeps (s : State) (r : RdUnit) : Keeps s (twinOrFail s r) := by
  unfold twinOrFail; simp

@[simp ↓] theorem judge_keeps (s : State) (d : Nat) (r : RdUnit) (corrected step : Nat) : Keeps s (judge s d r corrected step) := by
  unfold judge; refine ⟨?_, ?_, ?_⟩ <;> simp <;> (repeat' split) <;> simp

@[simp ↓] theorem goDirect_keeps (s : State) (r : RdUnit) : Keeps s (goDirect s r) := by
  unfold goDirect; simp

@[simp ↓] theorem goMembers_keeps (s : State) (r : RdUnit) (mode : RdMode) (ms left : List Nat) : Keeps s (goMembers s r mode ms left) := by
  unfold goMembers; simp

@[simp ↓] theorem countWait_keeps (s : State) (r : RdUnit) (w : Rat) : Keeps s (countWait s r w) := by
  unfold countWait; simp

@[simp ↓] theorem takePeriscope_keeps (s : State) (r : RdUnit) : Keeps s (takePeriscope s r) := ⟨rfl, rfl, rfl⟩

@[simp ↓] theorem goPeriscope_keeps (s : State) (r : RdUnit) (ms left : List Nat) : Keeps s (goPeriscope s r ms left) := by
  unfold goPeriscope; simp

@[simp ↓] theorem turnAway_keeps (s : State) (r : RdUnit) : Keeps s (turnAway s r) := by
  unfold turnAway; simp

@[simp ↓] theorem goRebuild_keeps (s : State) (r : RdUnit) (remain : List (Nat × Nat)) : Keeps s (goRebuild s r remain) := by
  unfold goRebuild; simp

@[simp ↓] theorem placeRead_keeps (s : State) (r : RdUnit) (remain : List (Nat × Nat)) : Keeps s (placeRead s r remain) := by
  unfold placeRead; refine ⟨?_, ?_, ?_⟩ <;> simp <;> (repeat' split) <;> simp

@[simp ↓] theorem repeatDone_keeps (s : State) (d : Nat) : Keeps s (repeatDone s d) := by
  unfold repeatDone; simp

@[simp ↓] theorem memberDecoded_keeps (s : State) (r : RdUnit) (f : Nat) : Keeps s (memberDecoded s r f) := by
  unfold memberDecoded; simp

@[simp ↓] theorem rebuildMemberBad_keeps (s : State) (r : RdUnit) (f : Nat) : Keeps s (rebuildMemberBad s r f) := by
  unfold rebuildMemberBad; refine ⟨?_, ?_, ?_⟩ <;> (repeat' split) <;> simp

@[simp ↓] theorem periscopeFallback_keeps (s : State) (r : RdUnit) (f : Nat) (remain : List (Nat × Nat)) : Keeps s (periscopeFallback s r f remain) := by
  unfold periscopeFallback; simp

@[simp ↓] theorem readOutcome_keeps (s : State) (r : RdUnit) (d : Nat) (member : Bool) (dec : Dec) (remain : List (Nat × Nat)) : Keeps s (readOutcome s r d member dec remain) := by
  unfold readOutcome; refine ⟨?_, ?_, ?_⟩ <;> (repeat' split) <;> simp

@[simp ↓] theorem ladderGood_keeps (s : State) (r : RdUnit) (k : Nat) : Keeps s (ladderGood s r k) := by
  unfold ladderGood; refine ⟨?_, ?_, ?_⟩ <;> (repeat' split) <;> simp

@[simp ↓] theorem poolDone_keeps (s : State) (nsid u : Nat) : Keeps s (poolDone s nsid u) := by
  unfold poolDone; refine ⟨?_, ?_, ?_⟩ <;> simp <;> (repeat' split) <;> simp

@[simp ↓] theorem absentUnit_keeps (s : State) (pn : Nat) (place : Option (Nat × Nat)) : Keeps s (absentUnit s pn place) := by
  unfold absentUnit; refine ⟨?_, ?_, ?_⟩ <;> (repeat' split) <;> simp

@[simp ↓] theorem leaveOut_keeps (s : State) (d : Nat) (job : ProgJob) : Keeps s (leaveOut s d job) := by
  unfold leaveOut; refine ⟨?_, ?_, ?_⟩ <;> (repeat' split) <;> simp

@[simp ↓] theorem jobHandle_keeps (s : State) (job : ProgJob) : Keeps s (jobHandle s job) := by
  unfold jobHandle; refine ⟨?_, ?_, ?_⟩ <;> (repeat' split) <;> simp

@[simp ↓] theorem addCell_keeps (s : State) (d : Nat) (start : Bool) (blocks : List Nat) : Keeps s (addCell s d start blocks) := ⟨rfl, rfl, rfl⟩

@[simp ↓] theorem ledgerErase_keeps (s : State) (d b : Nat) : Keeps s (ledgerErase s d b) := ⟨rfl, rfl, rfl⟩

@[simp ↓] theorem changeLedger_keeps (s : State) (d : Nat) (blocks : List Nat) : Keeps s (changeLedger s d blocks) := by
  unfold changeLedger; simp

@[simp ↓] theorem startCellDone_keeps (s : State) (d : Nat) (blocks : List Nat) : Keeps s (startCellDone s d blocks) := by
  unfold startCellDone; simp

@[simp ↓] theorem doneCellDone_keeps (s : State) (d : Nat) : Keeps s (doneCellDone s d) := by
  unfold doneCellDone; simp

@[simp ↓] theorem jobDone_keeps (s : State) (d : Nat) (job : ProgJob) : Keeps s (jobDone s d job) := by
  unfold jobDone; refine ⟨?_, ?_, ?_⟩ <;> (repeat' split) <;> simp

@[simp ↓] theorem transientWrite_keeps (s : State) (d : Nat) : Keeps s (transientWrite s d) := by
  unfold transientWrite; simp

@[simp ↓] theorem hardTimeout_keeps (s : State) (d : Nat) : Keeps s (hardTimeout s d) := by
  unfold hardTimeout; simp

@[simp ↓] theorem eraseDone_keeps (s : State) (d : Nat) : Keeps s (eraseDone s d) := by
  unfold eraseDone; refine ⟨?_, ?_, ?_⟩ <;> simp <;> (repeat' split) <;> simp

@[simp ↓] theorem eraseFailed_keeps (s : State) (d : Nat) : Keeps s (eraseFailed s d) := by
  unfold eraseFailed; refine ⟨?_, ?_, ?_⟩ <;> simp <;> (repeat' split) <;> simp

@[simp ↓] theorem eraseEnds_keeps (s : State) (d status : Nat) : Keeps s (eraseEnds s d status) := by
  unfold eraseEnds; refine ⟨?_, ?_, ?_⟩ <;> simp <;> (repeat' split) <;> simp

@[simp ↓] theorem suspendErase_keeps (s : State) (d : Nat) (boundary : Bool) : Keeps s (suspendErase s d boundary) := by
  unfold suspendErase; simp

@[simp ↓] theorem resumeErase_keeps (s : State) (d : Nat) : Keeps s (resumeErase s d) := by
  unfold resumeErase; simp

theorem takeBus_keeps (s : State) (d : Nat) (t : State) (h : takeBus s d = some t) : Keeps s t := by
  unfold takeBus at h; dsimp only at h; (repeat' split at h) <;> first | contradiction | (cases h; simp)

@[simp ↓] theorem scriptStep_keeps (s : State) (d op : Nat) (w : Word32) (body : State → Ctx → State)
    (h : ∀ s c, Keeps s (body s c)) : Keeps s (scriptStep s d op w body) := by
  simp only [keeps_iff] at h
  unfold scriptStep; dsimp only
  split
  · simp
  · split
    · exact ⟨rfl, rfl, rfl⟩
    rename_i t ht
    have k := takeBus_keeps s d t ht
    simp only [keeps_iff] at k
    simp [h, k]

@[simp ↓] theorem goTo_keeps (s : State) (d : Nat) (c : Ctx) (target : Nat) : Keeps s (goTo s d c target) := by
  unfold goTo; simp

@[simp ↓] theorem aluStep_keeps (s : State) (d op fn : Nat) (w : Word32) (b : Ctx → Word32) : Keeps s (aluStep s d op fn w b) := by
  unfold aluStep; split
  · exact ⟨rfl, rfl, rfl⟩
  refine scriptStep_keeps _ _ _ _ _ fun t c => ?_
  split
  · simp
  · split <;> simp

@[simp ↓] theorem afterEnd_keeps (s : State) (d : Nat) (c : Ctx) (st : Nat) : Keeps s (afterEnd s d c st) := by
  unfold afterEnd; refine ⟨?_, ?_, ?_⟩ <;> (repeat' split) <;> simp

@[simp ↓] theorem groupFrame_keeps (s : State) (g : Nat) : Keeps s (groupFrame s g) := by
  unfold groupFrame; simp

@[simp ↓] theorem frameTurn_keeps (s : State) : Keeps s (frameTurn s) := by
  unfold frameTurn; simp

@[simp ↓] theorem slotTurn_keeps (s : State) : Keeps s (slotTurn s) := by
  unfold slotTurn
  refine keeps_trans (keeps_foldl _ _ (fun s a => ?_) s) (keeps_trans (keeps_foldl _ (fun s d => pumpN d (die s d).queue.length s) (fun s a => pumpN_keeps _ _ _) _) (serve_keeps _ _))
  dsimp only; split <;> (try split) <;> simp

theorem stepProgram_keeps (s : State) (d n : Nat) (qlc single : Bool) (t : State) (h : stepProgram s d n qlc single = some t) : Keeps s t := by
  revert h; unfold stepProgram; (repeat' split) <;> intro h <;> first | (cases h; done) | (cases h; simp)

theorem stepErase_keeps (s : State) (d : Nat) (t : State) (h : stepErase s d = some t) : Keeps s t := by
  unfold stepErase at h; split at h
  · cases h; simp
  · cases h

@[simp ↓] theorem setChanState_keeps (s : State) (ch st : Nat) : Keeps s (setChanState s ch st) := by
  unfold setChanState; simp

@[simp ↓] theorem nextLoad_keeps (s : State) : Keeps s (nextLoad s) := by
  unfold nextLoad; refine ⟨?_, ?_, ?_⟩ <;> (repeat' split) <;> simp

@[simp ↓] theorem extend_keeps (s : State) (i d : Nat) : Keeps s (extend s i d) := by
  unfold extend; simp

@[simp ↓] theorem setGeometry_keeps (s : State) (image mask : Nat) : Keeps s (setGeometry s image mask) := by
  unfold setGeometry; simp

@[simp ↓] theorem startLoad_keeps (s : State) (v mask : Nat) : Keeps s (startLoad s v mask) := by
  unfold startLoad; simp

@[simp ↓] theorem rateFound_keeps (s : State) (ch rate : Nat) : Keeps s (rateFound s ch rate) := by
  unfold rateFound; simp

@[simp ↓] theorem setRewrite_keeps (s : State) (d : Nat) (r : Rewrite) : Keeps s (setRewrite s d r) := by
  unfold setRewrite; simp

@[simp ↓] theorem dropRewrite_keeps (s : State) (d : Nat) (r : Rewrite) : Keeps s (dropRewrite s d r) := by
  unfold dropRewrite; simp

@[simp ↓] theorem retiredBlock_keeps (s : State) (d b : Nat) : Keeps s (retiredBlock s d b) := by
  unfold retiredBlock; simp

@[simp ↓] theorem switchRow_keeps (s : State) (d : Nat) (r : Rewrite) (spare : Nat) : Keeps s (switchRow s d r spare) := by
  unfold switchRow; simp

@[simp ↓] theorem cellsAbsent_keeps (s : State) (d row : Nat) : Keeps s (cellsAbsent s d row) := by
  unfold cellsAbsent; simp

@[simp ↓] theorem noSpare_keeps (s : State) (d : Nat) (r : Rewrite) : Keeps s (noSpare s d r) := by
  unfold noSpare; simp

@[simp ↓] theorem deferRewrite_keeps (s : State) (d : Nat) (r : Rewrite) : Keeps s (deferRewrite s d r) := by
  unfold deferRewrite; refine ⟨?_, ?_, ?_⟩ <;> simp <;> (repeat' split) <;> simp

@[simp ↓] theorem takeStep_keeps (s : State) (d : Nat) (r : Rewrite) (ok : Bool) : Keeps s (takeStep s d r ok) := by
  unfold takeStep; refine ⟨?_, ?_, ?_⟩ <;> (repeat' split) <;> simp

@[simp ↓] theorem eraseSource_keeps (s : State) (d : Nat) (r : Rewrite) (ok : Bool) : Keeps s (eraseSource s d r ok) := by
  unfold eraseSource; simp

@[simp ↓] theorem copyStep_keeps (s : State) (d : Nat) (r : Rewrite) (b : Nat) (ok : Bool) : Keeps s (copyStep s d r b ok) := by
  unfold copyStep; split
  · split
    · simp
    · rename_i t ht
      have k := stepProgram_keeps _ _ _ _ _ _ ht
      refine keeps_trans k ?_
      split <;> simp
  · split <;> simp

@[simp ↓] theorem probationFails_keeps (s : State) (d : Nat) : Keeps s (probationFails s d) := by
  unfold probationFails; simp

@[simp ↓] theorem testErases_keeps (s : State) (d : Nat) : Keeps s (testErases s d) := by
  unfold testErases; refine ⟨?_, ?_, ?_⟩ <;> (repeat' split) <;> simp

@[simp ↓] theorem byRebuild_keeps (s : State) (d row : Nat) : Keeps s (byRebuild s d row) := ⟨rfl, rfl, rfl⟩

@[simp ↓] theorem repairUnit_keeps (d z : Nat) (s : State) (w : Nat) : Keeps s (repairUnit d z s w) := by
  unfold repairUnit; split
  · rename_i t ht
    exact keeps_trans (stepProgram_keeps _ _ _ _ _ _ ht) (by simp)
  · simp

@[simp ↓] theorem repairPool_keeps (d z : Nat) (s : State) (o : Nat) : Keeps s (repairPool d z s o) := by
  unfold repairPool; split
  · simp
  · split
    · rename_i t ht
      exact keeps_trans (stepProgram_keeps _ _ _ _ _ _ ht) (by simp)
    · simp

@[simp ↓] theorem moveUnit_keeps (s : State) (nsid u h gen : Nat) : Keeps s (moveUnit s nsid u h gen) := by
  unfold moveUnit; refine ⟨?_, ?_, ?_⟩ <;> simp <;> (repeat' split) <;> simp

theorem moveProgram_keeps (s : State) (n : Ns) (h : Nat) (t : State) (e : moveProgram s n h = some t) : Keeps s t := by
  unfold moveProgram at e; split at e
  · cases e; simp
  · exact stepProgram_keeps _ _ _ _ _ _ e

@[simp ↓] theorem relocateFacet_keeps (z : Nat) (s : State) (d : Nat) : Keeps s (relocateFacet z s d) := by
  unfold relocateFacet; refine ⟨?_, ?_, ?_⟩ <;> (repeat' split) <;> simp

theorem relocateGrants_keeps (s : State) (z : Nat) (t : State) (h : relocateGrants s z = some t) : Keeps s t := by
  unfold relocateGrants at h; dsimp only at h
  suffices ∀ (l : List Nat) (m : Option State), (∀ u, m = some u → Keeps s u) → ∀ t, l.foldl (fun (m : Option State) d =>
      ((m.bind fun s => stepErase s d).bind fun s' => stepProgram s' d ((zone s z).folds.filter fun e => e.2.committed).length true
        (zonePn s' z == 1)).bind fun s => stepErase s d) m = some t → Keeps s t from
    this _ _ (fun u hu => by cases hu; simp) t h
  intro l
  induction l with
  | nil => intro m hm t ht; exact hm t ht
  | cons a l ih =>
    intro m hm
    refine ih _ fun u hu => ?_
    simp only [Option.bind_eq_some_iff] at hu
    obtain ⟨c, ⟨b, ⟨v, hv, h1⟩, h2⟩, h3⟩ := hu
    exact keeps_trans (hm v hv) (keeps_trans (stepErase_keeps _ _ _ h1) (keeps_trans (stepProgram_keeps _ _ _ _ _ _ h2) (stepErase_keeps _ _ _ h3)))

@[simp ↓] theorem relocateZone_keeps (s : State) (z : Nat) : Keeps s (relocateZone s z) := by
  unfold relocateZone; simp

@[simp ↓] theorem rotationEnd_keeps (s : State) (n : Ns) (r : Rotation) : Keeps s (rotationEnd s n r) := by
  unfold rotationEnd; simp

end Sys2Proof.Machine
end

