-- ==== Sys2Proof/Laws/FrameReset.lean ====
section
/-! SUPPORT. Frame lemmas of the resets and of power loss. -/

namespace Sys2Proof.Machine

open Sys2Proof

set_option maxRecDepth 4000

@[simp ↓] theorem odKeep_keeps (s : State) (obj elem v : Nat) (inst : Nat) : Keeps s (odKeep s obj elem v inst) := by
  unfold odKeep; simp

@[simp ↓] theorem saveHealth_keeps (s : State) : Keeps s (saveHealth s) := by
  unfold saveHealth; simp

@[simp ↓] theorem loupeFlush_keeps (s : State) : Keeps s (loupeFlush s) := by
  unfold loupeFlush; simp

@[simp ↓] theorem holdCmdEnd_keeps (s : State) (k : Cmd) : Keeps s (holdCmdEnd s k) := by
  unfold holdCmdEnd; refine ⟨?_, ?_, ?_⟩ <;> (repeat' split) <;> simp

@[simp ↓] theorem holdStart_keeps (s : State) (h : Hold) : Keeps s (holdStart s h) := by
  unfold holdStart holdNotice holdStops; simp

@[simp ↓] theorem powerLost_keeps (s : State) : Keeps s (powerLost s) := by
  unfold powerLost; simp

@[simp ↓] theorem plnQualify_keeps (s : State) : Keeps s (plnQualify s) := by
  unfold plnQualify; refine ⟨?_, ?_, ?_⟩ <;> (repeat' split) <;> simp

@[simp ↓] theorem writeImage_keeps (s : State) : Keeps s (writeImage s) := by
  unfold writeImage; simp

@[simp ↓] theorem sealImage_keeps (s : State) : Keeps s (sealImage s) := by
  unfold sealImage; simp

@[simp ↓] theorem resetBlocks_fresh (s : State) (cold : Bool) : (resetBlocks s cold).pending = s.pending ∧
    (resetBlocks s cold).dram.mem = [] ∧ (resetBlocks s cold).ciph.otpMin = s.ciph.otpMin := ⟨rfl, rfl, rfl⟩

@[simp ↓] theorem deviceReset_fresh (s : State) (cold : Bool) : (deviceReset s cold).pending = s.pending ∧
    (deviceReset s cold).dram.mem = [] ∧ (deviceReset s cold).ciph.otpMin = s.ciph.otpMin := by
  unfold deviceReset; simp

/-- What every operation but a write of the DRAM does: the queue stays, the DRAM contents stay or are cleared by a reset,
and the minimum security version does not fall. -/
abbrev Clears (s t : State) : Prop :=
  t.pending = s.pending ∧ (t.dram.mem = s.dram.mem ∨ t.dram.mem = []) ∧ s.ciph.otpMin ≤ t.ciph.otpMin

theorem Keeps.clears {s t : State} (h : Keeps s t) : Clears s t := ⟨h.1, .inl h.2.1, h.2.2.ge⟩

theorem Clears.trans {s t u : State} (h : Clears s t) (k : Clears t u) : Clears s u := by
  refine ⟨k.1.trans h.1, ?_, h.2.2.trans k.2.2⟩
  rcases k.2.1 with e | e
  · rw [e]; exact h.2.1
  · exact .inr e

theorem deviceReset_clears (s : State) (cold : Bool) : Clears s (deviceReset s cold) := by
  refine ⟨?_, .inr ?_, ?_⟩ <;> simp

@[simp ↓] theorem setCause_keeps (s : State) (b sub : Nat) : Keeps s (setCause s b sub) := by
  unfold setCause; simp

@[simp ↓] theorem countFailure_keeps (s : State) (b : Nat) : Keeps s (countFailure s b) := by
  unfold countFailure; simp

theorem raise_clears (s : State) (b : Nat) (sub : Nat) : Clears s (raise s b sub) := by
  refine ⟨?_, ?_, ?_⟩
  · unfold raise; dsimp only; (repeat' split) <;> simp
  · unfold raise; dsimp only; (repeat' split) <;> first | (left; simp; done) | (right; simp; done)
  · unfold raise; dsimp only; (repeat' split) <;> simp

@[simp ↓] theorem rollZone_keeps (s : State) (e : Undo) : Keeps s (rollZone s e) := by
  unfold rollZone; simp

@[simp ↓] theorem ringResume_keeps (s : State) (f : Nat × Nat) : Keeps s (ringResume s f) := by
  unfold ringResume; simp

@[simp ↓] theorem undoJournal_keeps (s : State) (j : JRec) : Keeps s (undoJournal s j) := by
  unfold undoJournal; refine ⟨?_, ?_, ?_⟩ <;> (repeat' split) <;> simp

@[simp ↓] theorem rejournal_keeps (s : State) (j : JRec) : Keeps s (rejournal s j) := by
  unfold rejournal; refine ⟨?_, ?_, ?_⟩ <;> (repeat' split) <;> simp

@[simp ↓] theorem markLost_keeps (kept : List (Nat × Nat)) (s : State) : Keeps s (markLost kept s).1 := by
  unfold markLost; simp

@[simp ↓] theorem repairCut_keeps (s : State) (x : Nat × Nat × Nat) : Keeps s (repairCut s x) := by
  unfold repairCut; refine ⟨?_, ?_, ?_⟩ <;> simp <;> (repeat' split) <;> simp

@[simp ↓] theorem recoverLoss_keeps (s : State) (f : LossFacts) : Keeps s (recoverLoss s f) := by
  unfold recoverLoss; simp

@[simp ↓] theorem halfErased_keeps (s : State) : Keeps s (halfErased s) := by
  unfold halfErased; simp

@[simp ↓] theorem holdConv_keeps (s : State) (e : Nat × Nat) : Keeps s (holdConv s e) := by
  unfold holdConv; refine ⟨?_, ?_, ?_⟩ <;> (repeat' split) <;> simp

@[simp ↓] theorem useImage_keeps (s : State) : Keeps s (useImage s) := by
  unfold useImage; refine ⟨?_, ?_, ?_⟩ <;> (repeat' split) <;> simp

@[simp ↓] theorem scanRead_keeps (s : State) (loss : Option LossFacts) : Keeps s (scanRead s loss) := by
  unfold scanRead; simp

@[simp ↓] theorem settleRecord_keeps (s : State) (l : LRec) (status : Nat) : Keeps s (settleRecord s l status) := by
  unfold settleRecord; refine ⟨?_, ?_, ?_⟩ <;> (repeat' split) <;> simp

@[simp ↓] theorem settleAll_keeps (s : State) : Keeps s (settleAll s) := by
  unfold settleAll; simp

@[simp ↓] theorem epochRecord_keeps (s : State) : Keeps s (epochRecord s) := by
  unfold epochRecord; simp

@[simp ↓] theorem reformat_keeps (before s : State) : Keeps s (reformat before s) := by
  unfold reformat; simp

@[simp ↓] theorem leavePreserve_keeps (before s : State) : Keeps s (leavePreserve before s) := by
  unfold leavePreserve; simp

@[simp ↓] theorem remapOne_keeps (s : State) (j : JRec) : Keeps s (remapOne s j) := by
  unfold remapOne; refine ⟨?_, ?_, ?_⟩ <;> (repeat' split) <;> simp

@[simp ↓] theorem remapAgain_keeps (s : State) : Keeps s (remapAgain s) := by
  unfold remapAgain; simp

@[simp ↓] theorem closeOpened_keeps (s : State) : Keeps s (closeOpened s) := by
  unfold closeOpened; simp

@[simp ↓] theorem programBootRecord_keeps (s : State) : Keeps s (programBootRecord s) := by
  unfold programBootRecord; refine ⟨?_, ?_, ?_⟩ <;> (repeat' split) <;> simp

@[simp ↓] theorem settleJournal_keeps (s : State) : Keeps s (settleJournal s) := by
  unfold settleJournal; simp

@[simp ↓] theorem scanWrite_keeps (s : State) : Keeps s (scanWrite s) := by
  unfold scanWrite; refine ⟨?_, ?_, ?_⟩ <;> simp <;> (repeat' split) <;> simp

theorem scanArm_clears (s : State) : Clears s (scanArm s) := by
  unfold scanArm; dsimp only
  refine ⟨by simp, .inl (by simp), ?_⟩
  simp only [updateWindow_keeps]
  split <;> simp

end Sys2Proof.Machine
end

