-- ==== Sys2Proof/Laws/FramePair.lean ====
section
/-! SUPPORT. Frame lemmas of the mirror, the cascade, the lenses, the cipher and attestation. -/

namespace Sys2Proof.Machine

open Sys2Proof

set_option maxRecDepth 4000

@[simp ↓] theorem setRole_keeps (s : State) (r : Nat) : Keeps s (setRole s r) := by
  unfold setRole; simp

@[simp ↓] theorem setPhase_keeps (s : State) (p : Nat) : Keeps s (setPhase s p) := by
  unfold setPhase; simp

@[simp ↓] theorem bumpEpoch_keeps (s : State) : Keeps s (bumpEpoch s) := by
  unfold bumpEpoch; simp

@[simp ↓] theorem setAna_keeps (s : State) (a : Nat) : Keeps s (setAna s a) := by
  unfold setAna; simp

@[simp ↓] theorem receive_keeps (s : State) (hd : FrameHdr) (f : State → State)
    (h : ∀ s, Keeps s (f s)) : Keeps s (receive s hd f) := by
  simp only [keeps_iff] at h
  unfold receive; refine ⟨?_, ?_, ?_⟩ <;> (repeat' split) <;> simp [h]

@[simp ↓] theorem dropForeign_keeps (s : State) : Keeps s (dropForeign s) := ⟨rfl, rfl, rfl⟩

@[simp ↓] theorem settleTwinless_keeps (s : State) : Keeps s (settleTwinless s) := by
  unfold settleTwinless; simp

@[simp ↓] theorem failTwinReads_keeps (s : State) : Keeps s (failTwinReads s) := by
  unfold failTwinReads; simp

@[simp ↓] theorem linkDown_keeps (s : State) : Keeps s (linkDown s) := by
  unfold linkDown; simp

@[simp ↓] theorem goSolo_keeps (s : State) : Keeps s (goSolo s) := by
  unfold goSolo; simp

@[simp ↓] theorem fence_keeps (s : State) : Keeps s (fence s) := by
  unfold fence; simp

@[simp ↓] theorem askedToPoint_keeps (s : State) : Keeps s (askedToPoint s) := by
  unfold askedToPoint; simp

@[simp ↓] theorem ordersHere_keeps (s : State) : Keeps s (ordersHere s) := by
  unfold ordersHere; simp

@[simp ↓] theorem reportHere_keeps (s : State) : Keeps s (reportHere s) := by
  unfold reportHere; refine ⟨?_, ?_, ?_⟩ <;> (repeat' split) <;> simp

@[simp ↓] theorem promote_keeps (s : State) : Keeps s (promote s) := by
  unfold promote; simp

@[simp ↓] theorem linkLost_keeps (s : State) : Keeps s (linkLost s) := by
  unfold linkLost; simp

@[simp ↓] theorem trySeparate_keeps (s : State) : Keeps s (trySeparate s) := by
  unfold trySeparate; simp

@[simp ↓] theorem tryHandover_keeps (s : State) (applied : Nat) : Keeps s (tryHandover s applied) := by
  unfold tryHandover; simp

theorem aloneAsLead_clears (s : State) : Clears s (aloneAsLead s) := by
  have h : ∀ t : State, Keeps s t → Clears s (scanArm (scanWrite (reportHere (bumpEpoch (setRole t 1))))) := fun t k =>
    (Keeps.clears (by simpa using k)).trans (scanArm_clears _)
  unfold aloneAsLead; dsimp only
  split
  · exact h _ (by simp)
  · exact h _ ⟨rfl, rfl, rfl⟩

theorem endBootWait_clears (s : State) : Clears s (endBootWait s) := by
  unfold endBootWait; split <;> first
    | (refine Keeps.clears ?_; simp; done)
    | (refine (Keeps.clears ?_).trans (scanArm_clears _); simp; done)

theorem endWaitFollower_clears (s : State) : Clears s (endWaitFollower s) := by
  unfold endWaitFollower; split <;> first
    | (refine Keeps.clears ?_; simp; done)
    | (refine (Keeps.clears ?_).trans (scanArm_clears _); simp; done)

@[simp ↓] theorem reportPreserve_keeps (s : State) : Keeps s (reportPreserve s) := by
  unfold reportPreserve; refine ⟨?_, ?_, ?_⟩ <;> (repeat' split) <;> simp

theorem meetAsLead_clears (s : State) (serial : Nat) (formed : Bool) : Clears s (meetAsLead s serial formed) := by
  unfold meetAsLead; dsimp only
  have h : ∀ x, Keeps s x → Clears s (endBootWait x) := fun x hx => hx.clears.trans (endBootWait_clears x)
  have g : ∀ x, Clears s x → Clears s (sendRoot x) := fun x hx => hx.trans (Keeps.clears (by simp))
  split
  · exact g _ (h _ (by simp))
  · exact h _ (by simp)

theorem meetAsFollower_clears (s : State) (serial : Nat) (formed : Bool) : Clears s (meetAsFollower s serial formed) := by
  unfold meetAsFollower; dsimp only
  have h : ∀ x, Keeps s x → Clears s (endWaitFollower x) := fun x hx => hx.clears.trans (endWaitFollower_clears x)
  have g : ∀ x, Clears s x → Clears s (reportPreserve x) := fun x hx => hx.trans (Keeps.clears (by simp))
  have k : ∀ x l, Clears s x → Clears s (sendFrame x 0 4 l) := fun x l hx => hx.trans (Keeps.clears (by simp))
  exact k _ _ (g _ (h _ (by simp)))

theorem meetSplit_clears (s : State) (fences : Bool) : Clears s (meetSplit s fences) := by
  unfold meetSplit; dsimp only; split
  · (refine Keeps.clears ?_; simp; done)
  · (refine (Keeps.clears ?_).trans (endBootWait_clears _); simp; done)

theorem attach_clears (s : State) (serial peerEpoch : Nat) (peerLead peerPref peerNs peerPaired : Bool) (peerControllers : Nat) : Clears s (attach s serial peerEpoch peerLead peerPref peerNs peerPaired peerControllers) := by
  unfold attach; dsimp only; split
  · (refine Keeps.clears ?_; simp; done)
  · split
    · (refine Keeps.clears ?_; simp; done)
    · exact meetAsLead_clears _ _ _
    · exact meetAsFollower_clears _ _ _
    · exact meetSplit_clears _ _

theorem mirrorTrained_clears (s : State) (lanes serial position digest peerEpoch : Nat) (peerLead peerPref peerNs peerPaired : Bool) (peerControllers : Nat) : Clears s (mirrorTrained s lanes serial position digest peerEpoch peerLead peerPref peerNs peerPaired peerControllers) := by
  unfold mirrorTrained; dsimp only; (repeat' split) <;> first
    | (refine Keeps.clears ?_; simp; done)
    | (refine (Keeps.clears ?_).trans (attach_clears _ _ _ _ _ _ _ _); simp; done)

@[simp ↓] theorem cascadeTrained_keeps (s : State) (port lanes serial position : Nat) : Keeps s (cascadeTrained s port lanes serial position) := by
  unfold cascadeTrained; simp

@[simp ↓] theorem zoneAfter_keeps (s : State) (z : Nat) (r : Option LRec) : Keeps s (zoneAfter s z r) := by
  unfold zoneAfter; refine ⟨?_, ?_, ?_⟩ <;> (repeat' split) <;> simp

@[simp ↓] theorem discardAbove_keeps (s : State) (fork : Nat) : Keeps s (discardAbove s fork) := by
  unfold discardAbove; simp

@[simp ↓] theorem takePreserve_keeps (s : State) (g : Option Nat) : Keeps s (takePreserve s g) := by
  unfold takePreserve; refine ⟨?_, ?_, ?_⟩ <;> (repeat' split) <;> simp

@[simp ↓] theorem takeTransfer_keeps (s : State) (t : Transfer) (live : Nat) : Keeps s (takeTransfer s t live) := by
  unfold takeTransfer; simp

@[simp ↓] theorem separate_keeps (s : State) : Keeps s (separate s) := by
  unfold separate; simp

@[simp ↓] theorem sendRecord_keeps (s : State) (r : LedgerRec) : Keeps s (sendRecord s r) := by
  unfold sendRecord; simp

@[simp ↓] theorem noticeFromTwin_keeps (s : State) : Keeps s (noticeFromTwin s) := by
  unfold noticeFromTwin; simp

@[simp ↓] theorem switchKeys_keeps (s : State) (e : Nat × Nat × Nat × Nat) : Keeps s (switchKeys s e) := by
  unfold switchKeys; refine ⟨?_, ?_, ?_⟩ <;> (repeat' split) <;> simp

@[simp ↓] theorem dueSwitches_keeps (s : State) : Keeps s (dueSwitches s) := by
  unfold dueSwitches; simp

@[simp ↓] theorem markBack_keeps (s : State) (z off : Nat) : Keeps s (markBack s z off) := by
  unfold markBack; simp

@[simp ↓] theorem applyZone_keeps (s : State) (r : LedgerRec) : Keeps s (applyZone s r) := by
  unfold applyZone; refine ⟨?_, ?_, ?_⟩ <;> (repeat' split) <;> simp

@[simp ↓] theorem takeValues_keeps (s : State) (l : List (Nat × Nat)) : Keeps s (takeValues s l) := by
  unfold takeValues; simp

@[simp ↓] theorem applyRecord_keeps (s : State) (r : LedgerRec) : Keeps s (applyRecord s r) := by
  unfold applyRecord; refine ⟨?_, ?_, ?_⟩ <;> (repeat' split) <;> simp

@[simp ↓] theorem afterRecord_keeps (s : State) (r : LedgerRec) (differ : Bool) : Keeps s (afterRecord s r differ) := by
  unfold afterRecord; refine ⟨?_, ?_, ?_⟩ <;> (repeat' split) <;> simp

@[simp ↓] theorem takeFinal_keeps (s : State) (r : LedgerRec) : Keeps s (takeFinal s r) := by
  unfold takeFinal; simp

@[simp ↓] theorem settleAsked_keeps (s : State) : Keeps s (settleAsked s) := by
  unfold settleAsked; simp

@[simp ↓] theorem sendUnit_keeps (s : State) (rid key u : Nat) : Keeps s (sendUnit s rid key u) := by
  unfold sendUnit; simp

@[simp ↓] theorem placeZoneUnit_keeps (s : State) (z u gen : Nat) (content : List Nat) : Keeps s (placeZoneUnit s z u gen content) := by
  unfold placeZoneUnit; refine ⟨?_, ?_, ?_⟩ <;> simp <;> (repeat' split) <;> simp

@[simp ↓] theorem placeConvUnit_keeps (s : State) (nsid u seq : Nat) (content : List Nat) : Keeps s (placeConvUnit s nsid u seq content) := by
  unfold placeConvUnit; refine ⟨?_, ?_, ?_⟩ <;> (repeat' split) <;> simp

@[simp ↓] theorem placeCmdBlocks_keeps (s : State) (n : Ns) (k : Cmd) (u : Nat) (content : List Nat) : Keeps s (placeCmdBlocks s n k u content) := by
  unfold placeCmdBlocks; dsimp only; split <;> simp

@[simp ↓] theorem checkHere_keeps (s : State) (k : Cmd) (blocks : List Nat) : Keeps s (checkHere s k blocks).1 := by
  unfold checkHere; refine ⟨?_, ?_, ?_⟩ <;> (repeat' split) <;> simp

@[simp ↓] theorem dataComplete_keeps (s : State) (k : Cmd) (asn check : Nat) : Keeps s (dataComplete s k asn check) := by
  unfold dataComplete; simp

@[simp ↓] theorem dataStopped_keeps (s : State) (asn status : Nat) : Keeps s (dataStopped s asn status) := by
  unfold dataStopped; simp

@[simp ↓] theorem twinServed_keeps (s : State) (r : RdUnit) : Keeps s (twinServed s r) := by
  unfold twinServed; simp

@[simp ↓] theorem fillRead_keeps (s : State) (k : Cmd) (u : Nat) (content : List Nat) : Keeps s (fillRead s k u content) := by
  unfold fillRead; simp

@[simp ↓] theorem twinAnswer_keeps (s : State) (r : RdUnit) (content : List Nat) : Keeps s (twinAnswer s r content) := by
  unfold twinAnswer; simp

@[simp ↓] theorem keyDiffers_keeps (s : State) (k : Cmd) : Keeps s (keyDiffers s k) := by
  unfold keyDiffers; simp

@[simp ↓] theorem anaChanged_keeps (s : State) : Keeps s (anaChanged s) := by
  unfold anaChanged; simp

@[simp ↓] theorem memberLost_keeps (s : State) (p st : Nat) : Keeps s (memberLost s p st) := by
  unfold memberLost; simp

@[simp ↓] theorem masterGone_keeps (s : State) : Keeps s (masterGone s) := by
  unfold masterGone; simp

@[simp ↓] theorem cascadeLost_keeps (s : State) (port : Nat) : Keeps s (cascadeLost s port) := by
  unfold cascadeLost; simp

@[simp ↓] theorem partsEnded_keeps (s : State) (k : Cmd) : Keeps s (partsEnded s k) := by
  unfold partsEnded; simp

@[simp ↓] theorem removeMember_keeps (s : State) (position : Nat) : Keeps s (removeMember s position) := by
  unfold removeMember; simp

@[simp ↓] theorem withAdmin_keeps (s : State) (a : Adm) (pfOnly : Bool) (f : State → State)
    (h : ∀ s, Keeps s (f s)) : Keeps s (withAdmin s a pfOnly f) := by
  simp only [keeps_iff] at h
  unfold withAdmin; refine ⟨?_, ?_, ?_⟩ <;> (repeat' split) <;> simp [h]

@[simp ↓] theorem endWork_keeps (s : State) (n : Nat) : Keeps s (endWork s n) := by
  unfold endWork; simp

@[simp ↓] theorem increment_keeps (s : State) (n : Nat) : Keeps s (increment s n) := by
  unfold increment; simp

@[simp ↓] theorem clearCtrl_keeps (s : State) (n : Nat) : Keeps s (clearCtrl s n) := by
  unfold clearCtrl; simp

@[simp ↓] theorem resetClose_keeps (s : State) (n : Nat) (te : Bool) : Keeps s (resetClose s n te) := by
  unfold resetClose; simp

@[simp ↓] theorem resetCloseFree_keeps (s : State) (n : Nat) : Keeps s (resetCloseFree s n) := by
  unfold resetCloseFree; simp

@[simp ↓] theorem lensTo_keeps (s : State) (n : Nat) (st : LensSt) : Keeps s (lensTo s n st) := by
  unfold lensTo; simp

@[simp ↓] theorem toError_keeps (s : State) (n : Nat) : Keeps s (toError s n) := by
  unfold toError; simp

@[simp ↓] theorem retestLanes_keeps (s : State) (bad : List Nat) : Keeps s (retestLanes s bad) := by
  unfold retestLanes; simp

@[simp ↓] theorem requestSwap_keeps (s : State) (n : Nat) : Keeps s (requestSwap s n) := by
  unfold requestSwap; simp

@[simp ↓] theorem setPause_keeps (s : State) (n value : Nat) : Keeps s (setPause s n value) := by
  unfold setPause; simp

@[simp ↓] theorem tdAnswer_keeps (s : State) (code : Nat) (words : List Nat) : Keeps s (tdAnswer s code words) := by
  unfold tdAnswer; simp

@[simp ↓] theorem tdError_keeps (s : State) (n : Nat) : Keeps s (tdError s n) := by
  unfold tdError; simp

@[simp ↓] theorem tdRequest_keeps (s : State) (n : Nat) (f : State → State)
    (h : ∀ s, Keeps s (f s)) : Keeps s (tdRequest s n f) := by
  simp only [keeps_iff] at h
  unfold tdRequest; refine ⟨?_, ?_, ?_⟩ <;> (repeat' split) <;> simp [h]

@[simp ↓] theorem runLanes_keeps (s : State) (n : Nat) : Keeps s (runLanes s n) := by
  unfold runLanes; simp

@[simp ↓] theorem takeLane_keeps (s : State) (m : Msg) : Keeps s (takeLane s m) := by
  unfold takeLane; refine ⟨?_, ?_, ?_⟩ <;> simp <;> (repeat' split) <;> simp

@[simp ↓] theorem failKeyed_keeps (s : State) (k : Cmd) : Keeps s (failKeyed s k) := by
  unfold failKeyed; simp

@[simp ↓] theorem refuseKey_keeps (s : State) (r : CipherReq) : Keeps s (refuseKey s r) := by
  unfold refuseKey; refine ⟨?_, ?_, ?_⟩ <;> simp <;> (repeat' split) <;> simp

@[simp ↓] theorem useKey_keeps (s : State) (p : Nat) (key : Nat × Nat) : Keeps s (useKey s p key) := by
  unfold useKey; simp

@[simp ↓] theorem eraseKeys_keeps (s : State) : Keeps s (eraseKeys s) := by
  unfold eraseKeys; simp

@[simp ↓] theorem alarmWork_keeps (s : State) : Keeps s (alarmWork s) := by
  unfold alarmWork; simp

@[simp ↓] theorem alarmLenses_keeps (s : State) : Keeps s (alarmLenses s) := by
  unfold alarmLenses; simp

@[simp ↓] theorem startRotation_keeps (s : State) (nsid : Nat) : Keeps s (startRotation s nsid) := by
  unfold startRotation; refine ⟨?_, ?_, ?_⟩ <;> (repeat' split) <;> simp

@[simp ↓] theorem fwStore_keeps (s : State) (a : Adm) (slot : Nat) (f : ImageFacts) (choose : Bool) :
    Keeps s (fwStore s a slot f choose) := by
  refine withAdmin_keeps _ _ _ _ fun t => ?_
  (repeat' split) <;> simp

theorem raiseMin_clears (s : State) (v : Nat) : Clears s (raiseMin s v) := by
  unfold raiseMin; split
  · (refine Keeps.clears ?_; simp; done)
  · exact ⟨rfl, .inl rfl, by dsimp only; omega⟩

@[simp ↓] theorem spdmOut_keeps (s : State) (b code : Nat) (words : List Nat) : Keeps s (spdmOut s b code words) := by
  unfold spdmOut; simp

@[simp ↓] theorem spdmError_keeps (s : State) (b code : Nat) : Keeps s (spdmError s b code) := by
  unfold spdmError; simp

@[simp ↓] theorem withSpdm_keeps (s : State) (f : State → State)
    (h : ∀ s, Keeps s (f s)) : Keeps s (withSpdm s f) := by
  simp only [keeps_iff] at h
  unfold withSpdm; refine ⟨?_, ?_, ?_⟩ <;> (repeat' split) <;> simp [h]

end Sys2Proof.Machine
end

