-- ==== Sys2Proof/Laws/FrameRest.lean ====
section
/-! SUPPORT. Frame lemmas of DRAM, the pools, the loop engines, power, boot, the dictionary, commits, administration and links. -/

namespace Sys2Proof.Machine

open Sys2Proof

set_option maxRecDepth 4000

/-- What any operation may do: the queue stays, DRAM memory stays in canonical form, and the minimum security version
does not fall. -/
abbrev Moves (s t : State) : Prop :=
  t.pending = s.pending ∧ (kvWf 0 s.dram.mem → kvWf 0 t.dram.mem) ∧ s.ciph.otpMin ≤ t.ciph.otpMin

theorem Clears.moves {s t : State} (h : Clears s t) : Moves s t := by
  refine ⟨h.1, fun w => ?_, h.2.2⟩
  rcases h.2.1 with e | e
  · rw [e]; exact w
  · rw [e]; exact ⟨List.Pairwise.nil, by simp⟩

theorem Moves.trans {s t u : State} (h : Moves s t) (k : Moves t u) : Moves s u :=
  ⟨k.1.trans h.1, fun w => k.2.1 (h.2.1 w), h.2.2.trans k.2.2⟩

theorem foldl_clears {α : Type} (l : List α) (f : State → α → State) (h : ∀ s a, Clears s (f s a)) (s : State) :
    Clears s (l.foldl f s) := by
  induction l generalizing s with
  | nil => exact Keeps.clears (by simp)
  | cons a t ih => exact (h s a).trans (ih _)

theorem initBlock_moves (s : State) (b : Nat) : Moves s (initBlock s b) := by
  unfold initBlock; split
  · exact ⟨rfl, id, le_rfl⟩
  · exact ⟨rfl, kvWf_filter _ _ _, le_rfl⟩

@[simp ↓] theorem writeReg_keeps (s : State) (n off v : Nat) : Keeps s (writeReg s n off v) := by
  unfold writeReg; simp

@[simp ↓] theorem noteWritten_keeps (s : State) (a len : Nat) : Keeps s (noteWritten s a len) := by
  unfold noteWritten; refine ⟨?_, ?_, ?_⟩ <;> (repeat' split) <;> simp

@[simp ↓] theorem removeBuffers_keeps (s : State) (a : Nat) : Keeps s (removeBuffers s a) := by
  unfold removeBuffers; simp

theorem spareFrame_clears (s : State) : Clears s (spareFrame s) := by
  unfold spareFrame; (repeat' split)
  · (refine Keeps.clears ?_; simp; done)
  · (refine Keeps.clears ?_; simp; done)
  · (refine (Keeps.clears ?_).trans (raise_clears _ _ _); simp; done)

theorem withdraw_clears (s : State) (a : Nat) : Clears s (withdraw s a) := by
  unfold withdraw; dsimp only; (repeat' split) <;> first
    | (refine Keeps.clears ?_; simp; done)
    | (refine (Keeps.clears ?_).trans (spareFrame_clears _); simp; done)

@[simp ↓] theorem disturbWatch_keeps (s : State) (l : DLoc) : Keeps s (disturbWatch s l) := by
  unfold disturbWatch; simp

theorem pathCorrected_clears (s : State) (a : Nat) (l : DLoc) (second : Bool) : Clears s (pathCorrected s a l second) := by
  unfold pathCorrected; dsimp only; (repeat' split) <;> first
    | (refine Keeps.clears ?_; simp; done)
    | exact withdraw_clears _ _
    | (refine (Keeps.clears ?_).trans (withdraw_clears _ _); simp; done)

theorem heldOutcome_clears (s : State) (h : Held) : Clears s (heldOutcome s h) := by
  unfold heldOutcome; dsimp only; (repeat' split) <;> first
    | (refine Keeps.clears ?_; simp; done)
    | (refine (Keeps.clears ?_).trans (raise_clears _ _ _); simp; done)

theorem pathUncorrectable_clears (s : State) (a : Nat) (h : Held) : Clears s (pathUncorrectable s a h) := by
  unfold pathUncorrectable
  exact (Keeps.clears (by simp)).trans ((withdraw_clears _ _).trans (heldOutcome_clears _ _))

theorem Keeps.moves {s t : State} (h : Keeps s t) : Moves s t := h.clears.moves

theorem dramServe_moves (s : State) (r : DramReq) (p : PathRes) : Moves s (dramServe s r p) := by
  have h0 := initBlock_moves s (r.address / 65536)
  have put : ∀ t : State, Moves s t → Moves s (match r.write with
      | some w => noteWritten { t with dram.mem := kvPutRun 0 r.address (w.take (64 - r.address % 64)) t.dram.mem } r.address
          (w.take (64 - r.address % 64)).length
      | none => { t with dram.delivered := some (r.req.port, r.req.id, deliver t r.req.port r.address) }) := by
    intro t ht; refine ht.trans ?_; split
    · refine Moves.trans ?_ (Keeps.moves (noteWritten_keeps _ _ _))
      exact ⟨rfl, kvWf_putRun _ _ _ _, le_rfl⟩
    · exact Keeps.moves ⟨rfl, rfl, rfl⟩
  have hb : ∀ t a i n v, Moves s t → Moves s (odBump (setDchan t a i) n v a) :=
    fun t a i n v ht => ht.trans (Keeps.moves (by simp))
  have hc := hb _ (dramLoc s.dram.ranks r.address).chan { afterAccess (od (initBlock s (r.address / 65536)) 0x9000 0x04)
    (useBurst (openRow (dchan (initBlock s (r.address / 65536)) (dramLoc s.dram.ranks r.address).chan)
      (dramLoc s.dram.ranks r.address).bankNo (dramLoc s.dram.ranks r.address).row) (dramLoc s.dram.ranks r.address))
    (dramLoc s.dram.ranks r.address) with state := 0 } 0x9010 0x08 h0
  unfold dramServe; dsimp only
  split
  · exact put _ hc
  · cases p with
    | clean => exact put _ hc
    | corrected x => exact (put _ hc).trans (pathCorrected_clears _ _ _ _).moves
    | uncorrectable x => exact hc.trans (pathUncorrectable_clears _ _ _).moves

@[simp ↓] theorem retrainDone_keeps (s : State) (ch : Nat) : Keeps s (retrainDone s ch) := by
  unfold retrainDone; simp

@[simp ↓] theorem removeStaging_keeps (s : State) (a len : Nat) : Keeps s (removeStaging s a len) := by
  unfold removeStaging; simp

@[simp ↓] theorem buildPools_keeps (s : State) : Keeps s (buildPools s) := by
  unfold buildPools; simp

@[simp ↓] theorem updatePool_keeps (s : State) (p : Nat) : Keeps s (updatePool s p) := by
  unfold updatePool; simp

@[simp ↓] theorem poolWait_keeps (s : State) (p : Nat) (rs : List Req) : Keeps s (poolWait s p rs) := by
  unfold poolWait; simp

@[simp ↓] theorem poolGrant_keeps (s : State) (p : Nat) (r : Req) (linkOk : Bool) : Keeps s (poolGrant s p r linkOk) := by
  unfold poolGrant; refine ⟨?_, ?_, ?_⟩ <;> simp <;> (repeat' split) <;> simp

@[simp ↓] theorem engineFault_keeps (s : State) (k cause : Nat) : Keeps s (engineFault s k cause) := by
  unfold engineFault; simp

@[simp ↓] theorem loopStep_keeps (s : State) (k op : Nat) (w : Word32) (body : State → Engine → State)
    (h : ∀ s c, Keeps s (body s c)) : Keeps s (loopStep s k op w body) := by
  simp only [keeps_iff] at h
  unfold loopStep; refine ⟨?_, ?_, ?_⟩ <;> (repeat' split) <;> simp [h]

@[simp ↓] theorem loopAcc_keeps (k op : Nat) (w : Word32) (s : State) (f : Engine → Int) : Keeps s (loopAcc k op w s f) := by
  unfold loopAcc; simp

@[simp ↓] theorem loopWord_keeps (k op : Nat) (w : Word32) (s : State) (f : Engine → Int) : Keeps s (loopWord k op w s f) := by
  unfold loopWord; simp

@[simp ↓] theorem loopOutputs_keeps (s : State) (k : Nat) (e : Engine) : Keeps s (loopOutputs s k e) := by
  unfold loopOutputs; simp

@[simp ↓] theorem loadLoop_keeps (s : State) (k v : Nat) : Keeps s (loadLoop s k v) := by
  unfold loadLoop; simp

@[simp ↓] theorem latch_keeps (s : State) (k : Nat) : Keeps s (latch s k) := by
  unfold latch; simp

@[simp ↓] theorem startRun_keeps (s : State) (k : Nat) : Keeps s (startRun s k) := by
  unfold startRun; simp

@[simp ↓] theorem swapProgram_keeps (s : State) (k : Nat) : Keeps s (swapProgram s k) := by
  unfold swapProgram; refine ⟨?_, ?_, ?_⟩ <;> (repeat' split) <;> simp

@[simp ↓] theorem overrun_keeps (s : State) (k : Nat) : Keeps s (overrun s k) := by
  unfold overrun; simp

@[simp ↓] theorem returnEngine_keeps (s : State) (k : Nat) : Keeps s (returnEngine s k) := by
  unfold returnEngine; simp

@[simp ↓] theorem setWindow_keeps (s : State) (lo hi : Nat) : Keeps s (setWindow s lo hi) := by
  unfold setWindow; simp

@[simp ↓] theorem enterSleep_keeps (s : State) : Keeps s (enterSleep s) := by
  unfold enterSleep; simp

@[simp ↓] theorem rollBack_keeps (s : State) (b holdOff : Nat) : Keeps s (rollBack s b holdOff) := by
  unfold rollBack; simp

@[simp ↓] theorem fallAsleep_keeps (s : State) (level : Nat) : Keeps s (fallAsleep s level) := by
  unfold fallAsleep; simp

@[simp ↓] theorem blockAnswers_keeps (s : State) (agrees : Bool) (ftl : Nat) : Keeps s (blockAnswers s agrees ftl) := by
  unfold blockAnswers; refine ⟨?_, ?_, ?_⟩ <;> simp <;> (repeat' split) <;> simp

@[simp ↓] theorem clearDeep_keeps (event : Nat) (s : State) : Keeps s (clearDeep event s) := by
  unfold clearDeep; simp

theorem wakeRetained_clears (s : State) (crcOk : Bool) : Clears s (wakeRetained s crcOk) := by
  unfold wakeRetained; dsimp only; (repeat' split) <;> first
    | (refine Keeps.clears ?_; simp; done)
    | exact raise_clears _ _ _
    | (refine (Keeps.clears ?_).trans (raise_clears _ _ _); simp; done)

@[simp ↓] theorem requestSleep_keeps (s : State) (level : Nat) : Keeps s (requestSleep s level) := by
  unfold requestSleep; refine ⟨?_, ?_, ?_⟩ <;> (repeat' split) <;> simp

@[simp ↓] theorem takeInput_keeps (s : State) (i sum : Nat) : Keeps s (takeInput s i sum) := by
  unfold takeInput; simp

@[simp ↓] theorem setCap_keeps (s : State) (pcapA : Nat) : Keeps s (setCap s pcapA) := by
  unfold setCap; simp

@[simp ↓] theorem heatWarning_keeps (s : State) : Keeps s (heatWarning s) := by
  unfold heatWarning; simp

@[simp ↓] theorem heatCritical_keeps (s : State) : Keeps s (heatCritical s) := by
  unfold heatCritical; simp

@[simp ↓] theorem outOfBand_keeps (s : State) : Keeps s (outOfBand s) := by
  unfold outOfBand; simp

@[simp ↓] theorem releaseSource_keeps (s : State) (b : Nat) : Keeps s (releaseSource s b) := by
  unfold releaseSource; simp

@[simp ↓] theorem bootHalt_keeps (s : State) (stage : Nat) : Keeps s (bootHalt s stage) := by
  unfold bootHalt; simp

@[simp ↓] theorem partitionOut_keeps (s : State) (p : Nat) : Keeps s (partitionOut s p) := by
  unfold partitionOut; refine ⟨?_, ?_, ?_⟩ <;> (repeat' split) <;> simp

@[simp ↓] theorem readSlots_keeps (s : State) (f : BootFacts) : Keeps s (readSlots s f) := by
  unfold readSlots; simp

@[simp ↓] theorem trainDram_keeps (s : State) (f : BootFacts) : Keeps s (trainDram s f) := by
  unfold trainDram; simp

@[simp ↓] theorem bootDieOut_keeps (s : State) (d : Nat) : Keeps s (bootDieOut s d) := by
  unfold bootDieOut; simp

@[simp ↓] theorem readQuad_keeps (s : State) (q mv : Nat) : Keeps s (readQuad s q mv) := by
  unfold readQuad; refine ⟨?_, ?_, ?_⟩ <;> (repeat' split) <;> simp

@[simp ↓] theorem readPage_keeps (mvs : List Nat) (s : State) (p : ParamPage) : Keeps s (readPage mvs s p) := by
  unfold readPage; refine ⟨?_, ?_, ?_⟩ <;> (repeat' split) <;> simp

@[simp ↓] theorem factoryDefaults_keeps (s : State) : Keeps s (factoryDefaults s) := by
  unfold factoryDefaults; simp

@[simp ↓] theorem bootLoop_keeps (s : State) (k : Nat) : Keeps s (bootLoop s k) := by
  unfold bootLoop; simp

@[simp ↓] theorem measureBoot_keeps (s : State) (f : BootFacts) : Keeps s (measureBoot s f) := by
  unfold measureBoot; simp

@[simp ↓] theorem stage1Run_keeps (s : State) (f : BootFacts) (slot : Nat) : Keeps s (stage1Run s f slot) := by
  unfold stage1Run; simp

@[simp ↓] theorem measureSealed_keeps (s : State) : Keeps s (measureSealed s) := by
  unfold measureSealed; simp

@[simp ↓] theorem stage2Run_keeps (s : State) (f : SealFacts) : Keeps s (stage2Run s f) := by
  unfold stage2Run; simp

@[simp ↓] theorem blockReset_keeps (s : State) (kind i : Nat) : Keeps s (blockReset s kind i) := by
  unfold blockReset; refine ⟨?_, ?_, ?_⟩ <;> (repeat' split) <;> simp

@[simp ↓] theorem blockResetIf_keeps (s : State) (kind i : Nat) : Keeps s (blockResetIf s kind i) := by
  unfold blockResetIf; simp

@[simp ↓] theorem clearFailures_keeps (s : State) : Keeps s (clearFailures s) := by
  unfold clearFailures; simp

@[simp ↓] theorem startLogic_keeps (s : State) : Keeps s (startLogic s) := by
  unfold startLogic; simp

@[simp ↓] theorem startPass_keeps (s : State) : Keeps s (startPass s) := by
  unfold startPass; simp

@[simp ↓] theorem segReturn_keeps (s : State) (seg : Nat) : Keeps s (segReturn s seg) := by
  unfold segReturn; simp

@[simp ↓] theorem partitionDone_keeps (s : State) (p : Nat) (ok : Bool) : Keeps s (partitionDone s p ok) := by
  unfold partitionDone; simp

@[simp ↓] theorem testEnds_keeps (s : State) (code segment : Nat) : Keeps s (testEnds s code segment) := by
  unfold testEnds; simp

@[simp ↓] theorem vectorsDone_keeps (s : State) : Keeps s (vectorsDone s) := by
  unfold vectorsDone; simp

@[simp ↓] theorem passEnds_keeps (s : State) : Keeps s (passEnds s) := by
  unfold passEnds; simp

@[simp ↓] theorem selfTest_keeps (s : State) (a : Adm) (code : Nat) (failedLanes : List Nat) : Keeps s (selfTest s a code failedLanes) := by
  unfold selfTest; simp

@[simp ↓] theorem releaseAlert_keeps (s : State) : Keeps s (releaseAlert s) := by
  unfold releaseAlert; simp

@[simp ↓] theorem answer_keeps (s : State) (who : Requester) (r : OdReq) (status : Nat) (length value : Nat) : Keeps s (answer s who r status length value) := by
  unfold answer; refine ⟨?_, ?_, ?_⟩ <;> (repeat' split) <;> simp

@[simp ↓] theorem dictDone_keeps (s : State) (a : Adm) (status dw0 dw1 : Nat) (payload : Payload) (bytes : Nat) : Keeps s (dictDone s a status dw0 dw1 payload bytes) := by
  unfold dictDone; simp

@[simp ↓] theorem setStaging_keeps (s : State) (t : Staging) : Keeps s (setStaging s t) := by
  unfold setStaging; simp

@[simp ↓] theorem readOd_keeps (s : State) (who : Requester) (r : OdReq) (staged : Bool) : Keeps s (readOd s who r staged).1 := by
  unfold readOd; refine ⟨?_, ?_, ?_⟩ <;> simp <;> (repeat' split) <;> simp

@[simp ↓] theorem describeOd_keeps (s : State) (who : Requester) (r : OdReq) : Keeps s (describeOd s who r).1 := by
  unfold describeOd; refine ⟨?_, ?_, ?_⟩ <;> simp <;> (repeat' split) <;> simp

@[simp ↓] theorem relay_keeps (s : State) (who : Requester) (port : Nat) (o : DictOp) : Keeps s (relay s who port o) := by
  unfold relay; simp

@[simp ↓] theorem stageWrite_keeps (s : State) (who : Requester) (r : OdReq) (v : Nat) (secured : Bool) : Keeps s (stageWrite s who r v secured).1 := by
  unfold stageWrite; refine ⟨?_, ?_, ?_⟩ <;> (repeat' split) <;> simp

@[simp ↓] theorem discardSet_keeps (s : State) (who : Requester) (secured : Bool) : Keeps s (discardSet s who secured).1 := by
  unfold discardSet; refine ⟨?_, ?_, ?_⟩ <;> (repeat' split) <;> simp

theorem dictRequest_keeps (s : State) (who : Requester) (o : DictOp) (a : Option Adm)
    (serve : State → State × Nat × Nat × Nat) (h : ∀ s, Keeps s (serve s).1) : Keeps s (dictRequest s who o a serve) := by
  have k := h s
  unfold dictRequest; refine ⟨?_, ?_, ?_⟩ <;> (dsimp only; (repeat' split) <;> simp [k])

@[simp ↓] theorem putEntries_keeps (s : State) (es : List Staged) : Keeps s (putEntries s es) := by
  unfold putEntries; simp

@[simp ↓] theorem candidate_keeps (s : State) (es : List Staged) : Keeps s (candidate s es) := by
  unfold candidate; refine ⟨?_, ?_, ?_⟩ <;> simp <;> (repeat' split) <;> simp

@[simp ↓] theorem ahead_keeps (s : State) : Keeps s (ahead s) := by
  unfold ahead; simp

@[simp ↓] theorem refusalEvents_keeps (s c : State) (es : List Staged) : Keeps s (refusalEvents s c es) := by
  unfold refusalEvents; refine ⟨?_, ?_, ?_⟩ <;> (try simp) <;> (repeat' split) <;> simp

@[simp ↓] theorem dieReturn_keeps (s : State) (d : Nat) : Keeps s (dieReturn s d) := by
  unfold dieReturn; simp

@[simp ↓] theorem channelReturn_keeps (s : State) (ch : Nat) : Keeps s (channelReturn s ch) := by
  unfold channelReturn; simp

@[simp ↓] theorem pairAttach_keeps (s : State) : Keeps s (pairAttach s) := by
  unfold pairAttach; simp

@[simp ↓] theorem pairDetach_keeps (s : State) : Keeps s (pairDetach s) := by
  unfold pairDetach; simp

@[simp ↓] theorem startHandover_keeps (s : State) : Keeps s (startHandover s) := by
  unfold startHandover; simp

theorem discardHistory_clears (s : State) : Clears s (discardHistory s) := by
  unfold discardHistory
  have h : ∀ t, Keeps s t → Clears s (if t.pair.linkUp then meetAsFollower t (od t 0x5000 0x04) false else t) := by
    intro t ht; split
    · exact ht.clears.trans (meetAsFollower_clears _ _ _)
    · exact ht.clears
  exact h _ (by simp)

theorem clearPair_clears (s : State) : Clears s (clearPair s) := by
  unfold clearPair; dsimp only
  (refine (Keeps.clears ?_).trans (endBootWait_clears _); simp; done)

theorem pairControl_clears (s : State) (v : Nat) : Clears s (pairControl s v) := by
  unfold pairControl; (repeat' split) <;> first
    | (refine Keeps.clears ?_; simp; done)
    | exact discardHistory_clears _
    | (refine (Keeps.clears ?_).trans (discardHistory_clears _); simp; done)
    | exact clearPair_clears _
    | (refine (Keeps.clears ?_).trans (clearPair_clears _); simp; done)

@[simp ↓] theorem freshLog_keeps (s : State) (l : Nat) : Keeps s (freshLog s l) := by
  unfold freshLog; simp

@[simp ↓] theorem designate_keeps (s : State) (g v : Nat) : Keeps s (designate s g v) := by
  unfold designate; simp

theorem startOf_clears (before s : State) (obj elem inst v : Nat) : Clears s (startOf before s obj elem inst v) := by
  unfold startOf; (repeat' split) <;> first
    | (refine Keeps.clears ?_; simp; done)
    | exact pairControl_clears _ _
    | (refine (Keeps.clears ?_).trans (pairControl_clears _ _); simp; done)
    | exact raiseMin_clears _ _
    | (refine (Keeps.clears ?_).trans (raiseMin_clears _ _); simp; done)

@[simp ↓] theorem settleValues_keeps (s : State) : Keeps s (settleValues s) := by
  unfold settleValues; simp

theorem applyEntries_clears (s : State) (es : List Staged) : Clears s (applyEntries s es) := by
  unfold applyEntries; dsimp only
  have h : ∀ t, Clears s t → Clears s (settleValues t) := fun t ht => ht.trans (Keeps.clears (by simp))
  have g : ∀ t v m, Clears s t → Clears s (startLoad t v m) := fun t v m ht => ht.trans (Keeps.clears (by simp))
  have k : ∀ t v m, Clears s t → Clears s (setGeometry t v m) := fun t v m ht => ht.trans (Keeps.clears (by simp))
  have f : ∀ l : List (Staged × Nat), ∀ t, Keeps s t → Clears s (l.foldl (fun (t : State) (p : Staged × Nat) =>
      startOf s t (keyObj p.1.key) (keyElem p.1.key) (keyInst p.1.key) p.2) t) :=
    fun l t ht => ht.clears.trans (foldl_clears l _ (fun _ _ => startOf_clears _ _ _ _ _ _) t)
  apply h; split
  · apply g; split
    · exact k _ _ _ (f _ _ (by simp))
    · exact f _ _ (by simp)
  · exact f _ _ (by simp)

@[simp ↓] theorem saveKeys_keeps (s : State) (l : List (Nat × Nat)) : Keeps s (saveKeys s l) := by
  unfold saveKeys; simp

@[simp ↓] theorem dropWaiting_keeps (s : State) (keys : List Nat) : Keeps s (dropWaiting s keys) := by
  unfold dropWaiting; simp

@[simp ↓] theorem twinAhead_keeps (s : State) : Keeps s (twinAhead s) := ⟨rfl, rfl, rfl⟩

theorem twinCommit_clears (s : State) (q : CommitReq) (es : List Staged) : Clears s ((twinCommit s q es).1) := by
  unfold twinCommit; dsimp only
  have g : ∀ t a b, Clears s t → Clears s (odBump t a b) := fun t a b ht => ht.trans (Keeps.clears (by simp))
  have d : ∀ t w, Clears s t → Clears s (dropSet t w) := fun t w ht => ht.trans (Keeps.clears (by simp))
  refine g _ _ _ (d _ _ ((Keeps.clears ?_).trans (applyEntries_clears _ _)))
  split <;> exact ⟨rfl, rfl, rfl⟩

@[simp ↓] theorem sendSet_keeps (s : State) (port rank : Nat) (es : List Staged) : Keeps s (sendSet s port rank es) := by
  unfold sendSet; simp

theorem commitOne_clears (s : State) (q : CommitReq) : Clears s ((commitOne s q).1) := by
  unfold commitOne; dsimp only
  have h : ∀ t e, Keeps s t → Clears s (applyEntries t e) := fun t e ht => ht.clears.trans (applyEntries_clears _ _)
  have g : ∀ t a b, Clears s t → Clears s (odBump t a b) := fun t a b ht => ht.trans (Keeps.clears (by simp))
  have d : ∀ t w, Clears s t → Clears s (dropSet t w) := fun t w ht => ht.trans (Keeps.clears (by simp))
  have f : ∀ t c w l, Clears s t → Clears s (sendSet t c w l) := fun t c w l ht => ht.trans (Keeps.clears (by simp))
  split
  · exact Keeps.clears (by simp)
  split
  · exact Keeps.clears (by simp)
  split
  · split <;> exact Keeps.clears (by simp)
  split
  · (repeat' split) <;> exact Keeps.clears (by simp)
  split
  · exact Keeps.clears (by simp)
  split
  · exact Keeps.clears (by simp)
  split
  · exact Keeps.clears (by simp)
  split
  · exact twinCommit_clears _ _ _
  split
  · exact Keeps.clears (by simp)
  · apply g; apply d; split
    · exact f _ _ _ _ (h _ _ (by simp))
    · exact h _ _ (by simp)

@[simp ↓] theorem commitAnswer_keeps (s : State) (who : Requester) (status : Nat) (sup : List Nat) : Keeps s (commitAnswer s who status sup) := by
  unfold commitAnswer; simp

@[simp ↓] theorem keepAnswer_keeps (s : State) (t : Taken) (sup : List Nat) (count : Nat) (rest : List DictOp) : Keeps s (keepAnswer s t sup count rest) := by
  unfold keepAnswer; simp

@[simp ↓] theorem listDone_keeps (s : State) (q : CommitReq) (count status obj : Nat) : Keeps s (listDone s q count status obj) := by
  unfold listDone; refine ⟨?_, ?_, ?_⟩ <;> (repeat' split) <;> simp

@[simp ↓] theorem contractDone_keeps (s : State) (q : CommitReq) (obj : Nat) : Keeps s (contractDone s q obj) := by
  unfold contractDone; refine ⟨?_, ?_, ?_⟩ <;> (repeat' split) <;> simp

theorem runList_clears (q : CommitReq) (l : List DictOp) (n : Nat) (s : State) : Clears s (runList q l n s) := by
  induction l generalizing n s with
  | nil => exact Keeps.clears (by unfold runList; simp)
  | cons o rest ih =>
    have k : ∀ t st r, Clears s t → Clears s (if st = 0 then runList q rest (n + 1) t else listDone t q n st r) := by
      intro t st r ht; split
      · exact ht.trans (ih _ _)
      · exact ht.trans (Keeps.clears (by simp))
    have c : ∀ t w st l, Clears s t → Clears s (commitAnswer t w st l) := fun t w st l ht => ht.trans (Keeps.clears (by simp))
    have d : ∀ t o, Clears s t → Clears s (contractDone t q o) := fun t o ht => ht.trans (Keeps.clears (by simp))
    have a : ∀ t x u n l, Clears s t → Clears s (keepAnswer t x u n l) :=
      fun t x u n l ht => ht.trans (Keeps.clears (by simp))
    unfold runList; dsimp only
    split
    · exact k _ _ _ (Keeps.clears (by simp))
    split
    · exact k _ _ _ (Keeps.clears (by simp))
    split
    · exact k _ _ _ (Keeps.clears (by simp))
    · exact k _ _ _ (Keeps.clears (by simp))
    · exact k _ _ _ (Keeps.clears (by simp))
    · split
      · exact k _ _ _ (Keeps.clears (by simp))
      · exact k _ _ _ (Keeps.clears (by simp))
      · exact k _ _ _ (Keeps.clears (by simp))
      · exact k _ _ _ (Keeps.clears (by simp))
      · split
        · have g := commitOne_clears s q
          split
          · exact d _ _ (c _ _ _ _ g)
          split
          · exact a _ _ _ _ _ g
          · split
            · exact (k _ _ _ (c _ _ _ _ g)).trans (raise_clears _ _ _)
            · exact k _ _ _ (c _ _ _ _ g)
        split
        · exact k _ _ _ (Keeps.clears (by simp))
        · exact k _ _ _ (Keeps.clears (by simp))

@[simp ↓] theorem groupOrder_keeps (s : State) (n : Nat) (l : List CommitReq) : Keeps s (groupOrder s n l).1 := by
  induction n generalizing s l with
  | zero => exact ⟨rfl, rfl, rfl⟩
  | succ n ih =>
    simp only [keeps_iff] at ih
    unfold groupOrder; refine ⟨?_, ?_, ?_⟩ <;> dsimp only <;> (repeat' split) <;> first | rfl | (simp [ih]; done)

@[simp ↓] theorem answerGroup_keeps (l : List Taken) (s : State) : Keeps s (answerGroup l s) := by
  induction l generalizing s with
  | nil => exact ⟨rfl, rfl, rfl⟩
  | cons t later ih =>
    simp only [keeps_iff] at ih
    unfold answerGroup; refine ⟨?_, ?_, ?_⟩ <;> ((try simp [ih]) <;> (repeat' split) <;> (try simp [ih]))

theorem commitEpoch_clears (s : State) (a : Answering) : Clears s (commitEpoch s a) := by
  unfold commitEpoch; dsimp only
  have h : ∀ t e, Keeps s t → Clears s (applyEntries t e) := fun t e ht => ht.clears.trans (applyEntries_clears _ _)
  have g : ∀ t a b, Clears s t → Clears s (odBump t a b) := fun t a b ht => ht.trans (Keeps.clears (by simp))
  have o : ∀ t a b c v, Clears s t → Clears s (odSave t a b c v) := fun t a b c v ht => ht.trans (Keeps.clears (by simp))
  have e : ∀ t, Clears s t → Clears s (epochRecord t) := fun t ht => ht.trans (Keeps.clears (by simp))
  have r : ∀ b t, Clears s t → Clears s (reformat b t) := fun b t ht => ht.trans (Keeps.clears (by simp))
  have l : ∀ b t, Clears s t → Clears s (leavePreserve b t) := fun b t ht => ht.trans (Keeps.clears (by simp))
  apply g; apply l; apply r; apply e; apply o; apply h
  split <;> simp

theorem pairWrite_clears (s : State) (v : Nat) : Clears s (pairWrite s v) := by
  unfold pairWrite; (repeat' split) <;> first
    | (refine Keeps.clears ?_; simp; done)
    | exact pairControl_clears _ _
    | (refine (Keeps.clears ?_).trans (pairControl_clears _ _); simp; done)

@[simp ↓] theorem admCmd_keeps (s : State) (a : Adm) (code nsid : Nat) (st : Stage) : Keeps s (admCmd s a code nsid st).1 := by
  unfold admCmd; simp

@[simp ↓] theorem forwardAdmin_keeps (s : State) (k : Cmd) (pos : Nat) (body : List Nat) : Keeps s (forwardAdmin s k pos body) := by
  unfold forwardAdmin; simp

@[simp ↓] theorem askLead_keeps (s : State) (a : Adm) (code nsid : Nat) (body : List Nat) : Keeps s (askLead s a code nsid body) := by
  unfold askLead; simp

@[simp ↓] theorem leadAnswer_keeps (s : State) (code status dw0 : Nat) : Keeps s (leadAnswer s code status dw0) := by
  unfold leadAnswer; refine ⟨?_, ?_, ?_⟩ <;> (repeat' split) <;> simp

@[simp ↓] theorem answerMaster_keeps (s : State) (tag status : Nat) : Keeps s (answerMaster s tag status) := by
  unfold answerMaster; simp

@[simp ↓] theorem refuseAdmin_keeps (s : State) (a : Adm) (st : Nat) : Keeps s (refuseAdmin s a st) := by
  unfold refuseAdmin; simp

@[simp ↓] theorem ensureRoot_keeps (s : State) : Keeps s (ensureRoot s) := by
  unfold ensureRoot; simp

@[simp ↓] theorem addNs_keeps (s : State) (c : CreateReq) (nsid : Nat) (rows : List Nat) (idx : List Nat) (extents : List (Nat × Nat × Nat)) : Keeps s (addNs s c nsid rows idx extents) := by
  unfold addNs; simp

@[simp ↓] theorem createNs_keeps (s : State) (c : CreateReq) (reservedZero : Bool) (memberFree : List Nat) (a : Option Adm) : Keeps s (createNs s c reservedZero memberFree a) := by
  unfold createNs; refine ⟨?_, ?_, ?_⟩ <;> simp <;> (repeat' split) <;> simp

@[simp ↓] theorem takeNs_keeps (s : State) (d : NsDesc) : Keeps s (takeNs s d) := by
  unfold takeNs; simp

@[simp ↓] theorem takeExtent_keeps (s : State) (c : CreateReq) (tag first count nsid : Nat) : Keeps s (takeExtent s c tag first count nsid) := by
  unfold takeExtent; refine ⟨?_, ?_, ?_⟩ <;> simp <;> (repeat' split) <;> simp

@[simp ↓] theorem endWaiting_keeps (s : State) (c : Cmd) (st : Nat) : Keeps s (endWaiting s c st) := by
  unfold endWaiting; simp

@[simp ↓] theorem beginEnd_keeps (s : State) (n : Ns) (e : NsEnd) (k : Option Cmd) (body : List Nat) : Keeps s (beginEnd s n e k body) := by
  unfold beginEnd; refine ⟨?_, ?_, ?_⟩ <;> (repeat' split) <;> simp

@[simp ↓] theorem endNs_keeps (src : AdmSrc) (nsid : Nat) (e : NsEnd) (s : State) : Keeps s (endNs src nsid e s) := by
  cases src with
  | host a =>
    refine withAdmin_keeps _ _ _ _ fun t => ?_
    split
    · simp
    split
    · exact askLead_keeps _ _ _ _ _
    dsimp only; split
    · simp
    · have h := admCmd_keeps t a (if e.delete then codeDelete else codeFormat) nsid .ending
      rcases hk : admCmd t a (if e.delete then codeDelete else codeFormat) nsid .ending with ⟨u, k⟩
      rw [hk] at h
      dsimp only; simp only [keeps_iff] at h
      simp [h]
  | follower =>
    unfold endNs; dsimp only; split
    · exact ⟨rfl, rfl, rfl⟩
    split
    · simp
    split <;> simp
  | lead st d salts =>
    unfold endNs; dsimp only; split
    · exact ⟨rfl, rfl, rfl⟩
    split
    · simp
    split <;> simp
  | master tag f c n =>
    unfold endNs; dsimp only; split
    · exact ⟨rfl, rfl, rfl⟩
    split
    · simp
    split
    · simp
    · have h := admCmd_keeps s { fn := 0, cid := 0, cqAddr := 0, dptr := 0 } (if e.delete then codeDelete else codeFormat) nsid .ending
      rcases hk : admCmd s { fn := 0, cid := 0, cqAddr := 0, dptr := 0 } (if e.delete then codeDelete else codeFormat) nsid .ending
        with ⟨u, k⟩
      rw [hk] at h
      dsimp only; simp only [keeps_iff] at h
      simp [h]

@[simp ↓] theorem beginSanitize_keeps (s : State) (erase : Bool) : Keeps s (beginSanitize s erase) := by
  unfold beginSanitize; simp

@[simp ↓] theorem sanitize_keeps (src : AdmSrc) (erase : Bool) (s : State) : Keeps s (sanitize src erase s) := by
  unfold sanitize; refine ⟨?_, ?_, ?_⟩ <;> (repeat' split) <;> simp

@[simp ↓] theorem attachAll_keeps (s : State) (nsid : Nat) (fns : List Nat) : Keeps s (attachAll s nsid fns) := by
  unfold attachAll; simp

@[simp ↓] theorem answerLedger_keeps (s : State) (tag : Nat) (p : Nat × Payload) : Keeps s (answerLedger s tag p) := by
  unfold answerLedger; refine ⟨?_, ?_, ?_⟩ <;> (repeat' split) <;> simp

@[simp ↓] theorem pfLog_keeps (s : State) (a : Adm) (st : Nat) (p : Payload) (bytes : Nat) : Keeps s (pfLog s a st p bytes) := by
  unfold pfLog; simp

@[simp ↓] theorem dropEvents_keeps (s : State) (fn etype : Nat) (retain : Bool) : Keeps s (dropEvents s fn etype retain) := by
  unfold dropEvents; simp

@[simp ↓] theorem mctpOut_keeps (s : State) (b kind : Nat) (words : List Nat) : Keeps s (mctpOut s b kind words) := by
  unfold mctpOut; simp

@[simp ↓] theorem mctpControl_keeps (s : State) (b command : Nat) (words : List Nat) : Keeps s (mctpControl s b command words) := by
  unfold mctpControl; simp

@[simp ↓] theorem miPage_keeps (s : State) (b st : Nat) (p : Payload) : Keeps s (miPage s b st p) := by
  unfold miPage; simp

@[simp ↓] theorem assignAddress_keeps (s : State) (bus address : Nat) : Keeps s (assignAddress s bus address) := by
  unfold assignAddress; simp

@[simp ↓] theorem resetBus_keeps (s : State) (bus : Nat) : Keeps s (resetBus s bus) := by
  unfold resetBus; refine ⟨?_, ?_, ?_⟩ <;> (first | (simp; done) | ((try simp) <;> (repeat' split) <;> (try simp)))


end Sys2Proof.Machine
end

