-- ==== Sys2Proof/Laws/FrameExec.lean ====
section
/-! SUPPORT. Every command but the three DRAM accesses answers a next state in every state, with the waiting commands kept, the DRAM bytes kept or lost at a device reset, and the minimum version not lowered. -/

namespace Sys2Proof.Machine

open Sys2Proof

set_option maxRecDepth 4000

/-- The command answers a next state: the waiting commands are kept, the DRAM bytes are kept or lost, and the minimum
security version does not fall. -/
abbrev Runs (s : State) (o : Host.Outcome State Fault Refusal) : Prop := ∃ t, o = .next t ∧ Clears s t

theorem foldl_keeps {α : Type} (l : List α) (f : State → α → State) (h : ∀ s a, Keeps s (f s a)) (s : State) :
    Keeps s (l.foldl f s) := by
  simp only [keeps_iff] at h
  refine ⟨?_, ?_, ?_⟩ <;> simp [h]

theorem execSubmissionQueueDoorbell_runs (fn : Nat) (bell : Doorbell) (s : State) : Runs s (execSubmissionQueueDoorbell fn bell s) := by
  exact ⟨_, rfl, Keeps.clears (by simp)⟩

theorem execSubmissionEntryFetched_runs (op : IoOp) (c : IoCmd) (s : State) : Runs s (execSubmissionEntryFetched op c s) := by
  exact ⟨_, rfl, Keeps.clears (by simp)⟩

theorem execTokenRefill_runs (s : State) : Runs s (execTokenRefill s) := by
  exact ⟨_, rfl, Keeps.clears (by simp)⟩

theorem execLensSubmissionGrant_runs (s : State) : Runs s (execLensSubmissionGrant s) := by
  unfold execLensSubmissionGrant; refine ⟨_, rfl, Keeps.clears ⟨?_, ?_, ?_⟩⟩ <;> (first | (simp; done) | ((try simp) <;> (repeat' split) <;> (try simp)))

theorem execFlush_runs (c : IoCmd) (s : State) : Runs s (execFlush c s) := by
  refine ⟨_, rfl, Keeps.clears (withChecks_keeps _ _ _ _ fun t k => withNs_keeps _ _ _ fun n => ?_)⟩
  split <;> simp

theorem execWrite_runs (c : IoCmd) (s : State) : Runs s (execWrite c s) := by
  exact ⟨_, rfl, Keeps.clears (by simp)⟩

theorem execRead_runs (c : IoCmd) (s : State) : Runs s (execRead c s) := by
  exact ⟨_, rfl, Keeps.clears (by simp)⟩

theorem execCompare_runs (c : IoCmd) (data : List Nat) (s : State) : Runs s (execCompare c data s) := by
  exact ⟨_, rfl, Keeps.clears (by simp)⟩

theorem execWriteZeroes_runs (c : IoCmd) (s : State) : Runs s (execWriteZeroes c s) := by
  exact ⟨_, rfl, Keeps.clears (by simp)⟩

theorem execDatasetManagement_runs (c : IoCmd) (deallocate : Bool) (ranges : List (Nat × Nat)) (s : State) : Runs s (execDatasetManagement c deallocate ranges s) := by
  refine ⟨_, rfl, Keeps.clears (withChecks_keeps _ _ _ _ fun t k => withNs_keeps _ _ _ fun n => ?_)⟩
  (repeat' split) <;> simp

theorem execVerify_runs (c : IoCmd) (s : State) : Runs s (execVerify c s) := by
  exact ⟨_, rfl, Keeps.clears (by simp)⟩

theorem execReservationRegister_runs (c : IoCmd) (action crkey nrkey : Nat) (s : State) : Runs s (execReservationRegister c action crkey nrkey s) := by
  unfold execReservationRegister; refine ⟨_, rfl, Keeps.clears ⟨?_, ?_, ?_⟩⟩ <;> (first | (simp; done) | ((try simp) <;> (repeat' split) <;> (try simp)))

theorem execReservationReport_runs (c : IoCmd) (s : State) : Runs s (execReservationReport c s) := by
  exact ⟨_, rfl, Keeps.clears (by simp)⟩

theorem execReservationAcquire_runs (c : IoCmd) (action crkey prkey rtype : Nat) (s : State) : Runs s (execReservationAcquire c action crkey prkey rtype s) := by
  exact ⟨_, rfl, Keeps.clears (by simp)⟩

theorem execReservationRelease_runs (c : IoCmd) (action crkey rtype : Nat) (s : State) : Runs s (execReservationRelease c action crkey rtype s) := by
  unfold execReservationRelease; refine ⟨_, rfl, Keeps.clears ⟨?_, ?_, ?_⟩⟩ <;> (first | (simp; done) | ((try simp) <;> (repeat' split) <;> (try simp)))

theorem execZoneAppend_runs (c : IoCmd) (s : State) : Runs s (execZoneAppend c s) := by
  exact ⟨_, rfl, Keeps.clears (by simp)⟩

theorem execOpenZone_runs (c : IoCmd) (s : State) : Runs s (execOpenZone c s) := by
  exact ⟨_, rfl, Keeps.clears (by simp)⟩

theorem execCloseZone_runs (c : IoCmd) (s : State) : Runs s (execCloseZone c s) := by
  exact ⟨_, rfl, Keeps.clears (by simp)⟩

theorem execFinishZone_runs (c : IoCmd) (s : State) : Runs s (execFinishZone c s) := by
  exact ⟨_, rfl, Keeps.clears (by simp)⟩

theorem execResetZone_runs (c : IoCmd) (s : State) : Runs s (execResetZone c s) := by
  exact ⟨_, rfl, Keeps.clears (by simp)⟩

theorem execOfflineZone_runs (c : IoCmd) (s : State) : Runs s (execOfflineZone c s) := by
  exact ⟨_, rfl, Keeps.clears (by simp)⟩

theorem execSetZoneDescriptorExtension_runs (c : IoCmd) (s : State) : Runs s (execSetZoneDescriptorExtension c s) := by
  exact ⟨_, rfl, Keeps.clears (by simp)⟩

theorem execReportZones_runs (c : IoCmd) (option : Nat) (part : Bool) (limit : Nat) (s : State) : Runs s (execReportZones c option part limit s) := by
  refine ⟨_, rfl, Keeps.clears (withChecks_keeps _ _ _ _ fun t k => withNs_keeps _ _ _ fun n => ?_)⟩
  (repeat' split) <;> simp

theorem execExtendedReportZones_runs (c : IoCmd) (s : State) : Runs s (execExtendedReportZones c s) := by
  exact ⟨_, rfl, Keeps.clears (by simp)⟩

theorem execUnsupportedIoCommand_runs (c : IoCmd) (opcode : Nat) (s : State) : Runs s (execUnsupportedIoCommand c opcode s) := by
  exact ⟨_, rfl, Keeps.clears (by simp)⟩

theorem execAsnSequencerPick_runs (s : State) : Runs s (execAsnSequencerPick s) := by
  refine ⟨_, rfl, Keeps.clears (withUndo_keeps _ _ fun t => ?_)⟩
  (try dsimp only); (repeat' split) <;> simp

theorem execAdmissionHoldRelease_runs (ringNo row : Nat) (s : State) : Runs s (execAdmissionHoldRelease ringNo row s) := by
  exact ⟨_, rfl, Keeps.clears (by simp)⟩

theorem execWriteDataFetch_runs (id : Nat) (data metadata : List Nat) (staging fifo : PathRes) (s : State) : Runs s (execWriteDataFetch id data metadata staging fifo s) := by
  unfold execWriteDataFetch; refine ⟨_, rfl, Keeps.clears ⟨?_, ?_, ?_⟩⟩ <;> (first | (simp; done) | ((try simp) <;> (repeat' split) <;> (try simp)))

theorem execPostWriteCompletion_runs (id : Nat) (s : State) : Runs s (execPostWriteCompletion id s) := by
  unfold execPostWriteCompletion; refine ⟨_, rfl, Keeps.clears ⟨?_, ?_, ?_⟩⟩ <;> (first | (simp; done) | ((try simp) <;> (repeat' split) <;> (try simp)))

theorem execLedgerRowProgram_runs (s : State) : Runs s (execLedgerRowProgram s) := by
  exact ⟨_, rfl, Keeps.clears (by simp)⟩

theorem execRemapRecordProgram_runs (s : State) : Runs s (execRemapRecordProgram s) := by
  exact ⟨_, rfl, Keeps.clears (by simp)⟩

theorem execJournalPageProgram_runs (s : State) : Runs s (execJournalPageProgram s) := by
  exact ⟨_, rfl, Keeps.clears (by simp)⟩

theorem execCheckpointBegin_runs (s : State) : Runs s (execCheckpointBegin s) := by
  exact ⟨_, rfl, Keeps.clears (by simp)⟩

theorem execCheckpointEnd_runs (s : State) : Runs s (execCheckpointEnd s) := by
  unfold execCheckpointEnd; refine ⟨_, rfl, Keeps.clears ⟨?_, ?_, ?_⟩⟩ <;> (first | (simp; done) | ((try simp) <;> (repeat' split) <;> (try simp)))

theorem execResetStepUnmap_runs (id z : Nat) (s : State) : Runs s (execResetStepUnmap id z s) := by
  unfold execResetStepUnmap; refine ⟨_, rfl, Keeps.clears ⟨?_, ?_, ?_⟩⟩ <;> (first | (simp; done) | ((try simp) <;> (repeat' split) <;> (try simp)))

theorem execDieReadIssue_runs (rid unit : Nat) (remain : List (Nat × Nat)) (s : State) : Runs s (execDieReadIssue rid unit remain s) := by
  unfold execDieReadIssue; refine ⟨_, rfl, Keeps.clears ⟨?_, ?_, ?_⟩⟩ <;> (first | (simp; done) | ((try simp) <;> (repeat' split) <;> (try simp)))

theorem execDieReadDone_runs (rid unit d : Nat) (read : Decoded) (remain : List (Nat × Nat)) (s : State) : Runs s (execDieReadDone rid unit d read remain s) := by
  unfold execDieReadDone; refine ⟨_, rfl, Keeps.clears ⟨?_, ?_, ?_⟩⟩ <;> (first | (simp; done) | ((try simp) <;> (repeat' split) <;> (try simp)))

theorem execReadRetryStep_runs (rid unit : Nat) (t : Tried) (s : State) : Runs s (execReadRetryStep rid unit t s) := by
  unfold execReadRetryStep; refine ⟨_, rfl, Keeps.clears ⟨?_, ?_, ?_⟩⟩ <;> (first | (simp; done) | ((try simp) <;> (repeat' split) <;> (try simp)))

theorem execSoftDecode_runs (rid unit : Nat) (read : Decoded) (s : State) : Runs s (execSoftDecode rid unit read s) := by
  unfold execSoftDecode; refine ⟨_, rfl, Keeps.clears ⟨?_, ?_, ?_⟩⟩ <;> (first | (simp; done) | ((try simp) <;> (repeat' split) <;> (try simp)))

theorem execDieProgramIssue_runs (d : Nat) (p : ProgIssue) (s : State) : Runs s (execDieProgramIssue d p s) := by
  unfold execDieProgramIssue; refine ⟨_, rfl, Keeps.clears ⟨?_, ?_, ?_⟩⟩ <;> (first | (simp; done) | ((try simp) <;> (repeat' split) <;> (try simp)))

theorem execDieProgramReady_runs (d status : Nat) (verifyOk : Bool) (s : State) : Runs s (execDieProgramReady d status verifyOk s) := by
  unfold execDieProgramReady; refine ⟨_, rfl, Keeps.clears ⟨?_, ?_, ?_⟩⟩ <;> (first | (simp; done) | ((try simp) <;> (repeat' split) <;> (try simp)))

theorem execDieEraseIssue_runs (d block : Nat) (s : State) : Runs s (execDieEraseIssue d block s) := by
  exact ⟨_, rfl, Keeps.clears (by simp)⟩

theorem execDieEraseReady_runs (d status : Nat) (s : State) : Runs s (execDieEraseReady d status s) := by
  exact ⟨_, rfl, Keeps.clears (by simp)⟩

theorem execEraseSuspend_runs (d : Nat) (boundary : Bool) (s : State) : Runs s (execEraseSuspend d boundary s) := by
  exact ⟨_, rfl, Keeps.clears (by simp)⟩

theorem execEraseSuspendDone_runs (d status : Nat) (s : State) : Runs s (execEraseSuspendDone d status s) := by
  exact ⟨_, rfl, Keeps.clears (by simp)⟩

theorem execEraseResume_runs (d : Nat) (s : State) : Runs s (execEraseResume d s) := by
  exact ⟨_, rfl, Keeps.clears (by simp)⟩

theorem execWrdyTimeout_runs (d : Nat) (s : State) : Runs s (execWrdyTimeout d s) := by
  exact ⟨_, rfl, Keeps.clears (by simp)⟩

theorem execOperationTimeout_runs (d : Nat) (s : State) : Runs s (execOperationTimeout d s) := by
  exact ⟨_, rfl, Keeps.clears (by simp)⟩

theorem execScriptInstructionLimit_runs (d : Nat) (s : State) : Runs s (execScriptInstructionLimit d s) := by
  exact ⟨_, rfl, Keeps.clears (by simp)⟩

theorem execNop_runs (d : Nat) (w : Word32) (s : State) : Runs s (execNop d w s) := by
  exact ⟨_, rfl, Keeps.clears (by simp)⟩

theorem execCmd_runs (d : Nat) (w : Word32) (s : State) : Runs s (execCmd d w s) := by
  exact ⟨_, rfl, Keeps.clears (by simp)⟩

theorem execAddr_runs (d : Nat) (w : Word32) (s : State) : Runs s (execAddr d w s) := by
  exact ⟨_, rfl, Keeps.clears (by simp)⟩

theorem execDout_runs (d : Nat) (w : Word32) (s : State) : Runs s (execDout d w s) := by
  exact ⟨_, rfl, Keeps.clears (by simp)⟩

theorem execDin_runs (d : Nat) (w : Word32) (s : State) : Runs s (execDin d w s) := by
  exact ⟨_, rfl, Keeps.clears (by simp)⟩

theorem execDoutb_runs (d : Nat) (w : Word32) (s : State) : Runs s (execDoutb d w s) := by
  exact ⟨_, rfl, Keeps.clears (by simp)⟩

theorem execDinb_runs (d : Nat) (w : Word32) (received : Byte) (s : State) : Runs s (execDinb d w received s) := by
  exact ⟨_, rfl, Keeps.clears (by simp)⟩

theorem execSel_runs (d : Nat) (w : Word32) (s : State) : Runs s (execSel d w s) := by
  exact ⟨_, rfl, Keeps.clears (by simp)⟩

theorem execDsel_runs (d : Nat) (w : Word32) (s : State) : Runs s (execDsel d w s) := by
  exact ⟨_, rfl, Keeps.clears (by simp)⟩

theorem execWrdy_runs (d : Nat) (w : Word32) (s : State) : Runs s (execWrdy d w s) := by
  exact ⟨_, rfl, Keeps.clears (by simp)⟩

theorem execDieReady_runs (d : Nat) (s : State) : Runs s (execDieReady d s) := by
  exact ⟨_, rfl, Keeps.clears (by simp)⟩

theorem execStat_runs (d : Nat) (w : Word32) (received : Byte) (s : State) : Runs s (execStat d w received s) := by
  exact ⟨_, rfl, Keeps.clears (by simp)⟩

theorem execDly_runs (d : Nat) (w : Word32) (s : State) : Runs s (execDly d w s) := by
  exact ⟨_, rfl, Keeps.clears (by simp)⟩

theorem execPhy_runs (d : Nat) (w : Word32) (s : State) : Runs s (execPhy d w s) := by
  exact ⟨_, rfl, Keeps.clears (by simp)⟩

theorem execMovi_runs (d : Nat) (w : Word32) (s : State) : Runs s (execMovi d w s) := by
  exact ⟨_, rfl, Keeps.clears (by simp)⟩

theorem execMovh_runs (d : Nat) (w : Word32) (s : State) : Runs s (execMovh d w s) := by
  exact ⟨_, rfl, Keeps.clears (by simp)⟩

theorem execAluAdd_runs (d : Nat) (w : Word32) (s : State) : Runs s (execAluAdd d w s) := by
  exact ⟨_, rfl, Keeps.clears (by simp)⟩

theorem execAluSubtract_runs (d : Nat) (w : Word32) (s : State) : Runs s (execAluSubtract d w s) := by
  exact ⟨_, rfl, Keeps.clears (by simp)⟩

theorem execAluAnd_runs (d : Nat) (w : Word32) (s : State) : Runs s (execAluAnd d w s) := by
  exact ⟨_, rfl, Keeps.clears (by simp)⟩

theorem execAluOr_runs (d : Nat) (w : Word32) (s : State) : Runs s (execAluOr d w s) := by
  exact ⟨_, rfl, Keeps.clears (by simp)⟩

theorem execAluXor_runs (d : Nat) (w : Word32) (s : State) : Runs s (execAluXor d w s) := by
  exact ⟨_, rfl, Keeps.clears (by simp)⟩

theorem execAluShiftLeft_runs (d : Nat) (w : Word32) (s : State) : Runs s (execAluShiftLeft d w s) := by
  exact ⟨_, rfl, Keeps.clears (by simp)⟩

theorem execAluShiftRight_runs (d : Nat) (w : Word32) (s : State) : Runs s (execAluShiftRight d w s) := by
  exact ⟨_, rfl, Keeps.clears (by simp)⟩

theorem execAluiAdd_runs (d : Nat) (w : Word32) (s : State) : Runs s (execAluiAdd d w s) := by
  exact ⟨_, rfl, Keeps.clears (by simp)⟩

theorem execAluiSubtract_runs (d : Nat) (w : Word32) (s : State) : Runs s (execAluiSubtract d w s) := by
  exact ⟨_, rfl, Keeps.clears (by simp)⟩

theorem execAluiAnd_runs (d : Nat) (w : Word32) (s : State) : Runs s (execAluiAnd d w s) := by
  exact ⟨_, rfl, Keeps.clears (by simp)⟩

theorem execAluiOr_runs (d : Nat) (w : Word32) (s : State) : Runs s (execAluiOr d w s) := by
  exact ⟨_, rfl, Keeps.clears (by simp)⟩

theorem execAluiXor_runs (d : Nat) (w : Word32) (s : State) : Runs s (execAluiXor d w s) := by
  exact ⟨_, rfl, Keeps.clears (by simp)⟩

theorem execAluiShiftLeft_runs (d : Nat) (w : Word32) (s : State) : Runs s (execAluiShiftLeft d w s) := by
  exact ⟨_, rfl, Keeps.clears (by simp)⟩

theorem execAluiShiftRight_runs (d : Nat) (w : Word32) (s : State) : Runs s (execAluiShiftRight d w s) := by
  exact ⟨_, rfl, Keeps.clears (by simp)⟩

theorem execBr_runs (d : Nat) (w : Word32) (s : State) : Runs s (execBr d w s) := by
  refine ⟨_, rfl, Keeps.clears (scriptStep_keeps _ _ _ _ _ fun t c => ?_)⟩
  (try dsimp only); (repeat' split) <;> simp

theorem execBst_runs (d : Nat) (w : Word32) (s : State) : Runs s (execBst d w s) := by
  exact ⟨_, rfl, Keeps.clears (by simp)⟩

theorem execCall_runs (d : Nat) (w : Word32) (s : State) : Runs s (execCall d w s) := by
  exact ⟨_, rfl, Keeps.clears (by simp)⟩

theorem execRet_runs (d : Nat) (w : Word32) (s : State) : Runs s (execRet d w s) := by
  refine ⟨_, rfl, Keeps.clears (scriptStep_keeps _ _ _ _ _ fun t c => ?_)⟩
  (try dsimp only); (repeat' split) <;> simp

theorem execGets_runs (d : Nat) (w : Word32) (s : State) : Runs s (execGets d w s) := by
  exact ⟨_, rfl, Keeps.clears (by simp)⟩

theorem execCnt_runs (d : Nat) (w : Word32) (s : State) : Runs s (execCnt d w s) := by
  exact ⟨_, rfl, Keeps.clears (by simp)⟩

theorem execEndOp_runs (d : Nat) (w : Word32) (s : State) : Runs s (execEndOp d w s) := by
  exact ⟨_, rfl, Keeps.clears (by simp)⟩

theorem execSlotBoundary_runs (s : State) : Runs s (execSlotBoundary s) := by
  unfold execSlotBoundary; refine ⟨_, rfl, Keeps.clears (keeps_trans ?_ (slotTurn_keeps _))⟩
  split <;> simp

theorem execFrameBoundary_runs (s : State) : Runs s (execFrameBoundary s) := by
  exact ⟨_, rfl, Keeps.clears (by simp)⟩

theorem execChannelScriptSwap_runs (ch rate : Nat) (s : State) : Runs s (execChannelScriptSwap ch rate s) := by
  unfold execChannelScriptSwap; refine ⟨_, rfl, Keeps.clears ⟨?_, ?_, ?_⟩⟩ <;> (first | (simp; done) | ((try simp) <;> (repeat' split) <;> (try simp)))

theorem execRewriteStep_runs (d : Nat) (ok : Bool) (s : State) : Runs s (execRewriteStep d ok s) := by
  refine ⟨_, rfl, Keeps.clears ?_⟩
  split
  · simp
  split
  · simp
  split
  · split
    · simp
    split
    · simp
    split
    · rename_i h; exact keeps_trans (stepErase_keeps _ _ _ h) (by simp)
    · simp
  · simp
  · split <;> simp
  · split <;> simp
  · split
    · rename_i h; exact keeps_trans (stepErase_keeps _ _ _ h) (by simp)
    · simp

theorem execRowTableSwitch_runs (d : Nat) (s : State) : Runs s (execRowTableSwitch d s) := by
  unfold execRowTableSwitch; refine ⟨_, rfl, Keeps.clears ⟨?_, ?_, ?_⟩⟩ <;> (first | (simp; done) | ((try simp) <;> (repeat' split) <;> (try simp)))

theorem execPatrolRead_runs (z w f : Nat) (dec : Dec) (s : State) : Runs s (execPatrolRead z w f dec s) := by
  unfold execPatrolRead; refine ⟨_, rfl, Keeps.clears ⟨?_, ?_, ?_⟩⟩ <;> (first | (simp; done) | ((try simp) <;> (repeat' split) <;> (try simp)))

theorem execProbationPhaseEnd_runs (d : Nat) (ok : Bool) (s : State) : Runs s (execProbationPhaseEnd d ok s) := by
  unfold execProbationPhaseEnd; refine ⟨_, rfl, Keeps.clears ⟨?_, ?_, ?_⟩⟩ <;> (first | (simp; done) | ((try simp) <;> (repeat' split) <;> (try simp)))

theorem execPhase3FacetRepair_runs (d z : Nat) (dec : Dec) (s : State) : Runs s (execPhase3FacetRepair d z dec s) := by
  exact ⟨_, rfl, Keeps.clears (by simp)⟩

theorem execGcStep_runs (nsid rg : Nat) (s : State) : Runs s (execGcStep nsid rg s) := by
  refine ⟨_, rfl, Keeps.clears ?_⟩
  dsimp only
  split
  · simp
  split
  · simp
  split
  · simp
  split
  · split
    · rename_i h; exact keeps_trans (moveProgram_keeps _ _ _ _ h) (by simp)
    · simp
  · simp

theorem execKeyRotationStep_runs (nsid : Nat) (s : State) : Runs s (execKeyRotationStep nsid s) := by
  refine ⟨_, rfl, Keeps.clears ?_⟩
  dsimp only
  split
  · simp
  split
  · simp
  split
  · simp
  split
  · split
    · simp
    split
    · simp
    · rename_i h; refine keeps_trans (relocateGrants_keeps _ _ _ h) ?_
      (repeat' split) <;> simp
  · split
    · split
      · rename_i h; exact keeps_trans (moveProgram_keeps _ _ _ _ h) (by simp)
      · simp
    · split <;> simp

theorem execPlnFallingEdge_runs (sinceUs : Nat) (s : State) : Runs s (execPlnFallingEdge sinceUs s) := by
  exact ⟨_, rfl, Keeps.clears (by simp)⟩

theorem execPlnQualified_runs (s : State) : Runs s (execPlnQualified s) := by
  exact ⟨_, rfl, Keeps.clears (by simp)⟩

theorem execPlnGlitch_runs (s : State) : Runs s (execPlnGlitch s) := by
  exact ⟨_, rfl, Keeps.clears (by simp)⟩

theorem execHoldupDrainDone_runs (durationUs : Nat) (s : State) : Runs s (execHoldupDrainDone durationUs s) := by
  unfold execHoldupDrainDone; refine ⟨_, rfl, Keeps.clears ⟨?_, ?_, ?_⟩⟩ <;> (first | (simp; done) | ((try simp) <;> (repeat' split) <;> (try simp)))

theorem execHoldupSealDone_runs (s : State) : Runs s (execHoldupSealDone s) := by
  exact ⟨_, rfl, Keeps.clears (by simp)⟩

theorem execPowerLostRelease_runs (s : State) : Runs s (execPowerLostRelease s) := by
  unfold execPowerLostRelease; refine ⟨_, rfl, id ?_⟩; (try dsimp only); (repeat' split) <;> first
    | (refine Keeps.clears ?_; simp; done)
    | exact raise_clears _ _ _
    | (refine (Keeps.clears ?_).trans (raise_clears _ _ _); simp; done)

theorem execPwrdisQualified_runs (s : State) : Runs s (execPwrdisQualified s) := by
  exact ⟨_, rfl, Keeps.clears (by simp)⟩

theorem execCcShnShutdown_runs (fn shn : Nat) (s : State) : Runs s (execCcShnShutdown fn shn s) := by
  exact ⟨_, rfl, Keeps.clears (by simp)⟩

theorem execShutdownComplete_runs (s : State) : Runs s (execShutdownComplete s) := by
  exact ⟨_, rfl, Keeps.clears (by simp)⟩

theorem execRestartScan_runs (loss : Option LossFacts) (s : State) : Runs s (execRestartScan loss s) := by
  refine ⟨_, rfl, id ?_⟩
  have h : ∀ t : State, Keeps s t → Clears s (scanArm t) := fun t k => k.clears.trans (scanArm_clears _)
  split
  · exact Keeps.clears (by simp)
  dsimp only; split
  · exact Keeps.clears (by simp)
  split
  · exact Keeps.clears (by simp)
  · exact h _ (by simp)

theorem execPairBootWaitExpiry_runs (s : State) : Runs s (execPairBootWaitExpiry s) := by
  refine ⟨_, rfl, id ?_⟩
  (repeat' split)
  · exact Keeps.clears (by simp)
  · exact Keeps.clears (by simp)
  · exact aloneAsLead_clears s

theorem execImageAreaRelease_runs (s : State) : Runs s (execImageAreaRelease s) := by
  exact ⟨_, rfl, Keeps.clears (by simp)⟩

theorem execKeepaliveSend_runs (s : State) : Runs s (execKeepaliveSend s) := by
  exact ⟨_, rfl, Keeps.clears (by simp)⟩

theorem execKeepalive_runs (h : FrameHdr) (b : StatusBlock) (s : State) : Runs s (execKeepalive h b s) := by
  exact ⟨_, rfl, Keeps.clears (by simp)⟩

theorem execLinkLoss_runs (s : State) : Runs s (execLinkLoss s) := by
  exact ⟨_, rfl, Keeps.clears (by simp)⟩

theorem execPromotionWaitExpiry_runs (s : State) : Runs s (execPromotionWaitExpiry s) := by
  exact ⟨_, rfl, Keeps.clears (by simp)⟩

theorem execPairHbInAbsent_runs (s : State) : Runs s (execPairHbInAbsent s) := by
  exact ⟨_, rfl, Keeps.clears (by simp)⟩

theorem execPairHbInPresent_runs (s : State) : Runs s (execPairHbInPresent s) := by
  exact ⟨_, rfl, Keeps.clears (by simp)⟩

theorem execLinkTrained_runs (port lanes serial position peerDigest peerEpoch : Nat) (peerLead peerPref peerNamespaces : Bool) (peer : Peer) (s : State) : Runs s (execLinkTrained port lanes serial position peerDigest peerEpoch peerLead peerPref peerNamespaces peer s) := by
  refine ⟨_, rfl, ?_⟩
  dsimp only; split
  · have h := mirrorTrained_clears s lanes serial position peerDigest peerEpoch peerLead peerPref peerNamespaces peer.paired peer.controllers
    split
    · exact h.trans (Keeps.clears (by simp))
    · exact h
  · exact Keeps.clears (by simp)

theorem execHoldingAcknowledgement_runs (h : FrameHdr) (asns differ : List Nat) (s : State) : Runs s (execHoldingAcknowledgement h asns differ s) := by
  exact ⟨_, rfl, Keeps.clears (by simp)⟩

theorem execHoldingAckLate_runs (asn : Nat) (s : State) : Runs s (execHoldingAckLate asn s) := by
  exact ⟨_, rfl, Keeps.clears (by simp)⟩

theorem execLinkAcknowledgement_runs (port received resend : Nat) (s : State) : Runs s (execLinkAcknowledgement port received resend s) := by
  unfold execLinkAcknowledgement; refine ⟨_, rfl, Keeps.clears ⟨?_, ?_, ?_⟩⟩ <;> (first | (simp; done) | ((try simp) <;> (repeat' split) <;> (try simp)))

theorem execFastRetrainTimeout_runs (port : Nat) (s : State) : Runs s (execFastRetrainTimeout port s) := by
  exact ⟨_, rfl, Keeps.clears (by simp)⟩

theorem execAttachFrame_runs (h : FrameHdr) (forkPoint livePoint : Nat) (rings regions : List (Nat × Nat)) (transfer : Option Transfer) (s : State) : Runs s (execAttachFrame h forkPoint livePoint rings regions transfer s) := by
  unfold execAttachFrame; refine ⟨_, rfl, Keeps.clears ⟨?_, ?_, ?_⟩⟩ <;> (first | (simp; done) | ((try simp) <;> (repeat' split) <;> (try simp)))

theorem execHandoverFrame_runs (h : FrameHdr) (head : Nat) (s : State) : Runs s (execHandoverFrame h head s) := by
  exact ⟨_, rfl, Keeps.clears (by simp)⟩

theorem execDetachFrame_runs (h : FrameHdr) (asn : Nat) (s : State) : Runs s (execDetachFrame h asn s) := by
  exact ⟨_, rfl, Keeps.clears (by simp)⟩

theorem execPowerLossNotice_runs (port : Nat) (s : State) : Runs s (execPowerLossNotice port s) := by
  exact ⟨_, rfl, Keeps.clears (by simp)⟩

theorem execPreserveReport_runs (h : FrameHdr) (group : Nat) (s : State) : Runs s (execPreserveReport h group s) := by
  exact ⟨_, rfl, Keeps.clears (by simp)⟩

theorem execForkReport_runs (h : FrameHdr) (forkPoint appliedHead : Nat) (s : State) : Runs s (execForkReport h forkPoint appliedHead s) := by
  exact ⟨_, rfl, Keeps.clears (by simp)⟩

theorem execForcedResetFrame_runs (h : FrameHdr) (case : Nat) (s : State) : Runs s (execForcedResetFrame h case s) := by
  refine ⟨_, rfl, id ?_⟩
  have r : ∀ t : State, Keeps s t → Clears s (raise t 5) := fun t k => k.clears.trans (raise_clears _ _ _)
  unfold receive; split
  · exact Keeps.clears (by simp)
  split
  · exact Keeps.clears (by simp)
  split
  · exact Keeps.clears (by simp)
  dsimp only; split
  · exact Keeps.clears (by simp)
  · exact r _ (by simp)

theorem execPairRootTransfer_runs (h : FrameHdr) (root : Nat) (s : State) : Runs s (execPairRootTransfer h root s) := by
  exact ⟨_, rfl, Keeps.clears (by simp)⟩

theorem execKeySwitchAsnFrame_runs (h : FrameHdr) (nsid asn generation salt : Nat) (s : State) : Runs s (execKeySwitchAsnFrame h nsid asn generation salt s) := by
  refine ⟨_, rfl, Keeps.clears (receive_keeps _ _ _ fun t => ?_)⟩
  (try dsimp only); (repeat' split) <;> simp

theorem execAdmissionRequest_runs (h : FrameHdr) (op : IoOp) (c : IoCmd) (index generation : Nat) (s : State) : Runs s (execAdmissionRequest h op c index generation s) := by
  refine ⟨_, rfl, Keeps.clears (receive_keeps _ _ _ fun t => ?_)⟩
  (try dsimp only); (repeat' split) <;> simp

theorem execLedgerRecords_runs (h : FrameHdr) (recs : List LedgerRec) (s : State) : Runs s (execLedgerRecords h recs s) := by
  refine ⟨_, rfl, Keeps.clears (receive_keeps _ _ _ fun t => ?_)⟩
  dsimp only; split
  · simp
  · refine keeps_trans (foldl_keeps _ _ (fun u r => ?_) _) (settleAsked_keeps _)
    (repeat' split) <;> simp

theorem execFetchRequest_runs (h : FrameHdr) (zoneNo unit count : Nat) (s : State) : Runs s (execFetchRequest h zoneNo unit count s) := by
  exact ⟨_, rfl, Keeps.clears (by simp)⟩

theorem execConventionalOrder_runs (h : FrameHdr) (id nsid lba blocks seq : Nat) (s : State) : Runs s (execConventionalOrder h id nsid lba blocks seq s) := by
  refine ⟨_, rfl, Keeps.clears (receive_keeps _ _ _ fun t => ?_)⟩
  (try dsimp only); (repeat' split) <;> simp

theorem execWriteDataFrame_runs (h : FrameHdr) (asn zoneNo unit check : Nat) (c : Carried) (lastFrame : Bool) (s : State) : Runs s (execWriteDataFrame h asn zoneNo unit check c lastFrame s) := by
  unfold execWriteDataFrame; dsimp only
  refine ⟨_, rfl, Keeps.clears ?_⟩
  split
  · (repeat' split) <;> simp
  · refine receive_keeps _ _ _ fun t => ?_
    (repeat' split) <;> simp

theorem execFetchResponse_runs (h : FrameHdr) (rid zoneNo unit : Nat) (c : Carried) (generation : Nat) (s : State) : Runs s (execFetchResponse h rid zoneNo unit c generation s) := by
  unfold execFetchResponse; dsimp only
  refine ⟨_, rfl, Keeps.clears ?_⟩
  split
  · (repeat' split) <;> simp
  · refine receive_keeps _ _ _ fun t => ?_
    (repeat' split) <;> simp

theorem execCatchingUpDone_runs (s : State) : Runs s (execCatchingUpDone s) := by
  exact ⟨_, rfl, Keeps.clears (by simp)⟩

theorem execResyncZoneCopy_runs (z : Nat) (s : State) : Runs s (execResyncZoneCopy z s) := by
  unfold execResyncZoneCopy; refine ⟨_, rfl, Keeps.clears ⟨?_, ?_, ?_⟩⟩ <;> (first | (simp; done) | ((try simp) <;> (repeat' split) <;> (try simp)))

theorem execZoneResyncDone_runs (s : State) : Runs s (execZoneResyncDone s) := by
  exact ⟨_, rfl, Keeps.clears (by simp)⟩

theorem execKeyUpdate_runs (port : Nat) (s : State) : Runs s (execKeyUpdate port s) := by
  exact ⟨_, rfl, Keeps.clears (by simp)⟩

theorem execForwardedCommand_runs (h : FrameHdr) (op : IoOp) (c : IoCmd) (index fn generation cls _first check tag : Nat) (s : State) : Runs s (execForwardedCommand h op c index fn generation cls _first check tag s) := by
  unfold execForwardedCommand; refine ⟨_, rfl, Keeps.clears ⟨?_, ?_, ?_⟩⟩ <;> (first | (simp; done) | ((try simp) <;> (repeat' split) <;> (try simp)))

theorem execMemberCompletion_runs (position tag status dw0 dw1 : Nat) (ended : MemberEnd) (s : State) : Runs s (execMemberCompletion position tag status dw0 dw1 ended s) := by
  unfold execMemberCompletion; (try dsimp only); (repeat' split) <;> exact ⟨_, rfl, Keeps.clears (by simp)⟩

theorem execCascadeLinkLoss_runs (port : Nat) (s : State) : Runs s (execCascadeLinkLoss port s) := by
  exact ⟨_, rfl, Keeps.clears (by simp)⟩

theorem execMemberProbationPass_runs (position : Nat) (configOk extentsOk frameClean : Bool) (s : State) : Runs s (execMemberProbationPass position configOk extentsOk frameClean s) := by
  exact ⟨_, rfl, Keeps.clears (by simp)⟩

theorem execMemberRemove_runs (position : Nat) (s : State) : Runs s (execMemberRemove position s) := by
  exact ⟨_, rfl, Keeps.clears (by simp)⟩

theorem execVfEnable_runs (numVfs : Nat) (s : State) : Runs s (execVfEnable numVfs s) := by
  exact ⟨_, rfl, Keeps.clears (by simp)⟩

theorem execVfDisable_runs (numVfs : Nat) (s : State) : Runs s (execVfDisable numVfs s) := by
  exact ⟨_, rfl, Keeps.clears (by simp)⟩

theorem execVirtualizationOnline_runs (a : Adm) (lens : Nat) (s : State) : Runs s (execVirtualizationOnline a lens s) := by
  exact ⟨_, rfl, Keeps.clears (by simp)⟩

theorem execVirtualizationOffline_runs (a : Adm) (lens : Nat) (s : State) : Runs s (execVirtualizationOffline a lens s) := by
  refine ⟨_, rfl, Keeps.clears (withAdmin_keeps _ _ _ _ fun t => ?_)⟩
  (try dsimp only); (repeat' split) <;> simp

theorem execVirtualizationAssign_runs (a : Adm) (lens vq vi : Nat) (s : State) : Runs s (execVirtualizationAssign a lens vq vi s) := by
  exact ⟨_, rfl, Keeps.clears (by simp)⟩

theorem execProbationChecksPass_runs (lens failed : Nat) (badLanes : List Nat) (s : State) : Runs s (execProbationChecksPass lens failed badLanes s) := by
  refine ⟨_, rfl, Keeps.clears ?_⟩
  dsimp only; split
  · simp
  split
  · simp
  · (repeat' split) <;> simp

theorem execCcEnClear_runs (r : FnReset) (s : State) : Runs s (execCcEnClear r s) := by
  exact ⟨_, rfl, Keeps.clears (by simp)⟩

theorem execFlr_runs (r : FnReset) (s : State) : Runs s (execFlr r s) := by
  exact ⟨_, rfl, Keeps.clears (by simp)⟩

theorem execCcEnSet_runs (fn : Nat) (s : State) : Runs s (execCcEnSet fn s) := by
  exact ⟨_, rfl, Keeps.clears (by simp)⟩

theorem execLockInterface_runs (lens : Nat) (streamBound : Bool) (s : State) : Runs s (execLockInterface lens streamBound s) := by
  exact ⟨_, rfl, Keeps.clears (by simp)⟩

theorem execGetDeviceInterfaceReport_runs (lens : Nat) (s : State) : Runs s (execGetDeviceInterfaceReport lens s) := by
  exact ⟨_, rfl, Keeps.clears (by simp)⟩

theorem execGetDeviceInterfaceState_runs (lens : Nat) (s : State) : Runs s (execGetDeviceInterfaceState lens s) := by
  exact ⟨_, rfl, Keeps.clears (by simp)⟩

theorem execStartInterface_runs (lens : Nat) (s : State) : Runs s (execStartInterface lens s) := by
  exact ⟨_, rfl, Keeps.clears (by simp)⟩

theorem execStopInterface_runs (lens : Nat) (s : State) : Runs s (execStopInterface lens s) := by
  exact ⟨_, rfl, Keeps.clears (by simp)⟩

theorem execIdeIntegrityFailure_runs (port lens : Nat) (s : State) : Runs s (execIdeIntegrityFailure port lens s) := by
  exact ⟨_, rfl, Keeps.clears (by simp)⟩

theorem execMmioRequest_runs (lens : Nat) (m : Mmio) (s : State) : Runs s (execMmioRequest lens m s) := by
  refine ⟨_, rfl, Keeps.clears ?_⟩
  dsimp only; (repeat' split) <;> simp

theorem execWriteLogSwap_runs (lens : Nat) (s : State) : Runs s (execWriteLogSwap lens s) := by
  exact ⟨_, rfl, Keeps.clears (by simp)⟩

theorem execSwapComplete_runs (lens : Nat) (s : State) : Runs s (execSwapComplete lens s) := by
  exact ⟨_, rfl, Keeps.clears (by simp)⟩

theorem execLensPause_runs (lens value : Nat) (s : State) : Runs s (execLensPause lens value s) := by
  exact ⟨_, rfl, Keeps.clears (by simp)⟩

theorem execCipherMessageGrant_runs (requests : List CipherReq) (passed : Nat) (s : State) : Runs s (execCipherMessageGrant requests passed s) := by
  unfold execCipherMessageGrant; refine ⟨_, rfl, Keeps.clears ⟨?_, ?_, ?_⟩⟩ <;> (first | (simp; done) | ((try simp) <;> (repeat' split) <;> (try simp)))

theorem execCipherAlarm_runs (alarm : Nat) (s : State) : Runs s (execCipherAlarm alarm s) := by
  unfold execCipherAlarm; refine ⟨_, rfl, id ?_⟩; (try dsimp only); (repeat' split) <;> first
    | (refine Keeps.clears ?_; simp; done)
    | exact raise_clears _ _ _
    | (refine (Keeps.clears ?_).trans (raise_clears _ _ _); simp; done)

theorem execAlarmClearRecover_runs (s : State) : Runs s (execAlarmClearRecover s) := by
  exact ⟨_, rfl, Keeps.clears (by simp)⟩

theorem execEntropyHealthFailure_runs (s : State) : Runs s (execEntropyHealthFailure s) := by
  exact ⟨_, rfl, Keeps.clears (by simp)⟩

theorem execDrbgReseed_runs (ok : Bool) (s : State) : Runs s (execDrbgReseed ok s) := by
  exact ⟨_, rfl, Keeps.clears (by simp)⟩

theorem execLaneReturn_runs (lane : Nat) (vectorsOk : Bool) (s : State) : Runs s (execLaneReturn lane vectorsOk s) := by
  exact ⟨_, rfl, Keeps.clears (by simp)⟩

theorem execKeyRotationStart_runs (nsid : Nat) (s : State) : Runs s (execKeyRotationStart nsid s) := by
  exact ⟨_, rfl, Keeps.clears (by simp)⟩

theorem execFirmwareCommitReplace_runs (a : Adm) (slot : Nat) (f : ImageFacts) (s : State) : Runs s (execFirmwareCommitReplace a slot f s) := by
  exact ⟨_, rfl, Keeps.clears (by simp)⟩

theorem execFirmwareCommitReplaceActivate_runs (a : Adm) (slot : Nat) (f : ImageFacts) (s : State) : Runs s (execFirmwareCommitReplaceActivate a slot f s) := by
  exact ⟨_, rfl, Keeps.clears (by simp)⟩

theorem execFirmwareCommitActivate_runs (a : Adm) (slot : Nat) (s : State) : Runs s (execFirmwareCommitActivate a slot s) := by
  refine ⟨_, rfl, Keeps.clears (withAdmin_keeps _ _ _ _ fun t => ?_)⟩
  (try dsimp only); (repeat' split) <;> simp

theorem execFirmwareCommitImmediate_runs (a : Adm) (s : State) : Runs s (execFirmwareCommitImmediate a s) := by
  exact ⟨_, rfl, Keeps.clears (by simp)⟩

theorem execRaiseMinimum_runs (version : Nat) (s : State) : Runs s (execRaiseMinimum version s) := by
  unfold execRaiseMinimum; refine ⟨_, rfl, id ?_⟩; (try dsimp only); (repeat' split) <;> first
    | (refine Keeps.clears ?_; simp; done)
    | exact raiseMin_clears _ _
    | (refine (Keeps.clears ?_).trans (raiseMin_clears _ _); simp; done)

theorem execNegotiateAlgorithms_runs (b : Binding) (asymP384 sha384 secp384 aesGcm keySchedule : Bool) (s : State) : Runs s (execNegotiateAlgorithms b asymP384 sha384 secp384 aesGcm keySchedule s) := by
  exact ⟨_, rfl, Keeps.clears (by simp)⟩

theorem execGetCertificate_runs (b : Binding) (slot : Nat) (s : State) : Runs s (execGetCertificate b slot s) := by
  refine ⟨_, rfl, Keeps.clears (withSpdm_keeps _ _ fun t => ?_)⟩
  (try dsimp only); (repeat' split) <;> simp

theorem execChallenge_runs (b : Binding) (slot nonce : Nat) (s : State) : Runs s (execChallenge b slot nonce s) := by
  refine ⟨_, rfl, Keeps.clears (withSpdm_keeps _ _ fun t => ?_)⟩
  (try dsimp only); (repeat' split) <;> simp

theorem execGetMeasurements_runs (b : Binding) (index nonce : Nat) (signed : Bool) (s : State) : Runs s (execGetMeasurements b index nonce signed s) := by
  exact ⟨_, rfl, Keeps.clears (by simp)⟩

theorem execKeyExchange_runs (b : Binding) (_secret : Nat) (s : State) : Runs s (execKeyExchange b _secret s) := by
  exact ⟨_, rfl, Keeps.clears (by simp)⟩

theorem execSetCertificate_runs (b : Binding) (slot chain leafKey : Nat) (secured : Bool) (s : State) : Runs s (execSetCertificate b slot chain leafKey secured s) := by
  exact ⟨_, rfl, Keeps.clears (by simp)⟩

theorem execVendorDefinedRequest_runs (b : Binding) (standard vendor sequence : Nat) (s : State) : Runs s (execVendorDefinedRequest b standard vendor sequence s) := by
  refine ⟨_, rfl, Keeps.clears (withSpdm_keeps _ _ fun t => ?_)⟩
  (try dsimp only); (repeat' split) <;> simp

theorem execLevelChangeStart_runs (s : State) : Runs s (execLevelChangeStart s) := by
  exact ⟨_, rfl, Keeps.clears (by simp)⟩

theorem execLevelChangeDone_runs (s : State) : Runs s (execLevelChangeDone s) := by
  exact ⟨_, rfl, Keeps.clears (by simp)⟩

theorem execVddPgRise_runs (s : State) : Runs s (execVddPgRise s) := by
  exact ⟨_, rfl, Keeps.clears (by simp)⟩

theorem execVddPgTimeout_runs (s : State) : Runs s (execVddPgTimeout s) := by
  exact ⟨_, rfl, Keeps.clears (by simp)⟩

theorem execVddPgFall_runs (s : State) : Runs s (execVddPgFall s) := by
  exact ⟨_, rfl, Keeps.clears (by simp)⟩

theorem execIdleTimerExpiry_runs (s : State) : Runs s (execIdleTimerExpiry s) := by
  exact ⟨_, rfl, Keeps.clears (by simp)⟩

theorem execSleepEntry_runs (s : State) : Runs s (execSleepEntry s) := by
  exact ⟨_, rfl, Keeps.clears (by simp)⟩

theorem execSleepBlockAnswer_runs (agrees : Bool) (holdOffUs : Nat) (s : State) : Runs s (execSleepBlockAnswer agrees holdOffUs s) := by
  exact ⟨_, rfl, Keeps.clears (by simp)⟩

theorem execSleepAnswerTimeout_runs (s : State) : Runs s (execSleepAnswerTimeout s) := by
  exact ⟨_, rfl, Keeps.clears (by simp)⟩

theorem execSleepRetry_runs (s : State) : Runs s (execSleepRetry s) := by
  exact ⟨_, rfl, Keeps.clears (by simp)⟩

theorem execWakeEvent_runs (event : Nat) (crcOk : Bool) (s : State) : Runs s (execWakeEvent event crcOk s) := by
  refine ⟨_, rfl, id ?_⟩
  have d : ∀ t : State, Keeps s t → Clears s (deviceReset t false) := fun t k => k.clears.trans (deviceReset_clears _ _)
  have w : ∀ t : State, Keeps s t → Clears s (wakeRetained t crcOk) := fun t k => k.clears.trans (wakeRetained_clears _ _)
  split
  · exact Keeps.clears (by simp)
  dsimp only; split
  · exact Keeps.clears (by simp)
  split
  · exact Keeps.clears (by simp)
  · exact w _ (by simp)
  · exact d _ (by simp)

theorem execSetFeaturesPowerManagement_runs (a : Adm) (ps : Nat) (s : State) : Runs s (execSetFeaturesPowerManagement a ps s) := by
  exact ⟨_, rfl, Keeps.clears (by simp)⟩

theorem execApstTransition_runs (ps : Nat) (s : State) : Runs s (execApstTransition ps s) := by
  exact ⟨_, rfl, Keeps.clears (by simp)⟩

theorem execPciD3hot_runs (inL12 : Bool) (s : State) : Runs s (execPciD3hot inL12 s) := by
  exact ⟨_, rfl, Keeps.clears (by simp)⟩

theorem execManagementSleepRequest_runs (level : Nat) (s : State) : Runs s (execManagementSleepRequest level s) := by
  exact ⟨_, rfl, Keeps.clears (by simp)⟩

theorem execAdcPeriod_runs (sums : List Nat) (pcapA : Nat) (dieTemps : List Int) (s : State) : Runs s (execAdcPeriod sums pcapA dieTemps s) := by
  exact ⟨_, rfl, Keeps.clears (by simp)⟩

theorem execThermalCriticalExit_runs (s : State) : Runs s (execThermalCriticalExit s) := by
  exact ⟨_, rfl, Keeps.clears (by simp)⟩

theorem execThermalTrip_runs (s : State) : Runs s (execThermalTrip s) := by
  refine ⟨_, rfl, id ?_⟩
  have h : ∀ t : State, Keeps s t → Clears s (raise t 7) := fun t k => k.clears.trans (raise_clears _ _ _)
  split
  · exact Keeps.clears (by simp)
  dsimp only; split
  · exact (h { s with pins.trip := true } ⟨rfl, rfl, rfl⟩).trans (deviceReset_clears _ _)
  · exact h _ ⟨rfl, rfl, rfl⟩

theorem execTemperatureSample_runs (s : State) : Runs s (execTemperatureSample s) := by
  exact ⟨_, rfl, Keeps.clears (by simp)⟩

theorem execHealthSave_runs (s : State) : Runs s (execHealthSave s) := by
  exact ⟨_, rfl, Keeps.clears (by simp)⟩

theorem execPcapPRisingEdge_runs (period high : Nat) (s : State) : Runs s (execPcapPRisingEdge period high s) := by
  exact ⟨_, rfl, Keeps.clears (by simp)⟩

theorem execPcapPTimeout_runs (s : State) : Runs s (execPcapPTimeout s) := by
  exact ⟨_, rfl, Keeps.clears (by simp)⟩

theorem execPcapPFallback_runs (s : State) : Runs s (execPcapPFallback s) := by
  exact ⟨_, rfl, Keeps.clears (by simp)⟩

theorem execPcapPRestore_runs (s : State) : Runs s (execPcapPRestore s) := by
  exact ⟨_, rfl, Keeps.clears (by simp)⟩

theorem execLoopTick_runs (s : State) : Runs s (execLoopTick s) := by
  exact ⟨_, rfl, Keeps.clears (by simp)⟩

theorem execLoopOverrun_runs (k : Nat) (s : State) : Runs s (execLoopOverrun k s) := by
  exact ⟨_, rfl, Keeps.clears (by simp)⟩

theorem execLoopInstructionLimit_runs (k : Nat) (s : State) : Runs s (execLoopInstructionLimit k s) := by
  exact ⟨_, rfl, Keeps.clears (by simp)⟩

theorem execLoopNop_runs (k : Nat) (w : Word32) (s : State) : Runs s (execLoopNop k w s) := by
  exact ⟨_, rfl, Keeps.clears (by simp)⟩

theorem execLda_runs (k : Nat) (w : Word32) (s : State) : Runs s (execLda k w s) := by
  exact ⟨_, rfl, Keeps.clears (by simp)⟩

theorem execAdd_runs (k : Nat) (w : Word32) (s : State) : Runs s (execAdd k w s) := by
  exact ⟨_, rfl, Keeps.clears (by simp)⟩

theorem execSub_runs (k : Nat) (w : Word32) (s : State) : Runs s (execSub k w s) := by
  exact ⟨_, rfl, Keeps.clears (by simp)⟩

theorem execMpy_runs (k : Nat) (w : Word32) (s : State) : Runs s (execMpy k w s) := by
  exact ⟨_, rfl, Keeps.clears (by simp)⟩

theorem execMac_runs (k : Nat) (w : Word32) (s : State) : Runs s (execMac k w s) := by
  exact ⟨_, rfl, Keeps.clears (by simp)⟩

theorem execMsu_runs (k : Nat) (w : Word32) (s : State) : Runs s (execMsu k w s) := by
  exact ⟨_, rfl, Keeps.clears (by simp)⟩

theorem execSha_runs (k : Nat) (w : Word32) (s : State) : Runs s (execSha k w s) := by
  exact ⟨_, rfl, Keeps.clears (by simp)⟩

theorem execSts_runs (k : Nat) (w : Word32) (s : State) : Runs s (execSts k w s) := by
  exact ⟨_, rfl, Keeps.clears (by simp)⟩

theorem execClp_runs (k : Nat) (w : Word32) (s : State) : Runs s (execClp k w s) := by
  exact ⟨_, rfl, Keeps.clears (by simp)⟩

theorem execMin_runs (k : Nat) (w : Word32) (s : State) : Runs s (execMin k w s) := by
  exact ⟨_, rfl, Keeps.clears (by simp)⟩

theorem execMax_runs (k : Nat) (w : Word32) (s : State) : Runs s (execMax k w s) := by
  exact ⟨_, rfl, Keeps.clears (by simp)⟩

theorem execLdi_runs (k : Nat) (w : Word32) (s : State) : Runs s (execLdi k w s) := by
  exact ⟨_, rfl, Keeps.clears (by simp)⟩

theorem execMov_runs (k : Nat) (w : Word32) (s : State) : Runs s (execMov k w s) := by
  exact ⟨_, rfl, Keeps.clears (by simp)⟩

theorem execCmp_runs (k : Nat) (w : Word32) (s : State) : Runs s (execCmp k w s) := by
  exact ⟨_, rfl, Keeps.clears (by simp)⟩

theorem execLoopBr_runs (k : Nat) (w : Word32) (s : State) : Runs s (execLoopBr k w s) := by
  exact ⟨_, rfl, Keeps.clears (by simp)⟩

theorem execAdi_runs (k : Nat) (w : Word32) (s : State) : Runs s (execAdi k w s) := by
  exact ⟨_, rfl, Keeps.clears (by simp)⟩

theorem execLoopEnd_runs (k : Nat) (w : Word32) (s : State) : Runs s (execLoopEnd k w s) := by
  exact ⟨_, rfl, Keeps.clears (by simp)⟩

theorem execLoopProgramLoad_runs (k image : Nat) (s : State) : Runs s (execLoopProgramLoad k image s) := by
  exact ⟨_, rfl, Keeps.clears (by simp)⟩

theorem execEngineReturn_runs (k : Nat) (s : State) : Runs s (execEngineReturn k s) := by
  exact ⟨_, rfl, Keeps.clears (by simp)⟩

theorem execEngineSelfTestDone_runs (k signature : Nat) (s : State) : Runs s (execEngineSelfTestDone k signature s) := by
  exact ⟨_, rfl, Keeps.clears (by simp)⟩

theorem execEngineShadowDone_runs (k : Nat) (s : State) : Runs s (execEngineShadowDone k s) := by
  exact ⟨_, rfl, Keeps.clears (by simp)⟩

theorem execAgePromotion_runs (ch port : Nat) (s : State) : Runs s (execAgePromotion ch port s) := by
  exact ⟨_, rfl, Keeps.clears (by simp)⟩

theorem execRowClose_runs (ch bank : Nat) (s : State) : Runs s (execRowClose ch bank s) := by
  exact ⟨_, rfl, Keeps.clears (by simp)⟩

theorem execDramRefresh_runs (ch bank : Nat) (_atLimit : Bool) (s : State) : Runs s (execDramRefresh ch bank _atLimit s) := by
  exact ⟨_, rfl, Keeps.clears (by simp)⟩

theorem execMr4Poll_runs (ch code : Nat) (s : State) : Runs s (execMr4Poll ch code s) := by
  exact ⟨_, rfl, Keeps.clears (by simp)⟩

theorem execSelfRefreshEntry_runs (ch : Nat) (s : State) : Runs s (execSelfRefreshEntry ch s) := by
  exact ⟨_, rfl, Keeps.clears (by simp)⟩

theorem execRetrainStart_runs (s : State) : Runs s (execRetrainStart s) := by
  exact ⟨_, rfl, Keeps.clears (by simp)⟩

theorem execRetrainPause_runs (ch : Nat) (class0 : Bool) (drift : Int) (inRange : Bool) (s : State) : Runs s (execRetrainPause ch class0 drift inRange s) := by
  unfold execRetrainPause; refine ⟨_, rfl, Keeps.clears ⟨?_, ?_, ?_⟩⟩ <;> (first | (simp; done) | ((try simp) <;> (repeat' split) <;> (try simp)))

theorem execFullRetraining_runs (ch : Nat) (ok : Bool) (s : State) : Runs s (execFullRetraining ch ok s) := by
  unfold execFullRetraining; refine ⟨_, rfl, id ?_⟩; (try dsimp only); (repeat' split) <;> first
    | (refine Keeps.clears ?_; simp; done)
    | exact raise_clears _ _ _
    | (refine (Keeps.clears ?_).trans (raise_clears _ _ _); simp; done)

theorem execBufferAllocate_runs (p : Nat) (requests : List Req) (linkOk : Bool) (s : State) : Runs s (execBufferAllocate p requests linkOk s) := by
  unfold execBufferAllocate; refine ⟨_, rfl, Keeps.clears ⟨?_, ?_, ?_⟩⟩ <;> (first | (simp; done) | ((try simp) <;> (repeat' split) <;> (try simp)))

theorem execBufferReturn_runs (p address requester : Nat) (faulty : Bool) (s : State) : Runs s (execBufferReturn p address requester faulty s) := by
  unfold execBufferReturn; refine ⟨_, rfl, Keeps.clears ⟨?_, ?_, ?_⟩⟩ <;> (first | (simp; done) | ((try simp) <;> (repeat' split) <;> (try simp)))

theorem execFreeListRebuildDone_runs (p t : Nat) (s : State) : Runs s (execFreeListRebuildDone p t s) := by
  exact ⟨_, rfl, Keeps.clears (by simp)⟩

theorem execBufferWaitTimeout_runs (p : Nat) (r : Req) (rid : Nat) (s : State) : Runs s (execBufferWaitTimeout p r rid s) := by
  unfold execBufferWaitTimeout; refine ⟨_, rfl, Keeps.clears ⟨?_, ?_, ?_⟩⟩ <;> (first | (simp; done) | ((try simp) <;> (repeat' split) <;> (try simp)))

theorem execPowerOn_runs (s : State) : Runs s (execPowerOn s) := by
  unfold execPowerOn; refine ⟨_, rfl, id ?_⟩; (try dsimp only); (repeat' split) <;> first
    | (refine Keeps.clears ?_; simp; done)
    | exact raise_clears _ _ _
    | (refine (Keeps.clears ?_).trans (raise_clears _ _ _); simp; done)

theorem execCoreBrownOut_runs (s : State) : Runs s (execCoreBrownOut s) := by
  unfold execCoreBrownOut; refine ⟨_, rfl, id ?_⟩; (try dsimp only); (repeat' split) <;> first
    | (refine Keeps.clears ?_; simp; done)
    | exact raise_clears _ _ _
    | (refine (Keeps.clears ?_).trans (raise_clears _ _ _); simp; done)

theorem execAonBrownOut_runs (s : State) : Runs s (execAonBrownOut s) := by
  unfold execAonBrownOut; refine ⟨_, rfl, id ?_⟩; (try dsimp only); (repeat' split) <;> first
    | (refine Keeps.clears ?_; simp; done)
    | exact raise_clears _ _ _
    | (refine (Keeps.clears ?_).trans (raise_clears _ _ _); simp; done)

theorem execPerstAssert_runs (s : State) : Runs s (execPerstAssert s) := by
  unfold execPerstAssert; refine ⟨_, rfl, id ?_⟩; (try dsimp only); (repeat' split) <;> first
    | (refine Keeps.clears ?_; simp; done)
    | exact raise_clears _ _ _
    | (refine (Keeps.clears ?_).trans (raise_clears _ _ _); simp; done)

theorem execPerstDeassert_runs (s : State) : Runs s (execPerstDeassert s) := by
  exact ⟨_, rfl, Keeps.clears (by simp)⟩

theorem execPerstGlitch_runs (s : State) : Runs s (execPerstGlitch s) := by
  exact ⟨_, rfl, Keeps.clears (by simp)⟩

theorem execPreResetFlushSeal_runs (s : State) : Runs s (execPreResetFlushSeal s) := by
  unfold execPreResetFlushSeal; refine ⟨_, rfl, id ?_⟩; (try dsimp only); (repeat' split) <;> first
    | (refine Keeps.clears ?_; simp; done)
    | exact deviceReset_clears _ _
    | (refine (Keeps.clears ?_).trans (deviceReset_clears _ _); simp; done)

theorem execPreResetFlushLimit_runs (s : State) : Runs s (execPreResetFlushLimit s) := by
  unfold execPreResetFlushLimit; refine ⟨_, rfl, id ?_⟩; (try dsimp only); (repeat' split) <;> first
    | (refine Keeps.clears ?_; simp; done)
    | exact deviceReset_clears _ _
    | (refine (Keeps.clears ?_).trans (deviceReset_clears _ _); simp; done)

theorem execWatchdogExpiry_runs (s : State) : Runs s (execWatchdogExpiry s) := by
  unfold execWatchdogExpiry; refine ⟨_, rfl, id ?_⟩; (try dsimp only); (repeat' split) <;> first
    | (refine Keeps.clears ?_; simp; done)
    | exact raise_clears _ _ _
    | (refine (Keeps.clears ?_).trans (raise_clears _ _ _); simp; done)

theorem execBootTimerExpiry_runs (s : State) : Runs s (execBootTimerExpiry s) := by
  unfold execBootTimerExpiry; refine ⟨_, rfl, id ?_⟩; (try dsimp only); (repeat' split) <;> first
    | (refine Keeps.clears ?_; simp; done)
    | exact raise_clears _ _ _
    | (refine (Keeps.clears ?_).trans (raise_clears _ _ _); simp; done)

theorem execManagementReset_runs (s : State) : Runs s (execManagementReset s) := by
  unfold execManagementReset; refine ⟨_, rfl, id ?_⟩; (try dsimp only); (repeat' split) <;> first
    | (refine Keeps.clears ?_; simp; done)
    | exact raise_clears _ _ _
    | (refine (Keeps.clears ?_).trans (raise_clears _ _ _); simp; done)

theorem execReleaseCountDone_runs (straps : Nat) (s : State) : Runs s (execReleaseCountDone straps s) := by
  exact ⟨_, rfl, Keeps.clears (by simp)⟩

theorem execRefclkLoss_runs (s : State) : Runs s (execRefclkLoss s) := by
  exact ⟨_, rfl, Keeps.clears (by simp)⟩

theorem execRefclkRestore_runs (s : State) : Runs s (execRefclkRestore s) := by
  exact ⟨_, rfl, Keeps.clears (by simp)⟩

theorem execTestModeHold_runs (high : Bool) (s : State) : Runs s (execTestModeHold high s) := by
  exact ⟨_, rfl, Keeps.clears (by simp)⟩

theorem execStage1Loader_runs (f : BootFacts) (s : State) : Runs s (execStage1Loader f s) := by
  unfold execStage1Loader; refine ⟨_, rfl, Keeps.clears ⟨?_, ?_, ?_⟩⟩ <;> (first | (simp; done) | ((try simp) <;> (repeat' split) <;> (try simp)))

theorem execStage2Sealed_runs (f : SealFacts) (s : State) : Runs s (execStage2Sealed f s) := by
  exact ⟨_, rfl, Keeps.clears (by simp)⟩

theorem execStage3Ftl_runs (s : State) : Runs s (execStage3Ftl s) := by
  exact ⟨_, rfl, Keeps.clears (by simp)⟩

theorem execStrapCheck_runs (straps : Nat) (s : State) : Runs s (execStrapCheck straps s) := by
  exact ⟨_, rfl, Keeps.clears (by simp)⟩

theorem execBlockResetFlashChannel_runs (i : Nat) (s : State) : Runs s (execBlockResetFlashChannel i s) := by
  exact ⟨_, rfl, Keeps.clears (by simp)⟩

theorem execBlockResetCipherLane_runs (i : Nat) (s : State) : Runs s (execBlockResetCipherLane i s) := by
  exact ⟨_, rfl, Keeps.clears (by simp)⟩

theorem execBlockResetSoftDecoder_runs (i : Nat) (s : State) : Runs s (execBlockResetSoftDecoder i s) := by
  exact ⟨_, rfl, Keeps.clears (by simp)⟩

theorem execBlockResetPlacementEngine_runs (i : Nat) (s : State) : Runs s (execBlockResetPlacementEngine i s) := by
  exact ⟨_, rfl, Keeps.clears (by simp)⟩

theorem execBlockResetLoopEngine_runs (i : Nat) (s : State) : Runs s (execBlockResetLoopEngine i s) := by
  exact ⟨_, rfl, Keeps.clears (by simp)⟩

theorem execBlockResetMirrorLink_runs (s : State) : Runs s (execBlockResetMirrorLink s) := by
  exact ⟨_, rfl, Keeps.clears (by simp)⟩

theorem execBlockResetCascadePort_runs (i : Nat) (s : State) : Runs s (execBlockResetCascadePort i s) := by
  exact ⟨_, rfl, Keeps.clears (by simp)⟩

theorem execBlockResetTracePort_runs (s : State) : Runs s (execBlockResetTracePort s) := by
  exact ⟨_, rfl, Keeps.clears (by simp)⟩

theorem execBlockResetLoupe_runs (s : State) : Runs s (execBlockResetLoupe s) := by
  exact ⟨_, rfl, Keeps.clears (by simp)⟩

theorem execMaintenanceRequest_runs (value : Nat) (s : State) : Runs s (execMaintenanceRequest value s) := by
  exact ⟨_, rfl, Keeps.clears (by simp)⟩

theorem execBootFailureClear_runs (s : State) : Runs s (execBootFailureClear s) := by
  exact ⟨_, rfl, Keeps.clears (by simp)⟩

theorem execLogicBistStart_runs (s : State) : Runs s (execLogicBistStart s) := by
  exact ⟨_, rfl, Keeps.clears (by simp)⟩

theorem execLogicBistDone_runs (signatures : List Nat) (s : State) : Runs s (execLogicBistDone signatures s) := by
  unfold execLogicBistDone; refine ⟨_, rfl, id ?_⟩; (try dsimp only); (repeat' split) <;> first
    | (refine Keeps.clears ?_; simp; done)
    | exact raise_clears _ _ _
    | (refine (Keeps.clears ?_).trans (raise_clears _ _ _); simp; done)

theorem execOnlinePassStart_runs (s : State) : Runs s (execOnlinePassStart s) := by
  exact ⟨_, rfl, Keeps.clears (by simp)⟩

theorem execMemoryBistStep_runs (signature : Nat) (s : State) : Runs s (execMemoryBistStep signature s) := by
  exact ⟨_, rfl, Keeps.clears (by simp)⟩

theorem execDeviceSelfTestShort_runs (a : Adm) (failedLanes : List Nat) (s : State) : Runs s (execDeviceSelfTestShort a failedLanes s) := by
  exact ⟨_, rfl, Keeps.clears (by simp)⟩

theorem execDeviceSelfTestExtended_runs (a : Adm) (failedLanes : List Nat) (s : State) : Runs s (execDeviceSelfTestExtended a failedLanes s) := by
  exact ⟨_, rfl, Keeps.clears (by simp)⟩

theorem execLoupeTriggerPeriod_runs (trigger : Nat) (s : State) : Runs s (execLoupeTriggerPeriod trigger s) := by
  exact ⟨_, rfl, Keeps.clears (by simp)⟩

theorem execLoupeFlush_runs (s : State) : Runs s (execLoupeFlush s) := by
  exact ⟨_, rfl, Keeps.clears (by simp)⟩

theorem execLoupeEmpty_runs (s : State) : Runs s (execLoupeEmpty s) := by
  exact ⟨_, rfl, Keeps.clears (by simp)⟩

theorem execLoupeResume_runs (s : State) : Runs s (execLoupeResume s) := by
  exact ⟨_, rfl, Keeps.clears (by simp)⟩

theorem execAlertReleaseRead_runs (s : State) : Runs s (execAlertReleaseRead s) := by
  exact ⟨_, rfl, Keeps.clears (by simp)⟩

theorem execNamespaceCreate_runs (src : AdmSrc) (zoned : Bool) (size : Nat) (format : NsFormat) (parity : Nat) (place : NsPlace) (activeQuota openQuota : Nat) (reservedZero : Bool) (memberFree : List Nat) (s : State) : Runs s (execNamespaceCreate src zoned size format parity place activeQuota openQuota reservedZero memberFree s) := by
  unfold execNamespaceCreate; refine ⟨_, rfl, Keeps.clears ⟨?_, ?_, ?_⟩⟩ <;> (first | (simp; done) | ((try simp) <;> (repeat' split) <;> (try simp)))

theorem execNamespaceDelete_runs (src : AdmSrc) (nsid : Nat) (s : State) : Runs s (execNamespaceDelete src nsid s) := by
  exact ⟨_, rfl, Keeps.clears (by simp)⟩

theorem execNamespaceAttach_runs (a : Adm) (nsid : Nat) (fns : List Nat) (s : State) : Runs s (execNamespaceAttach a nsid fns s) := by
  refine ⟨_, rfl, Keeps.clears (withAdmin_keeps _ _ _ _ fun t => ?_)⟩
  (try dsimp only); (repeat' split) <;> simp

theorem execNamespaceDetach_runs (a : Adm) (nsid : Nat) (fns : List Nat) (s : State) : Runs s (execNamespaceDetach a nsid fns s) := by
  refine ⟨_, rfl, Keeps.clears (withAdmin_keeps _ _ _ _ fun t => ?_)⟩
  (try dsimp only); (repeat' split) <;> simp

theorem execFormatNvmNoSecureErase_runs (src : AdmSrc) (nsid : Nat) (format : NsFormat) (s : State) : Runs s (execFormatNvmNoSecureErase src nsid format s) := by
  exact ⟨_, rfl, Keeps.clears (by simp)⟩

theorem execFormatNvmUserDataErase_runs (src : AdmSrc) (nsid : Nat) (format : NsFormat) (s : State) : Runs s (execFormatNvmUserDataErase src nsid format s) := by
  exact ⟨_, rfl, Keeps.clears (by simp)⟩

theorem execFormatNvmCryptoErase_runs (src : AdmSrc) (nsid : Nat) (format : NsFormat) (s : State) : Runs s (execFormatNvmCryptoErase src nsid format s) := by
  exact ⟨_, rfl, Keeps.clears (by simp)⟩

theorem execSanitizeBlockErase_runs (src : AdmSrc) (s : State) : Runs s (execSanitizeBlockErase src s) := by
  exact ⟨_, rfl, Keeps.clears (by simp)⟩

theorem execSanitizeCryptoErase_runs (src : AdmSrc) (s : State) : Runs s (execSanitizeCryptoErase src s) := by
  exact ⟨_, rfl, Keeps.clears (by simp)⟩

theorem execSanitizeOverwrite_runs (a : Adm) (s : State) : Runs s (execSanitizeOverwrite a s) := by
  exact ⟨_, rfl, Keeps.clears (by simp)⟩

theorem execAbort_runs (a : Adm) (sq cid : Nat) (s : State) : Runs s (execAbort a sq cid s) := by
  refine ⟨_, rfl, Keeps.clears (withAdmin_keeps _ _ _ _ fun t => ?_)⟩
  (try dsimp only); (repeat' split) <;> simp

theorem execSetFeaturesFdp_runs (a : Adm) (group : Nat) (enable : Bool) (events : Option (Nat × Nat)) (s : State) : Runs s (execSetFeaturesFdp a group enable events s) := by
  unfold execSetFeaturesFdp; refine ⟨_, rfl, Keeps.clears ⟨?_, ?_, ?_⟩⟩ <;> (first | (simp; done) | ((try simp) <;> (repeat' split) <;> (try simp)))

theorem execAdmissionLedgerLog_runs (a : Adm) (position : Nat) (remap offsetType1 : Bool) (range : LogRange) (fetched : Option (Nat × List Nat)) (s : State) : Runs s (execAdmissionLedgerLog a position remap offsetType1 range fetched s) := by
  refine ⟨_, rfl, Keeps.clears ?_⟩
  dsimp only; split
  · split <;> simp
  · refine withAdmin_keeps _ _ _ _ fun t => ?_
    (repeat' split) <;> simp

theorem execMediaHealthLog_runs (a : Adm) (s : State) : Runs s (execMediaHealthLog a s) := by
  exact ⟨_, rfl, Keeps.clears (by simp)⟩

theorem execLensContractLog_runs (a : Adm) (lens : Nat) (s : State) : Runs s (execLensContractLog a lens s) := by
  exact ⟨_, rfl, Keeps.clears (by simp)⟩

theorem execLoupeLog_runs (a : Adm) (source offset length : Nat) (s : State) : Runs s (execLoupeLog a source offset length s) := by
  exact ⟨_, rfl, Keeps.clears (by simp)⟩

theorem execSmartHealthLog_runs (a : Adm) (retainEvent : Bool) (s : State) : Runs s (execSmartHealthLog a retainEvent s) := by
  exact ⟨_, rfl, Keeps.clears (by simp)⟩

theorem execChangedZoneListLog_runs (a : Adm) (nsid : Nat) (retainEvent : Bool) (s : State) : Runs s (execChangedZoneListLog a nsid retainEvent s) := by
  exact ⟨_, rfl, Keeps.clears (by simp)⟩

theorem execFdpLogs_runs (a : Adm) (which : Nat) (s : State) : Runs s (execFdpLogs a which s) := by
  refine ⟨_, rfl, Keeps.clears (withAdmin_keeps _ _ _ _ fun t => ?_)⟩
  (try dsimp only); (repeat' split) <;> simp

theorem execTelemetryLog_runs (a : Adm) (hostInitiated : Bool) (s : State) : Runs s (execTelemetryLog a hostInitiated s) := by
  exact ⟨_, rfl, Keeps.clears (by simp)⟩

theorem execDictRead_runs (who : Requester) (r : OdReq) (a : Option Adm) (s : State) : Runs s (execDictRead who r a s) := by
  exact ⟨_, rfl, Keeps.clears (dictRequest_keeps _ _ _ _ _ fun t => readOd_keeps _ _ _ _)⟩

theorem execDictReadStaged_runs (who : Requester) (r : OdReq) (a : Option Adm) (s : State) : Runs s (execDictReadStaged who r a s) := by
  exact ⟨_, rfl, Keeps.clears (dictRequest_keeps _ _ _ _ _ fun t => readOd_keeps _ _ _ _)⟩

theorem execDictDescribe_runs (who : Requester) (r : OdReq) (a : Option Adm) (s : State) : Runs s (execDictDescribe who r a s) := by
  exact ⟨_, rfl, Keeps.clears (dictRequest_keeps _ _ _ _ _ fun t => describeOd_keeps _ _ _)⟩

theorem execDictWrite_runs (q : CommitReq) (ops : List DictOp) (s : State) : Runs s (execDictWrite q ops s) := by
  unfold execDictWrite; refine ⟨_, rfl, id ?_⟩; (try dsimp only); (repeat' split) <;> first
    | (refine Keeps.clears ?_; simp; done)
    | exact runList_clears _ _ _ _
    | (refine (Keeps.clears ?_).trans (runList_clears _ _ _ _); simp; done)

theorem execCommit_runs (group : List CommitReq) (s : State) : Runs s (execCommit group s) := by
  refine ⟨_, rfl, id ?_⟩
  have f : ∀ (l : List CommitReq) (p : State × List Taken), Clears p.1 (l.foldl (fun (p : State × List Taken) q =>
      ((commitOne p.1 q).1, p.2 ++ [(commitOne p.1 q).2])) p).1 := by
    intro l; induction l with
    | nil => exact fun p => Keeps.clears (by simp)
    | cons q l ih => exact fun p => (commitOne_clears _ _).trans (ih (_, _))
  have h : ∀ l (m : List CommitReq), Clears s (answerGroup l (m.foldl (fun (p : State × List Taken) q =>
      ((commitOne p.1 q).1, p.2 ++ [(commitOne p.1 q).2])) ((groupOrder s (group.filter fun q => reaches s q.who).length
      (group.filter fun q => reaches s q.who)).1, [])).1) := fun l m =>
    ((groupOrder_keeps _ _ _).clears.trans (f m (_, []))).trans (answerGroup_keeps _ _).clears
  dsimp only; split
  · exact (h _ _).trans (raise_clears _ _ _)
  · exact h _ _

theorem execCommitDurable_runs (who : Requester) (leadStatus : Nat) (s : State) : Runs s (execCommitDurable who leadStatus s) := by
  refine ⟨_, rfl, id ?_⟩
  dsimp only; split
  · exact Keeps.clears (by simp)
  split
  · exact Keeps.clears (by simp)
  have h : ∀ t : State, Clears s t → ∀ a b, Clears s (commitAnswer t who a b) :=
    fun t k a b => k.trans (Keeps.clears (by simp))
  have r : ∀ t : State, Clears s t → ∀ q l n, Clears s (runList q l n t) := fun t k q l n => k.trans (runList_clears _ _ _ _)
  have d : ∀ t : State, Clears s t → ∀ q n a b, Clears s (listDone t q n a b) :=
    fun t k q n a b => k.trans (Keeps.clears (by simp))
  have c : ∀ t : State, Keeps s t → ∀ a, Clears s (commitEpoch t a) := fun t k a => k.clears.trans (commitEpoch_clears _ _)
  have v : ∀ t : State, Keeps s t → ∀ a, Clears s (saveKeys t a) := fun t k a => k.clears.trans (Keeps.clears (by simp))
  have i : ∀ (c : Prop) [Decidable c] a b, Clears s a → Clears s b → Clears s (if c then a else b) := by
    intro c _ a b ha hb; split <;> assumption
  apply i
  · refine r _ (h _ (i _ _ _ (i _ _ _ ?_ ?_) (i _ _ _ ?_ (i _ _ _ (c _ ?_ _) (v _ ?_ _)))) _ _) _ _ _ <;>
      first | (simp; done) | exact Keeps.clears (by simp)
  · refine d _ (h _ (i _ _ _ (i _ _ _ ?_ ?_) (i _ _ _ ?_ (i _ _ _ (c _ ?_ _) (v _ ?_ _)))) _ _) _ _ _ _ <;>
      first | (simp; done) | exact Keeps.clears (by simp)

theorem execDiscard_runs (who : Requester) (secured : Bool) (s : State) : Runs s (execDiscard who secured s) := by
  exact ⟨_, rfl, Keeps.clears (by simp)⟩

theorem execStagingSetExpiry_runs (endpoint : Nat) (s : State) : Runs s (execStagingSetExpiry endpoint s) := by
  exact ⟨_, rfl, Keeps.clears (by simp)⟩

theorem execDieScriptLoad_runs (q : CommitReq) (image channels : Nat) (s : State) : Runs s (execDieScriptLoad q image channels s) := by
  unfold execDieScriptLoad; refine ⟨_, rfl, id ?_⟩; (try dsimp only); (repeat' split) <;> first
    | (refine Keeps.clears ?_; simp; done)
    | exact runList_clears _ _ _ _
    | (refine (Keeps.clears ?_).trans (runList_clears _ _ _ _); simp; done)

theorem execDieReturn_runs (d : Nat) (s : State) : Runs s (execDieReturn d s) := by
  exact ⟨_, rfl, Keeps.clears (by simp)⟩

theorem execChannelReturn_runs (ch : Nat) (s : State) : Runs s (execChannelReturn ch s) := by
  exact ⟨_, rfl, Keeps.clears (by simp)⟩

theorem execPairAttach_runs (s : State) : Runs s (execPairAttach s) := by
  unfold execPairAttach; refine ⟨_, rfl, id ?_⟩; (try dsimp only); (repeat' split) <;> first
    | (refine Keeps.clears ?_; simp; done)
    | exact pairWrite_clears _ _
    | (refine (Keeps.clears ?_).trans (pairWrite_clears _ _); simp; done)

theorem execPairDetach_runs (s : State) : Runs s (execPairDetach s) := by
  unfold execPairDetach; refine ⟨_, rfl, id ?_⟩; (try dsimp only); (repeat' split) <;> first
    | (refine Keeps.clears ?_; simp; done)
    | exact pairWrite_clears _ _
    | (refine (Keeps.clears ?_).trans (pairWrite_clears _ _); simp; done)

theorem execHandover_runs (s : State) : Runs s (execHandover s) := by
  unfold execHandover; refine ⟨_, rfl, id ?_⟩; (try dsimp only); (repeat' split) <;> first
    | (refine Keeps.clears ?_; simp; done)
    | exact pairWrite_clears _ _
    | (refine (Keeps.clears ?_).trans (pairWrite_clears _ _); simp; done)

theorem execDiscardHistoryAndAttach_runs (s : State) : Runs s (execDiscardHistoryAndAttach s) := by
  unfold execDiscardHistoryAndAttach; refine ⟨_, rfl, id ?_⟩; (try dsimp only); (repeat' split) <;> first
    | (refine Keeps.clears ?_; simp; done)
    | exact pairWrite_clears _ _
    | (refine (Keeps.clears ?_).trans (pairWrite_clears _ _); simp; done)

theorem execClearPairing_runs (s : State) : Runs s (execClearPairing s) := by
  unfold execClearPairing; refine ⟨_, rfl, id ?_⟩; (try dsimp only); (repeat' split) <;> first
    | (refine Keeps.clears ?_; simp; done)
    | exact pairWrite_clears _ _
    | (refine (Keeps.clears ?_).trans (pairWrite_clears _ _); simp; done)

theorem execSetEndpointId_runs (b eid : Nat) (s : State) : Runs s (execSetEndpointId b eid s) := by
  exact ⟨_, rfl, Keeps.clears (by simp)⟩

theorem execGetEndpointId_runs (b : Nat) (s : State) : Runs s (execGetEndpointId b s) := by
  exact ⟨_, rfl, Keeps.clears (by simp)⟩

theorem execGetMctpVersionSupport_runs (b : Nat) (s : State) : Runs s (execGetMctpVersionSupport b s) := by
  exact ⟨_, rfl, Keeps.clears (by simp)⟩

theorem execGetMessageTypeSupport_runs (b : Nat) (s : State) : Runs s (execGetMessageTypeSupport b s) := by
  exact ⟨_, rfl, Keeps.clears (by simp)⟩

theorem execGetVendorDefinedMessageSupport_runs (b : Nat) (s : State) : Runs s (execGetVendorDefinedMessageSupport b s) := by
  exact ⟨_, rfl, Keeps.clears (by simp)⟩

theorem execNvmeMiMessage_runs (b : Nat) (m : MiCmd) (s : State) : Runs s (execNvmeMiMessage b m s) := by
  refine ⟨_, rfl, id ?_⟩
  split
  · exact Keeps.clears (by simp)
  cases m with
  | dictWrite ops secured twinSpares =>
    dsimp only; split
    · exact Keeps.clears (by simp)
    split
    · exact runList_clears _ _ _ _
    · exact Keeps.clears (by simp)
  | dictRead op =>
    refine Keeps.clears ?_
    cases op with
    | read r => exact dictRequest_keeps _ _ _ _ _ fun t => readOd_keeps _ _ _ _
    | readStaged r => exact dictRequest_keeps _ _ _ _ _ fun t => readOd_keeps _ _ _ _
    | describe r => exact dictRequest_keeps _ _ _ _ _ fun t => describeOd_keeps _ _ _
    | write r v => dsimp only; simp
    | other code r => dsimp only; (repeat' split) <;> simp
  | _ => refine Keeps.clears ?_; dsimp only; (repeat' split) <;> simp

theorem execSetdasa_runs (bus static address : Nat) (s : State) : Runs s (execSetdasa bus static address s) := by
  exact ⟨_, rfl, Keeps.clears (by simp)⟩

theorem execEntdaa_runs (bus address : Nat) (s : State) : Runs s (execEntdaa bus address s) := by
  exact ⟨_, rfl, Keeps.clears (by simp)⟩

theorem execTargetResetPattern_runs (bus : Nat) (s : State) : Runs s (execTargetResetPattern bus s) := by
  exact ⟨_, rfl, Keeps.clears (by simp)⟩

theorem execSmbusSclTimeout_runs (bus : Nat) (s : State) : Runs s (execSmbusSclTimeout bus s) := by
  exact ⟨_, rfl, Keeps.clears (by simp)⟩

theorem execSupplyWithinRange_runs (supply : Nat) (s : State) : Runs s (execSupplyWithinRange supply s) := by
  exact ⟨_, rfl, Keeps.clears (by simp)⟩

theorem execThermalTripRelease_runs (s : State) : Runs s (execThermalTripRelease s) := by
  exact ⟨_, rfl, Keeps.clears (by simp)⟩

theorem execFastRetrainDone_runs (port : Nat) (s : State) : Runs s (execFastRetrainDone port s) := by
  exact ⟨_, rfl, Keeps.clears (by simp)⟩

theorem execFrameCheckFailure_runs (port seq : Nat) (s : State) : Runs s (execFrameCheckFailure port seq s) := by
  exact ⟨_, rfl, Keeps.clears (by simp)⟩

theorem execFlitCheckFailure_runs (port : Nat) (replayOk : Bool) (s : State) : Runs s (execFlitCheckFailure port replayOk s) := by
  exact ⟨_, rfl, Keeps.clears (by simp)⟩

theorem execPeriodicChannelRetraining_runs (ch rate : Nat) (done : Bool) (s : State) : Runs s (execPeriodicChannelRetraining ch rate done s) := by
  exact ⟨_, rfl, Keeps.clears (by simp)⟩

theorem execKorlaCoreMachineCheck_runs (s : State) : Runs s (execKorlaCoreMachineCheck s) := by
  unfold execKorlaCoreMachineCheck; refine ⟨_, rfl, id ?_⟩; (try dsimp only); (repeat' split) <;> first
    | (refine Keeps.clears ?_; simp; done)
    | exact raise_clears _ _ _
    | (refine (Keeps.clears ?_).trans (raise_clears _ _ _); simp; done)

theorem execFtlFirmwareAssertion_runs (s : State) : Runs s (execFtlFirmwareAssertion s) := by
  unfold execFtlFirmwareAssertion; refine ⟨_, rfl, id ?_⟩; (try dsimp only); (repeat' split) <;> first
    | (refine Keeps.clears ?_; simp; done)
    | exact raise_clears _ _ _
    | (refine (Keeps.clears ?_).trans (raise_clears _ _ _); simp; done)

theorem execHdrEntry_runs (bus : Nat) (s : State) : Runs s (execHdrEntry bus s) := by
  exact ⟨_, rfl, Keeps.clears (by simp)⟩

theorem execHdrExitPattern_runs (bus : Nat) (s : State) : Runs s (execHdrExitPattern bus s) := by
  exact ⟨_, rfl, Keeps.clears (by simp)⟩

theorem execEndSession_runs (b : Binding) (s : State) : Runs s (execEndSession b s) := by
  exact ⟨_, rfl, Keeps.clears (by simp)⟩

theorem execAsynchronousEventRequest_runs (a : Adm) (s : State) : Runs s (execAsynchronousEventRequest a s) := by
  refine ⟨_, rfl, Keeps.clears (withAdmin_keeps _ _ _ _ fun t => ?_)⟩
  (try dsimp only); (repeat' split) <;> simp


theorem dramGrant_moves (ch : Nat) (requests : List DramReq) (p : PathRes) (s t : State)
    (h : execDramRequestGrant ch requests p s = .next t) : Moves s t := by
  unfold execDramRequestGrant at h; dsimp only at h
  split at h
  · cases h; exact Keeps.moves (by simp)
  split at h
  · cases h; exact Keeps.moves (by simp)
  split at h
  · cases h
  split at h
  · cases h; exact Keeps.moves (by simp)
  · cases h
    have k : ∀ c v r, Moves s (dramServe (setDchan s c v) r p) :=
      fun c v r => (Keeps.moves (by simp)).trans (dramServe_moves _ r p)
    exact k _ _ _

theorem scrubRead_moves (address : Nat) (p : PathRes) (lastOfPass : Bool) (s t : State)
    (h : execScrubRead address p lastOfPass s = .next t) : Moves s t := by
  unfold execScrubRead at h; dsimp only at h
  split at h
  · cases h
  split at h
  · cases h; exact Keeps.moves (by simp)
  · cases h
    refine Clears.moves ?_
    have a : ∀ u, Keeps s u → ∀ l b, Clears s (pathCorrected u address l b) :=
      fun u k l b => k.clears.trans (pathCorrected_clears _ _ _ _)
    have b : ∀ u, Keeps s u → ∀ x, Clears s (pathUncorrectable u address x) :=
      fun u k x => k.clears.trans (pathUncorrectable_clears _ _ _)
    cases p with
    | clean => refine Keeps.clears ?_; dsimp only; (repeat' split) <;> simp
    | corrected x => refine a _ ?_ _ _; (repeat' split) <;> simp
    | uncorrectable x => refine b _ ?_ _; (repeat' split) <;> simp

theorem dramInitBlock_moves (block : Nat) (s t : State) (h : execDramInitBlock block s = .next t) : Moves s t := by
  unfold execDramInitBlock at h; split at h
  · cases h
  · cases h; exact initBlock_moves _ _

end Sys2Proof.Machine
end

