-- ==== Sys2Proof/Laws/State.lean ====
section
/-! SUPPORT. What each update of the state leaves as it was, one lemma per field, and what a read after an update of
another part gives; each is true by unfolding the update. The values written back are in Kv.lean. -/

namespace Sys2Proof.Machine

open Sys2Proof

/-! odSet -/

@[simp] theorem odSet_pending (s : State) (o e i v : Nat) : (odSet s o e i v).pending = s.pending := rfl
@[simp] theorem odSet_free (s : State) (o e i v : Nat) : (odSet s o e i v).free = s.free := rfl
@[simp] theorem odSet_host (s : State) (o e i v : Nat) : (odSet s o e i v).host = s.host := rfl
@[simp] theorem odSet_adm (s : State) (o e i v : Nat) : (odSet s o e i v).adm = s.adm := rfl
@[simp] theorem odSet_zones (s : State) (o e i v : Nat) : (odSet s o e i v).zones = s.zones := rfl
@[simp] theorem odSet_nss (s : State) (o e i v : Nat) : (odSet s o e i v).nss = s.nss := rfl
@[simp] theorem odSet_rings (s : State) (o e i v : Nat) : (odSet s o e i v).rings = s.rings := rfl
@[simp] theorem odSet_jrn (s : State) (o e i v : Nat) : (odSet s o e i v).jrn = s.jrn := rfl
@[simp] theorem odSet_win (s : State) (o e i v : Nat) : (odSet s o e i v).win = s.win := rfl
@[simp] theorem odSet_dies (s : State) (o e i v : Nat) : (odSet s o e i v).dies = s.dies := rfl
@[simp] theorem odSet_reads (s : State) (o e i v : Nat) : (odSet s o e i v).reads = s.reads := rfl
@[simp] theorem odSet_sched (s : State) (o e i v : Nat) : (odSet s o e i v).sched = s.sched := rfl
@[simp] theorem odSet_groups (s : State) (o e i v : Nat) : (odSet s o e i v).groups = s.groups := rfl
@[simp] theorem odSet_chans (s : State) (o e i v : Nat) : (odSet s o e i v).chans = s.chans := rfl
@[simp] theorem odSet_ctxs (s : State) (o e i v : Nat) : (odSet s o e i v).ctxs = s.ctxs := rfl
@[simp] theorem odSet_power (s : State) (o e i v : Nat) : (odSet s o e i v).power = s.power := rfl
@[simp] theorem odSet_pair (s : State) (o e i v : Nat) : (odSet s o e i v).pair = s.pair := rfl
@[simp] theorem odSet_casc (s : State) (o e i v : Nat) : (odSet s o e i v).casc = s.casc := rfl
@[simp] theorem odSet_ciph (s : State) (o e i v : Nat) : (odSet s o e i v).ciph = s.ciph := rfl
@[simp] theorem odSet_pwr (s : State) (o e i v : Nat) : (odSet s o e i v).pwr = s.pwr := rfl
@[simp] theorem odSet_loop (s : State) (o e i v : Nat) : (odSet s o e i v).loop = s.loop := rfl
@[simp] theorem odSet_dram (s : State) (o e i v : Nat) : (odSet s o e i v).dram = s.dram := rfl
@[simp] theorem odSet_pools (s : State) (o e i v : Nat) : (odSet s o e i v).pools = s.pools := rfl
@[simp] theorem odSet_rst (s : State) (o e i v : Nat) : (odSet s o e i v).rst = s.rst := rfl
@[simp] theorem odSet_bist (s : State) (o e i v : Nat) : (odSet s o e i v).bist = s.bist := rfl
@[simp] theorem odSet_loupe (s : State) (o e i v : Nat) : (odSet s o e i v).loupe = s.loupe := rfl
@[simp] theorem odSet_dict_sets (s : State) (o e i v : Nat) : (odSet s o e i v).dict.sets = s.dict.sets := rfl
@[simp] theorem odSet_dict_answers (s : State) (o e i v : Nat) : (odSet s o e i v).dict.answers = s.dict.answers := rfl
@[simp] theorem odSet_dict_rankPtr (s : State) (o e i v : Nat) : (odSet s o e i v).dict.rankPtr = s.dict.rankPtr := rfl
@[simp] theorem odSet_dict_epochs (s : State) (o e i v : Nat) : (odSet s o e i v).dict.epochs = s.dict.epochs := rfl
@[simp] theorem odSet_dict_waitEpoch (s : State) (o e i v : Nat) : (odSet s o e i v).dict.waitEpoch = s.dict.waitEpoch := rfl
@[simp] theorem odSet_dict_durable (s : State) (o e i v : Nat) : (odSet s o e i v).dict.durable = s.dict.durable := rfl
@[simp] theorem odSet_dict_copy (s : State) (o e i v : Nat) : (odSet s o e i v).dict.copy = s.dict.copy := rfl
@[simp] theorem odSet_mgmt (s : State) (o e i v : Nat) : (odSet s o e i v).mgmt = s.mgmt := rfl
@[simp] theorem odSet_pins (s : State) (o e i v : Nat) : (odSet s o e i v).pins = s.pins := rfl
@[simp] theorem odSet_health (s : State) (o e i v : Nat) : (odSet s o e i v).health = s.health := rfl
@[simp] theorem odSet_toggles (s : State) (o e i v : Nat) : (odSet s o e i v).toggles = s.toggles := rfl
@[simp] theorem odSet_zone (s : State) (o e i v : Nat) (k : Nat) : zone (odSet s o e i v) k = zone s k := rfl
@[simp] theorem odSet_ring (s : State) (o e i v : Nat) (k : Nat) : ring (odSet s o e i v) k = ring s k := rfl
@[simp] theorem odSet_die (s : State) (o e i v : Nat) (k : Nat) : die (odSet s o e i v) k = die s k := rfl
@[simp] theorem odSet_grp (s : State) (o e i v : Nat) (k : Nat) : grp (odSet s o e i v) k = grp s k := rfl
@[simp] theorem odSet_chan (s : State) (o e i v : Nat) (k : Nat) : chan (odSet s o e i v) k = chan s k := rfl
@[simp] theorem odSet_ctx (s : State) (o e i v : Nat) (k : Nat) : ctx (odSet s o e i v) k = ctx s k := rfl
@[simp] theorem odSet_fnc (s : State) (o e i v : Nat) (k : Nat) : fnc (odSet s o e i v) k = fnc s k := rfl
@[simp] theorem odSet_member (s : State) (o e i v : Nat) (k : Nat) : member (odSet s o e i v) k = member s k := rfl
@[simp] theorem odSet_dchan (s : State) (o e i v : Nat) (k : Nat) : dchan (odSet s o e i v) k = dchan s k := rfl
@[simp] theorem odSet_pool (s : State) (o e i v : Nat) (k : Nat) : pool (odSet s o e i v) k = pool s k := rfl
@[simp] theorem odSet_eng (s : State) (o e i v : Nat) (k : Nat) : eng (odSet s o e i v) k = eng s k := rfl
@[simp] theorem odSet_nsOpt (s : State) (o e i v : Nat) (k : Nat) : ns? (odSet s o e i v) k = ns? s k := rfl
@[simp] theorem odSet_cmdOpt (s : State) (o e i v : Nat) (k : Nat) : cmd? (odSet s o e i v) k = cmd? s k := rfl

/-! odSave -/

@[simp] theorem odSave_pending (s : State) (o e i v : Nat) : (odSave s o e i v).pending = s.pending := rfl
@[simp] theorem odSave_free (s : State) (o e i v : Nat) : (odSave s o e i v).free = s.free := rfl
@[simp] theorem odSave_host (s : State) (o e i v : Nat) : (odSave s o e i v).host = s.host := rfl
@[simp] theorem odSave_adm (s : State) (o e i v : Nat) : (odSave s o e i v).adm = s.adm := rfl
@[simp] theorem odSave_zones (s : State) (o e i v : Nat) : (odSave s o e i v).zones = s.zones := rfl
@[simp] theorem odSave_nss (s : State) (o e i v : Nat) : (odSave s o e i v).nss = s.nss := rfl
@[simp] theorem odSave_rings (s : State) (o e i v : Nat) : (odSave s o e i v).rings = s.rings := rfl
@[simp] theorem odSave_jrn (s : State) (o e i v : Nat) : (odSave s o e i v).jrn = s.jrn := rfl
@[simp] theorem odSave_win (s : State) (o e i v : Nat) : (odSave s o e i v).win = s.win := rfl
@[simp] theorem odSave_dies (s : State) (o e i v : Nat) : (odSave s o e i v).dies = s.dies := rfl
@[simp] theorem odSave_reads (s : State) (o e i v : Nat) : (odSave s o e i v).reads = s.reads := rfl
@[simp] theorem odSave_sched (s : State) (o e i v : Nat) : (odSave s o e i v).sched = s.sched := rfl
@[simp] theorem odSave_groups (s : State) (o e i v : Nat) : (odSave s o e i v).groups = s.groups := rfl
@[simp] theorem odSave_chans (s : State) (o e i v : Nat) : (odSave s o e i v).chans = s.chans := rfl
@[simp] theorem odSave_ctxs (s : State) (o e i v : Nat) : (odSave s o e i v).ctxs = s.ctxs := rfl
@[simp] theorem odSave_power (s : State) (o e i v : Nat) : (odSave s o e i v).power = s.power := rfl
@[simp] theorem odSave_pair (s : State) (o e i v : Nat) : (odSave s o e i v).pair = s.pair := rfl
@[simp] theorem odSave_casc (s : State) (o e i v : Nat) : (odSave s o e i v).casc = s.casc := rfl
@[simp] theorem odSave_ciph (s : State) (o e i v : Nat) : (odSave s o e i v).ciph = s.ciph := rfl
@[simp] theorem odSave_pwr (s : State) (o e i v : Nat) : (odSave s o e i v).pwr = s.pwr := rfl
@[simp] theorem odSave_loop (s : State) (o e i v : Nat) : (odSave s o e i v).loop = s.loop := rfl
@[simp] theorem odSave_dram (s : State) (o e i v : Nat) : (odSave s o e i v).dram = s.dram := rfl
@[simp] theorem odSave_pools (s : State) (o e i v : Nat) : (odSave s o e i v).pools = s.pools := rfl
@[simp] theorem odSave_rst (s : State) (o e i v : Nat) : (odSave s o e i v).rst = s.rst := rfl
@[simp] theorem odSave_bist (s : State) (o e i v : Nat) : (odSave s o e i v).bist = s.bist := rfl
@[simp] theorem odSave_loupe (s : State) (o e i v : Nat) : (odSave s o e i v).loupe = s.loupe := rfl
@[simp] theorem odSave_dict_sets (s : State) (o e i v : Nat) : (odSave s o e i v).dict.sets = s.dict.sets := rfl
@[simp] theorem odSave_dict_answers (s : State) (o e i v : Nat) : (odSave s o e i v).dict.answers = s.dict.answers := rfl
@[simp] theorem odSave_dict_rankPtr (s : State) (o e i v : Nat) : (odSave s o e i v).dict.rankPtr = s.dict.rankPtr := rfl
@[simp] theorem odSave_dict_epochs (s : State) (o e i v : Nat) : (odSave s o e i v).dict.epochs = s.dict.epochs := rfl
@[simp] theorem odSave_dict_waitEpoch (s : State) (o e i v : Nat) : (odSave s o e i v).dict.waitEpoch = s.dict.waitEpoch := rfl
@[simp] theorem odSave_dict_copy (s : State) (o e i v : Nat) : (odSave s o e i v).dict.copy = s.dict.copy := rfl
@[simp] theorem odSave_mgmt (s : State) (o e i v : Nat) : (odSave s o e i v).mgmt = s.mgmt := rfl
@[simp] theorem odSave_pins (s : State) (o e i v : Nat) : (odSave s o e i v).pins = s.pins := rfl
@[simp] theorem odSave_health (s : State) (o e i v : Nat) : (odSave s o e i v).health = s.health := rfl
@[simp] theorem odSave_toggles (s : State) (o e i v : Nat) : (odSave s o e i v).toggles = s.toggles := rfl
@[simp] theorem odSave_zone (s : State) (o e i v : Nat) (k : Nat) : zone (odSave s o e i v) k = zone s k := rfl
@[simp] theorem odSave_ring (s : State) (o e i v : Nat) (k : Nat) : ring (odSave s o e i v) k = ring s k := rfl
@[simp] theorem odSave_die (s : State) (o e i v : Nat) (k : Nat) : die (odSave s o e i v) k = die s k := rfl
@[simp] theorem odSave_grp (s : State) (o e i v : Nat) (k : Nat) : grp (odSave s o e i v) k = grp s k := rfl
@[simp] theorem odSave_chan (s : State) (o e i v : Nat) (k : Nat) : chan (odSave s o e i v) k = chan s k := rfl
@[simp] theorem odSave_ctx (s : State) (o e i v : Nat) (k : Nat) : ctx (odSave s o e i v) k = ctx s k := rfl
@[simp] theorem odSave_fnc (s : State) (o e i v : Nat) (k : Nat) : fnc (odSave s o e i v) k = fnc s k := rfl
@[simp] theorem odSave_member (s : State) (o e i v : Nat) (k : Nat) : member (odSave s o e i v) k = member s k := rfl
@[simp] theorem odSave_dchan (s : State) (o e i v : Nat) (k : Nat) : dchan (odSave s o e i v) k = dchan s k := rfl
@[simp] theorem odSave_pool (s : State) (o e i v : Nat) (k : Nat) : pool (odSave s o e i v) k = pool s k := rfl
@[simp] theorem odSave_eng (s : State) (o e i v : Nat) (k : Nat) : eng (odSave s o e i v) k = eng s k := rfl
@[simp] theorem odSave_nsOpt (s : State) (o e i v : Nat) (k : Nat) : ns? (odSave s o e i v) k = ns? s k := rfl
@[simp] theorem odSave_cmdOpt (s : State) (o e i v : Nat) (k : Nat) : cmd? (odSave s o e i v) k = cmd? s k := rfl

/-! odBump -/

@[simp] theorem odBump_pending (s : State) (o e i n : Nat) : (odBump s o e i n).pending = s.pending := rfl
@[simp] theorem odBump_free (s : State) (o e i n : Nat) : (odBump s o e i n).free = s.free := rfl
@[simp] theorem odBump_host (s : State) (o e i n : Nat) : (odBump s o e i n).host = s.host := rfl
@[simp] theorem odBump_adm (s : State) (o e i n : Nat) : (odBump s o e i n).adm = s.adm := rfl
@[simp] theorem odBump_zones (s : State) (o e i n : Nat) : (odBump s o e i n).zones = s.zones := rfl
@[simp] theorem odBump_nss (s : State) (o e i n : Nat) : (odBump s o e i n).nss = s.nss := rfl
@[simp] theorem odBump_rings (s : State) (o e i n : Nat) : (odBump s o e i n).rings = s.rings := rfl
@[simp] theorem odBump_jrn (s : State) (o e i n : Nat) : (odBump s o e i n).jrn = s.jrn := rfl
@[simp] theorem odBump_win (s : State) (o e i n : Nat) : (odBump s o e i n).win = s.win := rfl
@[simp] theorem odBump_dies (s : State) (o e i n : Nat) : (odBump s o e i n).dies = s.dies := rfl
@[simp] theorem odBump_reads (s : State) (o e i n : Nat) : (odBump s o e i n).reads = s.reads := rfl
@[simp] theorem odBump_sched (s : State) (o e i n : Nat) : (odBump s o e i n).sched = s.sched := rfl
@[simp] theorem odBump_groups (s : State) (o e i n : Nat) : (odBump s o e i n).groups = s.groups := rfl
@[simp] theorem odBump_chans (s : State) (o e i n : Nat) : (odBump s o e i n).chans = s.chans := rfl
@[simp] theorem odBump_ctxs (s : State) (o e i n : Nat) : (odBump s o e i n).ctxs = s.ctxs := rfl
@[simp] theorem odBump_power (s : State) (o e i n : Nat) : (odBump s o e i n).power = s.power := rfl
@[simp] theorem odBump_pair (s : State) (o e i n : Nat) : (odBump s o e i n).pair = s.pair := rfl
@[simp] theorem odBump_casc (s : State) (o e i n : Nat) : (odBump s o e i n).casc = s.casc := rfl
@[simp] theorem odBump_ciph (s : State) (o e i n : Nat) : (odBump s o e i n).ciph = s.ciph := rfl
@[simp] theorem odBump_pwr (s : State) (o e i n : Nat) : (odBump s o e i n).pwr = s.pwr := rfl
@[simp] theorem odBump_loop (s : State) (o e i n : Nat) : (odBump s o e i n).loop = s.loop := rfl
@[simp] theorem odBump_dram (s : State) (o e i n : Nat) : (odBump s o e i n).dram = s.dram := rfl
@[simp] theorem odBump_pools (s : State) (o e i n : Nat) : (odBump s o e i n).pools = s.pools := rfl
@[simp] theorem odBump_rst (s : State) (o e i n : Nat) : (odBump s o e i n).rst = s.rst := rfl
@[simp] theorem odBump_bist (s : State) (o e i n : Nat) : (odBump s o e i n).bist = s.bist := rfl
@[simp] theorem odBump_loupe (s : State) (o e i n : Nat) : (odBump s o e i n).loupe = s.loupe := rfl
@[simp] theorem odBump_dict_sets (s : State) (o e i n : Nat) : (odBump s o e i n).dict.sets = s.dict.sets := rfl
@[simp] theorem odBump_dict_answers (s : State) (o e i n : Nat) : (odBump s o e i n).dict.answers = s.dict.answers := rfl
@[simp] theorem odBump_dict_rankPtr (s : State) (o e i n : Nat) : (odBump s o e i n).dict.rankPtr = s.dict.rankPtr := rfl
@[simp] theorem odBump_dict_epochs (s : State) (o e i n : Nat) : (odBump s o e i n).dict.epochs = s.dict.epochs := rfl
@[simp] theorem odBump_dict_waitEpoch (s : State) (o e i n : Nat) : (odBump s o e i n).dict.waitEpoch = s.dict.waitEpoch := rfl
@[simp] theorem odBump_dict_durable (s : State) (o e i n : Nat) : (odBump s o e i n).dict.durable = s.dict.durable := rfl
@[simp] theorem odBump_dict_copy (s : State) (o e i n : Nat) : (odBump s o e i n).dict.copy = s.dict.copy := rfl
@[simp] theorem odBump_mgmt (s : State) (o e i n : Nat) : (odBump s o e i n).mgmt = s.mgmt := rfl
@[simp] theorem odBump_pins (s : State) (o e i n : Nat) : (odBump s o e i n).pins = s.pins := rfl
@[simp] theorem odBump_health (s : State) (o e i n : Nat) : (odBump s o e i n).health = s.health := rfl
@[simp] theorem odBump_toggles (s : State) (o e i n : Nat) : (odBump s o e i n).toggles = s.toggles := rfl
@[simp] theorem odBump_zone (s : State) (o e i n : Nat) (k : Nat) : zone (odBump s o e i n) k = zone s k := rfl
@[simp] theorem odBump_ring (s : State) (o e i n : Nat) (k : Nat) : ring (odBump s o e i n) k = ring s k := rfl
@[simp] theorem odBump_die (s : State) (o e i n : Nat) (k : Nat) : die (odBump s o e i n) k = die s k := rfl
@[simp] theorem odBump_grp (s : State) (o e i n : Nat) (k : Nat) : grp (odBump s o e i n) k = grp s k := rfl
@[simp] theorem odBump_chan (s : State) (o e i n : Nat) (k : Nat) : chan (odBump s o e i n) k = chan s k := rfl
@[simp] theorem odBump_ctx (s : State) (o e i n : Nat) (k : Nat) : ctx (odBump s o e i n) k = ctx s k := rfl
@[simp] theorem odBump_fnc (s : State) (o e i n : Nat) (k : Nat) : fnc (odBump s o e i n) k = fnc s k := rfl
@[simp] theorem odBump_member (s : State) (o e i n : Nat) (k : Nat) : member (odBump s o e i n) k = member s k := rfl
@[simp] theorem odBump_dchan (s : State) (o e i n : Nat) (k : Nat) : dchan (odBump s o e i n) k = dchan s k := rfl
@[simp] theorem odBump_pool (s : State) (o e i n : Nat) (k : Nat) : pool (odBump s o e i n) k = pool s k := rfl
@[simp] theorem odBump_eng (s : State) (o e i n : Nat) (k : Nat) : eng (odBump s o e i n) k = eng s k := rfl
@[simp] theorem odBump_nsOpt (s : State) (o e i n : Nat) (k : Nat) : ns? (odBump s o e i n) k = ns? s k := rfl
@[simp] theorem odBump_cmdOpt (s : State) (o e i n : Nat) (k : Nat) : cmd? (odBump s o e i n) k = cmd? s k := rfl

/-! setZone -/

@[simp] theorem setZone_pending (s : State) (z : Nat) (v : Zone) : (setZone s z v).pending = s.pending := rfl
@[simp] theorem setZone_free (s : State) (z : Nat) (v : Zone) : (setZone s z v).free = s.free := rfl
@[simp] theorem setZone_host (s : State) (z : Nat) (v : Zone) : (setZone s z v).host = s.host := rfl
@[simp] theorem setZone_adm (s : State) (z : Nat) (v : Zone) : (setZone s z v).adm = s.adm := rfl
@[simp] theorem setZone_nss (s : State) (z : Nat) (v : Zone) : (setZone s z v).nss = s.nss := rfl
@[simp] theorem setZone_rings (s : State) (z : Nat) (v : Zone) : (setZone s z v).rings = s.rings := rfl
@[simp] theorem setZone_jrn (s : State) (z : Nat) (v : Zone) : (setZone s z v).jrn = s.jrn := rfl
@[simp] theorem setZone_win (s : State) (z : Nat) (v : Zone) : (setZone s z v).win = s.win := rfl
@[simp] theorem setZone_dies (s : State) (z : Nat) (v : Zone) : (setZone s z v).dies = s.dies := rfl
@[simp] theorem setZone_reads (s : State) (z : Nat) (v : Zone) : (setZone s z v).reads = s.reads := rfl
@[simp] theorem setZone_sched (s : State) (z : Nat) (v : Zone) : (setZone s z v).sched = s.sched := rfl
@[simp] theorem setZone_groups (s : State) (z : Nat) (v : Zone) : (setZone s z v).groups = s.groups := rfl
@[simp] theorem setZone_chans (s : State) (z : Nat) (v : Zone) : (setZone s z v).chans = s.chans := rfl
@[simp] theorem setZone_ctxs (s : State) (z : Nat) (v : Zone) : (setZone s z v).ctxs = s.ctxs := rfl
@[simp] theorem setZone_power (s : State) (z : Nat) (v : Zone) : (setZone s z v).power = s.power := rfl
@[simp] theorem setZone_pair (s : State) (z : Nat) (v : Zone) : (setZone s z v).pair = s.pair := rfl
@[simp] theorem setZone_casc (s : State) (z : Nat) (v : Zone) : (setZone s z v).casc = s.casc := rfl
@[simp] theorem setZone_ciph (s : State) (z : Nat) (v : Zone) : (setZone s z v).ciph = s.ciph := rfl
@[simp] theorem setZone_pwr (s : State) (z : Nat) (v : Zone) : (setZone s z v).pwr = s.pwr := rfl
@[simp] theorem setZone_loop (s : State) (z : Nat) (v : Zone) : (setZone s z v).loop = s.loop := rfl
@[simp] theorem setZone_dram (s : State) (z : Nat) (v : Zone) : (setZone s z v).dram = s.dram := rfl
@[simp] theorem setZone_pools (s : State) (z : Nat) (v : Zone) : (setZone s z v).pools = s.pools := rfl
@[simp] theorem setZone_rst (s : State) (z : Nat) (v : Zone) : (setZone s z v).rst = s.rst := rfl
@[simp] theorem setZone_bist (s : State) (z : Nat) (v : Zone) : (setZone s z v).bist = s.bist := rfl
@[simp] theorem setZone_loupe (s : State) (z : Nat) (v : Zone) : (setZone s z v).loupe = s.loupe := rfl
@[simp] theorem setZone_dict (s : State) (z : Nat) (v : Zone) : (setZone s z v).dict = s.dict := rfl
@[simp] theorem setZone_mgmt (s : State) (z : Nat) (v : Zone) : (setZone s z v).mgmt = s.mgmt := rfl
@[simp] theorem setZone_pins (s : State) (z : Nat) (v : Zone) : (setZone s z v).pins = s.pins := rfl
@[simp] theorem setZone_health (s : State) (z : Nat) (v : Zone) : (setZone s z v).health = s.health := rfl
@[simp] theorem setZone_toggles (s : State) (z : Nat) (v : Zone) : (setZone s z v).toggles = s.toggles := rfl
@[simp] theorem setZone_ring (s : State) (z : Nat) (v : Zone) (k : Nat) : ring (setZone s z v) k = ring s k := rfl
@[simp] theorem setZone_die (s : State) (z : Nat) (v : Zone) (k : Nat) : die (setZone s z v) k = die s k := rfl
@[simp] theorem setZone_grp (s : State) (z : Nat) (v : Zone) (k : Nat) : grp (setZone s z v) k = grp s k := rfl
@[simp] theorem setZone_chan (s : State) (z : Nat) (v : Zone) (k : Nat) : chan (setZone s z v) k = chan s k := rfl
@[simp] theorem setZone_ctx (s : State) (z : Nat) (v : Zone) (k : Nat) : ctx (setZone s z v) k = ctx s k := rfl
@[simp] theorem setZone_fnc (s : State) (z : Nat) (v : Zone) (k : Nat) : fnc (setZone s z v) k = fnc s k := rfl
@[simp] theorem setZone_member (s : State) (z : Nat) (v : Zone) (k : Nat) : member (setZone s z v) k = member s k := rfl
@[simp] theorem setZone_dchan (s : State) (z : Nat) (v : Zone) (k : Nat) : dchan (setZone s z v) k = dchan s k := rfl
@[simp] theorem setZone_pool (s : State) (z : Nat) (v : Zone) (k : Nat) : pool (setZone s z v) k = pool s k := rfl
@[simp] theorem setZone_eng (s : State) (z : Nat) (v : Zone) (k : Nat) : eng (setZone s z v) k = eng s k := rfl
@[simp] theorem setZone_nsOpt (s : State) (z : Nat) (v : Zone) (k : Nat) : ns? (setZone s z v) k = ns? s k := rfl
@[simp] theorem setZone_cmdOpt (s : State) (z : Nat) (v : Zone) (k : Nat) : cmd? (setZone s z v) k = cmd? s k := rfl
@[simp] theorem setZone_od (s : State) (z : Nat) (v : Zone) (o x y : Nat) : od (setZone s z v) o x y = od s o x y := rfl

/-! setRing -/

@[simp] theorem setRing_pending (s : State) (r : Nat) (v : Ring) : (setRing s r v).pending = s.pending := rfl
@[simp] theorem setRing_free (s : State) (r : Nat) (v : Ring) : (setRing s r v).free = s.free := rfl
@[simp] theorem setRing_host (s : State) (r : Nat) (v : Ring) : (setRing s r v).host = s.host := rfl
@[simp] theorem setRing_adm (s : State) (r : Nat) (v : Ring) : (setRing s r v).adm = s.adm := rfl
@[simp] theorem setRing_zones (s : State) (r : Nat) (v : Ring) : (setRing s r v).zones = s.zones := rfl
@[simp] theorem setRing_nss (s : State) (r : Nat) (v : Ring) : (setRing s r v).nss = s.nss := rfl
@[simp] theorem setRing_jrn (s : State) (r : Nat) (v : Ring) : (setRing s r v).jrn = s.jrn := rfl
@[simp] theorem setRing_win (s : State) (r : Nat) (v : Ring) : (setRing s r v).win = s.win := rfl
@[simp] theorem setRing_dies (s : State) (r : Nat) (v : Ring) : (setRing s r v).dies = s.dies := rfl
@[simp] theorem setRing_reads (s : State) (r : Nat) (v : Ring) : (setRing s r v).reads = s.reads := rfl
@[simp] theorem setRing_sched (s : State) (r : Nat) (v : Ring) : (setRing s r v).sched = s.sched := rfl
@[simp] theorem setRing_groups (s : State) (r : Nat) (v : Ring) : (setRing s r v).groups = s.groups := rfl
@[simp] theorem setRing_chans (s : State) (r : Nat) (v : Ring) : (setRing s r v).chans = s.chans := rfl
@[simp] theorem setRing_ctxs (s : State) (r : Nat) (v : Ring) : (setRing s r v).ctxs = s.ctxs := rfl
@[simp] theorem setRing_power (s : State) (r : Nat) (v : Ring) : (setRing s r v).power = s.power := rfl
@[simp] theorem setRing_pair (s : State) (r : Nat) (v : Ring) : (setRing s r v).pair = s.pair := rfl
@[simp] theorem setRing_casc (s : State) (r : Nat) (v : Ring) : (setRing s r v).casc = s.casc := rfl
@[simp] theorem setRing_ciph (s : State) (r : Nat) (v : Ring) : (setRing s r v).ciph = s.ciph := rfl
@[simp] theorem setRing_pwr (s : State) (r : Nat) (v : Ring) : (setRing s r v).pwr = s.pwr := rfl
@[simp] theorem setRing_loop (s : State) (r : Nat) (v : Ring) : (setRing s r v).loop = s.loop := rfl
@[simp] theorem setRing_dram (s : State) (r : Nat) (v : Ring) : (setRing s r v).dram = s.dram := rfl
@[simp] theorem setRing_pools (s : State) (r : Nat) (v : Ring) : (setRing s r v).pools = s.pools := rfl
@[simp] theorem setRing_rst (s : State) (r : Nat) (v : Ring) : (setRing s r v).rst = s.rst := rfl
@[simp] theorem setRing_bist (s : State) (r : Nat) (v : Ring) : (setRing s r v).bist = s.bist := rfl
@[simp] theorem setRing_loupe (s : State) (r : Nat) (v : Ring) : (setRing s r v).loupe = s.loupe := rfl
@[simp] theorem setRing_dict (s : State) (r : Nat) (v : Ring) : (setRing s r v).dict = s.dict := rfl
@[simp] theorem setRing_mgmt (s : State) (r : Nat) (v : Ring) : (setRing s r v).mgmt = s.mgmt := rfl
@[simp] theorem setRing_pins (s : State) (r : Nat) (v : Ring) : (setRing s r v).pins = s.pins := rfl
@[simp] theorem setRing_health (s : State) (r : Nat) (v : Ring) : (setRing s r v).health = s.health := rfl
@[simp] theorem setRing_toggles (s : State) (r : Nat) (v : Ring) : (setRing s r v).toggles = s.toggles := rfl
@[simp] theorem setRing_zone (s : State) (r : Nat) (v : Ring) (k : Nat) : zone (setRing s r v) k = zone s k := rfl
@[simp] theorem setRing_die (s : State) (r : Nat) (v : Ring) (k : Nat) : die (setRing s r v) k = die s k := rfl
@[simp] theorem setRing_grp (s : State) (r : Nat) (v : Ring) (k : Nat) : grp (setRing s r v) k = grp s k := rfl
@[simp] theorem setRing_chan (s : State) (r : Nat) (v : Ring) (k : Nat) : chan (setRing s r v) k = chan s k := rfl
@[simp] theorem setRing_ctx (s : State) (r : Nat) (v : Ring) (k : Nat) : ctx (setRing s r v) k = ctx s k := rfl
@[simp] theorem setRing_fnc (s : State) (r : Nat) (v : Ring) (k : Nat) : fnc (setRing s r v) k = fnc s k := rfl
@[simp] theorem setRing_member (s : State) (r : Nat) (v : Ring) (k : Nat) : member (setRing s r v) k = member s k := rfl
@[simp] theorem setRing_dchan (s : State) (r : Nat) (v : Ring) (k : Nat) : dchan (setRing s r v) k = dchan s k := rfl
@[simp] theorem setRing_pool (s : State) (r : Nat) (v : Ring) (k : Nat) : pool (setRing s r v) k = pool s k := rfl
@[simp] theorem setRing_eng (s : State) (r : Nat) (v : Ring) (k : Nat) : eng (setRing s r v) k = eng s k := rfl
@[simp] theorem setRing_nsOpt (s : State) (r : Nat) (v : Ring) (k : Nat) : ns? (setRing s r v) k = ns? s k := rfl
@[simp] theorem setRing_cmdOpt (s : State) (r : Nat) (v : Ring) (k : Nat) : cmd? (setRing s r v) k = cmd? s k := rfl
@[simp] theorem setRing_od (s : State) (r : Nat) (v : Ring) (o x y : Nat) : od (setRing s r v) o x y = od s o x y := rfl

/-! setDie -/

@[simp] theorem setDie_pending (s : State) (d : Nat) (v : Die) : (setDie s d v).pending = s.pending := rfl
@[simp] theorem setDie_free (s : State) (d : Nat) (v : Die) : (setDie s d v).free = s.free := rfl
@[simp] theorem setDie_host (s : State) (d : Nat) (v : Die) : (setDie s d v).host = s.host := rfl
@[simp] theorem setDie_adm (s : State) (d : Nat) (v : Die) : (setDie s d v).adm = s.adm := rfl
@[simp] theorem setDie_zones (s : State) (d : Nat) (v : Die) : (setDie s d v).zones = s.zones := rfl
@[simp] theorem setDie_nss (s : State) (d : Nat) (v : Die) : (setDie s d v).nss = s.nss := rfl
@[simp] theorem setDie_rings (s : State) (d : Nat) (v : Die) : (setDie s d v).rings = s.rings := rfl
@[simp] theorem setDie_jrn (s : State) (d : Nat) (v : Die) : (setDie s d v).jrn = s.jrn := rfl
@[simp] theorem setDie_win (s : State) (d : Nat) (v : Die) : (setDie s d v).win = s.win := rfl
@[simp] theorem setDie_reads (s : State) (d : Nat) (v : Die) : (setDie s d v).reads = s.reads := rfl
@[simp] theorem setDie_sched (s : State) (d : Nat) (v : Die) : (setDie s d v).sched = s.sched := rfl
@[simp] theorem setDie_groups (s : State) (d : Nat) (v : Die) : (setDie s d v).groups = s.groups := rfl
@[simp] theorem setDie_chans (s : State) (d : Nat) (v : Die) : (setDie s d v).chans = s.chans := rfl
@[simp] theorem setDie_ctxs (s : State) (d : Nat) (v : Die) : (setDie s d v).ctxs = s.ctxs := rfl
@[simp] theorem setDie_power (s : State) (d : Nat) (v : Die) : (setDie s d v).power = s.power := rfl
@[simp] theorem setDie_pair (s : State) (d : Nat) (v : Die) : (setDie s d v).pair = s.pair := rfl
@[simp] theorem setDie_casc (s : State) (d : Nat) (v : Die) : (setDie s d v).casc = s.casc := rfl
@[simp] theorem setDie_ciph (s : State) (d : Nat) (v : Die) : (setDie s d v).ciph = s.ciph := rfl
@[simp] theorem setDie_pwr (s : State) (d : Nat) (v : Die) : (setDie s d v).pwr = s.pwr := rfl
@[simp] theorem setDie_loop (s : State) (d : Nat) (v : Die) : (setDie s d v).loop = s.loop := rfl
@[simp] theorem setDie_dram (s : State) (d : Nat) (v : Die) : (setDie s d v).dram = s.dram := rfl
@[simp] theorem setDie_pools (s : State) (d : Nat) (v : Die) : (setDie s d v).pools = s.pools := rfl
@[simp] theorem setDie_rst (s : State) (d : Nat) (v : Die) : (setDie s d v).rst = s.rst := rfl
@[simp] theorem setDie_bist (s : State) (d : Nat) (v : Die) : (setDie s d v).bist = s.bist := rfl
@[simp] theorem setDie_loupe (s : State) (d : Nat) (v : Die) : (setDie s d v).loupe = s.loupe := rfl
@[simp] theorem setDie_dict (s : State) (d : Nat) (v : Die) : (setDie s d v).dict = s.dict := rfl
@[simp] theorem setDie_mgmt (s : State) (d : Nat) (v : Die) : (setDie s d v).mgmt = s.mgmt := rfl
@[simp] theorem setDie_pins (s : State) (d : Nat) (v : Die) : (setDie s d v).pins = s.pins := rfl
@[simp] theorem setDie_health (s : State) (d : Nat) (v : Die) : (setDie s d v).health = s.health := rfl
@[simp] theorem setDie_toggles (s : State) (d : Nat) (v : Die) : (setDie s d v).toggles = s.toggles := rfl
@[simp] theorem setDie_zone (s : State) (d : Nat) (v : Die) (k : Nat) : zone (setDie s d v) k = zone s k := rfl
@[simp] theorem setDie_ring (s : State) (d : Nat) (v : Die) (k : Nat) : ring (setDie s d v) k = ring s k := rfl
@[simp] theorem setDie_grp (s : State) (d : Nat) (v : Die) (k : Nat) : grp (setDie s d v) k = grp s k := rfl
@[simp] theorem setDie_chan (s : State) (d : Nat) (v : Die) (k : Nat) : chan (setDie s d v) k = chan s k := rfl
@[simp] theorem setDie_ctx (s : State) (d : Nat) (v : Die) (k : Nat) : ctx (setDie s d v) k = ctx s k := rfl
@[simp] theorem setDie_fnc (s : State) (d : Nat) (v : Die) (k : Nat) : fnc (setDie s d v) k = fnc s k := rfl
@[simp] theorem setDie_member (s : State) (d : Nat) (v : Die) (k : Nat) : member (setDie s d v) k = member s k := rfl
@[simp] theorem setDie_dchan (s : State) (d : Nat) (v : Die) (k : Nat) : dchan (setDie s d v) k = dchan s k := rfl
@[simp] theorem setDie_pool (s : State) (d : Nat) (v : Die) (k : Nat) : pool (setDie s d v) k = pool s k := rfl
@[simp] theorem setDie_eng (s : State) (d : Nat) (v : Die) (k : Nat) : eng (setDie s d v) k = eng s k := rfl
@[simp] theorem setDie_nsOpt (s : State) (d : Nat) (v : Die) (k : Nat) : ns? (setDie s d v) k = ns? s k := rfl
@[simp] theorem setDie_cmdOpt (s : State) (d : Nat) (v : Die) (k : Nat) : cmd? (setDie s d v) k = cmd? s k := rfl
@[simp] theorem setDie_od (s : State) (d : Nat) (v : Die) (o x y : Nat) : od (setDie s d v) o x y = od s o x y := rfl

/-! setGrp -/

@[simp] theorem setGrp_pending (s : State) (g : Nat) (v : Group) : (setGrp s g v).pending = s.pending := rfl
@[simp] theorem setGrp_free (s : State) (g : Nat) (v : Group) : (setGrp s g v).free = s.free := rfl
@[simp] theorem setGrp_host (s : State) (g : Nat) (v : Group) : (setGrp s g v).host = s.host := rfl
@[simp] theorem setGrp_adm (s : State) (g : Nat) (v : Group) : (setGrp s g v).adm = s.adm := rfl
@[simp] theorem setGrp_zones (s : State) (g : Nat) (v : Group) : (setGrp s g v).zones = s.zones := rfl
@[simp] theorem setGrp_nss (s : State) (g : Nat) (v : Group) : (setGrp s g v).nss = s.nss := rfl
@[simp] theorem setGrp_rings (s : State) (g : Nat) (v : Group) : (setGrp s g v).rings = s.rings := rfl
@[simp] theorem setGrp_jrn (s : State) (g : Nat) (v : Group) : (setGrp s g v).jrn = s.jrn := rfl
@[simp] theorem setGrp_win (s : State) (g : Nat) (v : Group) : (setGrp s g v).win = s.win := rfl
@[simp] theorem setGrp_dies (s : State) (g : Nat) (v : Group) : (setGrp s g v).dies = s.dies := rfl
@[simp] theorem setGrp_reads (s : State) (g : Nat) (v : Group) : (setGrp s g v).reads = s.reads := rfl
@[simp] theorem setGrp_sched (s : State) (g : Nat) (v : Group) : (setGrp s g v).sched = s.sched := rfl
@[simp] theorem setGrp_chans (s : State) (g : Nat) (v : Group) : (setGrp s g v).chans = s.chans := rfl
@[simp] theorem setGrp_ctxs (s : State) (g : Nat) (v : Group) : (setGrp s g v).ctxs = s.ctxs := rfl
@[simp] theorem setGrp_power (s : State) (g : Nat) (v : Group) : (setGrp s g v).power = s.power := rfl
@[simp] theorem setGrp_pair (s : State) (g : Nat) (v : Group) : (setGrp s g v).pair = s.pair := rfl
@[simp] theorem setGrp_casc (s : State) (g : Nat) (v : Group) : (setGrp s g v).casc = s.casc := rfl
@[simp] theorem setGrp_ciph (s : State) (g : Nat) (v : Group) : (setGrp s g v).ciph = s.ciph := rfl
@[simp] theorem setGrp_pwr (s : State) (g : Nat) (v : Group) : (setGrp s g v).pwr = s.pwr := rfl
@[simp] theorem setGrp_loop (s : State) (g : Nat) (v : Group) : (setGrp s g v).loop = s.loop := rfl
@[simp] theorem setGrp_dram (s : State) (g : Nat) (v : Group) : (setGrp s g v).dram = s.dram := rfl
@[simp] theorem setGrp_pools (s : State) (g : Nat) (v : Group) : (setGrp s g v).pools = s.pools := rfl
@[simp] theorem setGrp_rst (s : State) (g : Nat) (v : Group) : (setGrp s g v).rst = s.rst := rfl
@[simp] theorem setGrp_bist (s : State) (g : Nat) (v : Group) : (setGrp s g v).bist = s.bist := rfl
@[simp] theorem setGrp_loupe (s : State) (g : Nat) (v : Group) : (setGrp s g v).loupe = s.loupe := rfl
@[simp] theorem setGrp_dict (s : State) (g : Nat) (v : Group) : (setGrp s g v).dict = s.dict := rfl
@[simp] theorem setGrp_mgmt (s : State) (g : Nat) (v : Group) : (setGrp s g v).mgmt = s.mgmt := rfl
@[simp] theorem setGrp_pins (s : State) (g : Nat) (v : Group) : (setGrp s g v).pins = s.pins := rfl
@[simp] theorem setGrp_health (s : State) (g : Nat) (v : Group) : (setGrp s g v).health = s.health := rfl
@[simp] theorem setGrp_toggles (s : State) (g : Nat) (v : Group) : (setGrp s g v).toggles = s.toggles := rfl
@[simp] theorem setGrp_zone (s : State) (g : Nat) (v : Group) (k : Nat) : zone (setGrp s g v) k = zone s k := rfl
@[simp] theorem setGrp_ring (s : State) (g : Nat) (v : Group) (k : Nat) : ring (setGrp s g v) k = ring s k := rfl
@[simp] theorem setGrp_die (s : State) (g : Nat) (v : Group) (k : Nat) : die (setGrp s g v) k = die s k := rfl
@[simp] theorem setGrp_chan (s : State) (g : Nat) (v : Group) (k : Nat) : chan (setGrp s g v) k = chan s k := rfl
@[simp] theorem setGrp_ctx (s : State) (g : Nat) (v : Group) (k : Nat) : ctx (setGrp s g v) k = ctx s k := rfl
@[simp] theorem setGrp_fnc (s : State) (g : Nat) (v : Group) (k : Nat) : fnc (setGrp s g v) k = fnc s k := rfl
@[simp] theorem setGrp_member (s : State) (g : Nat) (v : Group) (k : Nat) : member (setGrp s g v) k = member s k := rfl
@[simp] theorem setGrp_dchan (s : State) (g : Nat) (v : Group) (k : Nat) : dchan (setGrp s g v) k = dchan s k := rfl
@[simp] theorem setGrp_pool (s : State) (g : Nat) (v : Group) (k : Nat) : pool (setGrp s g v) k = pool s k := rfl
@[simp] theorem setGrp_eng (s : State) (g : Nat) (v : Group) (k : Nat) : eng (setGrp s g v) k = eng s k := rfl
@[simp] theorem setGrp_nsOpt (s : State) (g : Nat) (v : Group) (k : Nat) : ns? (setGrp s g v) k = ns? s k := rfl
@[simp] theorem setGrp_cmdOpt (s : State) (g : Nat) (v : Group) (k : Nat) : cmd? (setGrp s g v) k = cmd? s k := rfl
@[simp] theorem setGrp_od (s : State) (g : Nat) (v : Group) (o x y : Nat) : od (setGrp s g v) o x y = od s o x y := rfl

/-! setChan -/

@[simp] theorem setChan_pending (s : State) (c : Nat) (v : Chan) : (setChan s c v).pending = s.pending := rfl
@[simp] theorem setChan_free (s : State) (c : Nat) (v : Chan) : (setChan s c v).free = s.free := rfl
@[simp] theorem setChan_host (s : State) (c : Nat) (v : Chan) : (setChan s c v).host = s.host := rfl
@[simp] theorem setChan_adm (s : State) (c : Nat) (v : Chan) : (setChan s c v).adm = s.adm := rfl
@[simp] theorem setChan_zones (s : State) (c : Nat) (v : Chan) : (setChan s c v).zones = s.zones := rfl
@[simp] theorem setChan_nss (s : State) (c : Nat) (v : Chan) : (setChan s c v).nss = s.nss := rfl
@[simp] theorem setChan_rings (s : State) (c : Nat) (v : Chan) : (setChan s c v).rings = s.rings := rfl
@[simp] theorem setChan_jrn (s : State) (c : Nat) (v : Chan) : (setChan s c v).jrn = s.jrn := rfl
@[simp] theorem setChan_win (s : State) (c : Nat) (v : Chan) : (setChan s c v).win = s.win := rfl
@[simp] theorem setChan_dies (s : State) (c : Nat) (v : Chan) : (setChan s c v).dies = s.dies := rfl
@[simp] theorem setChan_reads (s : State) (c : Nat) (v : Chan) : (setChan s c v).reads = s.reads := rfl
@[simp] theorem setChan_sched (s : State) (c : Nat) (v : Chan) : (setChan s c v).sched = s.sched := rfl
@[simp] theorem setChan_groups (s : State) (c : Nat) (v : Chan) : (setChan s c v).groups = s.groups := rfl
@[simp] theorem setChan_ctxs (s : State) (c : Nat) (v : Chan) : (setChan s c v).ctxs = s.ctxs := rfl
@[simp] theorem setChan_power (s : State) (c : Nat) (v : Chan) : (setChan s c v).power = s.power := rfl
@[simp] theorem setChan_pair (s : State) (c : Nat) (v : Chan) : (setChan s c v).pair = s.pair := rfl
@[simp] theorem setChan_casc (s : State) (c : Nat) (v : Chan) : (setChan s c v).casc = s.casc := rfl
@[simp] theorem setChan_ciph (s : State) (c : Nat) (v : Chan) : (setChan s c v).ciph = s.ciph := rfl
@[simp] theorem setChan_pwr (s : State) (c : Nat) (v : Chan) : (setChan s c v).pwr = s.pwr := rfl
@[simp] theorem setChan_loop (s : State) (c : Nat) (v : Chan) : (setChan s c v).loop = s.loop := rfl
@[simp] theorem setChan_dram (s : State) (c : Nat) (v : Chan) : (setChan s c v).dram = s.dram := rfl
@[simp] theorem setChan_pools (s : State) (c : Nat) (v : Chan) : (setChan s c v).pools = s.pools := rfl
@[simp] theorem setChan_rst (s : State) (c : Nat) (v : Chan) : (setChan s c v).rst = s.rst := rfl
@[simp] theorem setChan_bist (s : State) (c : Nat) (v : Chan) : (setChan s c v).bist = s.bist := rfl
@[simp] theorem setChan_loupe (s : State) (c : Nat) (v : Chan) : (setChan s c v).loupe = s.loupe := rfl
@[simp] theorem setChan_dict (s : State) (c : Nat) (v : Chan) : (setChan s c v).dict = s.dict := rfl
@[simp] theorem setChan_mgmt (s : State) (c : Nat) (v : Chan) : (setChan s c v).mgmt = s.mgmt := rfl
@[simp] theorem setChan_pins (s : State) (c : Nat) (v : Chan) : (setChan s c v).pins = s.pins := rfl
@[simp] theorem setChan_health (s : State) (c : Nat) (v : Chan) : (setChan s c v).health = s.health := rfl
@[simp] theorem setChan_toggles (s : State) (c : Nat) (v : Chan) : (setChan s c v).toggles = s.toggles := rfl
@[simp] theorem setChan_zone (s : State) (c : Nat) (v : Chan) (k : Nat) : zone (setChan s c v) k = zone s k := rfl
@[simp] theorem setChan_ring (s : State) (c : Nat) (v : Chan) (k : Nat) : ring (setChan s c v) k = ring s k := rfl
@[simp] theorem setChan_die (s : State) (c : Nat) (v : Chan) (k : Nat) : die (setChan s c v) k = die s k := rfl
@[simp] theorem setChan_grp (s : State) (c : Nat) (v : Chan) (k : Nat) : grp (setChan s c v) k = grp s k := rfl
@[simp] theorem setChan_ctx (s : State) (c : Nat) (v : Chan) (k : Nat) : ctx (setChan s c v) k = ctx s k := rfl
@[simp] theorem setChan_fnc (s : State) (c : Nat) (v : Chan) (k : Nat) : fnc (setChan s c v) k = fnc s k := rfl
@[simp] theorem setChan_member (s : State) (c : Nat) (v : Chan) (k : Nat) : member (setChan s c v) k = member s k := rfl
@[simp] theorem setChan_dchan (s : State) (c : Nat) (v : Chan) (k : Nat) : dchan (setChan s c v) k = dchan s k := rfl
@[simp] theorem setChan_pool (s : State) (c : Nat) (v : Chan) (k : Nat) : pool (setChan s c v) k = pool s k := rfl
@[simp] theorem setChan_eng (s : State) (c : Nat) (v : Chan) (k : Nat) : eng (setChan s c v) k = eng s k := rfl
@[simp] theorem setChan_nsOpt (s : State) (c : Nat) (v : Chan) (k : Nat) : ns? (setChan s c v) k = ns? s k := rfl
@[simp] theorem setChan_cmdOpt (s : State) (c : Nat) (v : Chan) (k : Nat) : cmd? (setChan s c v) k = cmd? s k := rfl
@[simp] theorem setChan_od (s : State) (c : Nat) (v : Chan) (o x y : Nat) : od (setChan s c v) o x y = od s o x y := rfl

/-! setCtx -/

@[simp] theorem setCtx_pending (s : State) (d : Nat) (v : Ctx) : (setCtx s d v).pending = s.pending := rfl
@[simp] theorem setCtx_free (s : State) (d : Nat) (v : Ctx) : (setCtx s d v).free = s.free := rfl
@[simp] theorem setCtx_host (s : State) (d : Nat) (v : Ctx) : (setCtx s d v).host = s.host := rfl
@[simp] theorem setCtx_adm (s : State) (d : Nat) (v : Ctx) : (setCtx s d v).adm = s.adm := rfl
@[simp] theorem setCtx_zones (s : State) (d : Nat) (v : Ctx) : (setCtx s d v).zones = s.zones := rfl
@[simp] theorem setCtx_nss (s : State) (d : Nat) (v : Ctx) : (setCtx s d v).nss = s.nss := rfl
@[simp] theorem setCtx_rings (s : State) (d : Nat) (v : Ctx) : (setCtx s d v).rings = s.rings := rfl
@[simp] theorem setCtx_jrn (s : State) (d : Nat) (v : Ctx) : (setCtx s d v).jrn = s.jrn := rfl
@[simp] theorem setCtx_win (s : State) (d : Nat) (v : Ctx) : (setCtx s d v).win = s.win := rfl
@[simp] theorem setCtx_dies (s : State) (d : Nat) (v : Ctx) : (setCtx s d v).dies = s.dies := rfl
@[simp] theorem setCtx_reads (s : State) (d : Nat) (v : Ctx) : (setCtx s d v).reads = s.reads := rfl
@[simp] theorem setCtx_sched (s : State) (d : Nat) (v : Ctx) : (setCtx s d v).sched = s.sched := rfl
@[simp] theorem setCtx_groups (s : State) (d : Nat) (v : Ctx) : (setCtx s d v).groups = s.groups := rfl
@[simp] theorem setCtx_chans (s : State) (d : Nat) (v : Ctx) : (setCtx s d v).chans = s.chans := rfl
@[simp] theorem setCtx_power (s : State) (d : Nat) (v : Ctx) : (setCtx s d v).power = s.power := rfl
@[simp] theorem setCtx_pair (s : State) (d : Nat) (v : Ctx) : (setCtx s d v).pair = s.pair := rfl
@[simp] theorem setCtx_casc (s : State) (d : Nat) (v : Ctx) : (setCtx s d v).casc = s.casc := rfl
@[simp] theorem setCtx_ciph (s : State) (d : Nat) (v : Ctx) : (setCtx s d v).ciph = s.ciph := rfl
@[simp] theorem setCtx_pwr (s : State) (d : Nat) (v : Ctx) : (setCtx s d v).pwr = s.pwr := rfl
@[simp] theorem setCtx_loop (s : State) (d : Nat) (v : Ctx) : (setCtx s d v).loop = s.loop := rfl
@[simp] theorem setCtx_dram (s : State) (d : Nat) (v : Ctx) : (setCtx s d v).dram = s.dram := rfl
@[simp] theorem setCtx_pools (s : State) (d : Nat) (v : Ctx) : (setCtx s d v).pools = s.pools := rfl
@[simp] theorem setCtx_rst (s : State) (d : Nat) (v : Ctx) : (setCtx s d v).rst = s.rst := rfl
@[simp] theorem setCtx_bist (s : State) (d : Nat) (v : Ctx) : (setCtx s d v).bist = s.bist := rfl
@[simp] theorem setCtx_loupe (s : State) (d : Nat) (v : Ctx) : (setCtx s d v).loupe = s.loupe := rfl
@[simp] theorem setCtx_dict (s : State) (d : Nat) (v : Ctx) : (setCtx s d v).dict = s.dict := rfl
@[simp] theorem setCtx_mgmt (s : State) (d : Nat) (v : Ctx) : (setCtx s d v).mgmt = s.mgmt := rfl
@[simp] theorem setCtx_pins (s : State) (d : Nat) (v : Ctx) : (setCtx s d v).pins = s.pins := rfl
@[simp] theorem setCtx_health (s : State) (d : Nat) (v : Ctx) : (setCtx s d v).health = s.health := rfl
@[simp] theorem setCtx_toggles (s : State) (d : Nat) (v : Ctx) : (setCtx s d v).toggles = s.toggles := rfl
@[simp] theorem setCtx_zone (s : State) (d : Nat) (v : Ctx) (k : Nat) : zone (setCtx s d v) k = zone s k := rfl
@[simp] theorem setCtx_ring (s : State) (d : Nat) (v : Ctx) (k : Nat) : ring (setCtx s d v) k = ring s k := rfl
@[simp] theorem setCtx_die (s : State) (d : Nat) (v : Ctx) (k : Nat) : die (setCtx s d v) k = die s k := rfl
@[simp] theorem setCtx_grp (s : State) (d : Nat) (v : Ctx) (k : Nat) : grp (setCtx s d v) k = grp s k := rfl
@[simp] theorem setCtx_chan (s : State) (d : Nat) (v : Ctx) (k : Nat) : chan (setCtx s d v) k = chan s k := rfl
@[simp] theorem setCtx_fnc (s : State) (d : Nat) (v : Ctx) (k : Nat) : fnc (setCtx s d v) k = fnc s k := rfl
@[simp] theorem setCtx_member (s : State) (d : Nat) (v : Ctx) (k : Nat) : member (setCtx s d v) k = member s k := rfl
@[simp] theorem setCtx_dchan (s : State) (d : Nat) (v : Ctx) (k : Nat) : dchan (setCtx s d v) k = dchan s k := rfl
@[simp] theorem setCtx_pool (s : State) (d : Nat) (v : Ctx) (k : Nat) : pool (setCtx s d v) k = pool s k := rfl
@[simp] theorem setCtx_eng (s : State) (d : Nat) (v : Ctx) (k : Nat) : eng (setCtx s d v) k = eng s k := rfl
@[simp] theorem setCtx_nsOpt (s : State) (d : Nat) (v : Ctx) (k : Nat) : ns? (setCtx s d v) k = ns? s k := rfl
@[simp] theorem setCtx_cmdOpt (s : State) (d : Nat) (v : Ctx) (k : Nat) : cmd? (setCtx s d v) k = cmd? s k := rfl
@[simp] theorem setCtx_od (s : State) (d : Nat) (v : Ctx) (o x y : Nat) : od (setCtx s d v) o x y = od s o x y := rfl

/-! setFn -/

@[simp] theorem setFn_pending (s : State) (f : Nat) (v : Fn) : (setFn s f v).pending = s.pending := rfl
@[simp] theorem setFn_free (s : State) (f : Nat) (v : Fn) : (setFn s f v).free = s.free := rfl
@[simp] theorem setFn_host_vtime (s : State) (f : Nat) (v : Fn) : (setFn s f v).host.vtime = s.host.vtime := rfl
@[simp] theorem setFn_host_rrPtr (s : State) (f : Nat) (v : Fn) : (setFn s f v).host.rrPtr = s.host.rrPtr := rfl
@[simp] theorem setFn_host_fetchOrder (s : State) (f : Nat) (v : Fn) : (setFn s f v).host.fetchOrder = s.host.fetchOrder := rfl
@[simp] theorem setFn_host_granted (s : State) (f : Nat) (v : Fn) : (setFn s f v).host.granted = s.host.granted := rfl
@[simp] theorem setFn_host_cmds (s : State) (f : Nat) (v : Fn) : (setFn s f v).host.cmds = s.host.cmds := rfl
@[simp] theorem setFn_host_nextId (s : State) (f : Nat) (v : Fn) : (setFn s f v).host.nextId = s.host.nextId := rfl
@[simp] theorem setFn_host_cq (s : State) (f : Nat) (v : Fn) : (setFn s f v).host.cq = s.host.cq := rfl
@[simp] theorem setFn_host_numVfs (s : State) (f : Nat) (v : Fn) : (setFn s f v).host.numVfs = s.host.numVfs := rfl
@[simp] theorem setFn_host_linkNo (s : State) (f : Nat) (v : Fn) : (setFn s f v).host.linkNo = s.host.linkNo := rfl
@[simp] theorem setFn_host_linkMax (s : State) (f : Nat) (v : Fn) : (setFn s f v).host.linkMax = s.host.linkMax := rfl
@[simp] theorem setFn_host_bifurcated (s : State) (f : Nat) (v : Fn) : (setFn s f v).host.bifurcated = s.host.bifurcated := rfl
@[simp] theorem setFn_host_freeVq (s : State) (f : Nat) (v : Fn) : (setFn s f v).host.freeVq = s.host.freeVq := rfl
@[simp] theorem setFn_host_freeVi (s : State) (f : Nat) (v : Fn) : (setFn s f v).host.freeVi = s.host.freeVi := rfl
@[simp] theorem setFn_host_cfgServed (s : State) (f : Nat) (v : Fn) : (setFn s f v).host.cfgServed = s.host.cfgServed := rfl
@[simp] theorem setFn_host_fdp (s : State) (f : Nat) (v : Fn) : (setFn s f v).host.fdp = s.host.fdp := rfl
@[simp] theorem setFn_host_fdpEnabled (s : State) (f : Nat) (v : Fn) : (setFn s f v).host.fdpEnabled = s.host.fdpEnabled := rfl
@[simp] theorem setFn_host_fdpEvents (s : State) (f : Nat) (v : Fn) : (setFn s f v).host.fdpEvents = s.host.fdpEvents := rfl
@[simp] theorem setFn_host_fdpHost (s : State) (f : Nat) (v : Fn) : (setFn s f v).host.fdpHost = s.host.fdpHost := rfl
@[simp] theorem setFn_host_fdpMedia (s : State) (f : Nat) (v : Fn) : (setFn s f v).host.fdpMedia = s.host.fdpMedia := rfl
@[simp] theorem setFn_host_fdpErased (s : State) (f : Nat) (v : Fn) : (setFn s f v).host.fdpErased = s.host.fdpErased := rfl
@[simp] theorem setFn_host_sanitizeStatus (s : State) (f : Nat) (v : Fn) : (setFn s f v).host.sanitizeStatus = s.host.sanitizeStatus := rfl
@[simp] theorem setFn_host_d3hot (s : State) (f : Nat) (v : Fn) : (setFn s f v).host.d3hot = s.host.d3hot := rfl
@[simp] theorem setFn_adm (s : State) (f : Nat) (v : Fn) : (setFn s f v).adm = s.adm := rfl
@[simp] theorem setFn_zones (s : State) (f : Nat) (v : Fn) : (setFn s f v).zones = s.zones := rfl
@[simp] theorem setFn_nss (s : State) (f : Nat) (v : Fn) : (setFn s f v).nss = s.nss := rfl
@[simp] theorem setFn_rings (s : State) (f : Nat) (v : Fn) : (setFn s f v).rings = s.rings := rfl
@[simp] theorem setFn_jrn (s : State) (f : Nat) (v : Fn) : (setFn s f v).jrn = s.jrn := rfl
@[simp] theorem setFn_win (s : State) (f : Nat) (v : Fn) : (setFn s f v).win = s.win := rfl
@[simp] theorem setFn_dies (s : State) (f : Nat) (v : Fn) : (setFn s f v).dies = s.dies := rfl
@[simp] theorem setFn_reads (s : State) (f : Nat) (v : Fn) : (setFn s f v).reads = s.reads := rfl
@[simp] theorem setFn_sched (s : State) (f : Nat) (v : Fn) : (setFn s f v).sched = s.sched := rfl
@[simp] theorem setFn_groups (s : State) (f : Nat) (v : Fn) : (setFn s f v).groups = s.groups := rfl
@[simp] theorem setFn_chans (s : State) (f : Nat) (v : Fn) : (setFn s f v).chans = s.chans := rfl
@[simp] theorem setFn_ctxs (s : State) (f : Nat) (v : Fn) : (setFn s f v).ctxs = s.ctxs := rfl
@[simp] theorem setFn_power (s : State) (f : Nat) (v : Fn) : (setFn s f v).power = s.power := rfl
@[simp] theorem setFn_pair (s : State) (f : Nat) (v : Fn) : (setFn s f v).pair = s.pair := rfl
@[simp] theorem setFn_casc (s : State) (f : Nat) (v : Fn) : (setFn s f v).casc = s.casc := rfl
@[simp] theorem setFn_ciph (s : State) (f : Nat) (v : Fn) : (setFn s f v).ciph = s.ciph := rfl
@[simp] theorem setFn_pwr (s : State) (f : Nat) (v : Fn) : (setFn s f v).pwr = s.pwr := rfl
@[simp] theorem setFn_loop (s : State) (f : Nat) (v : Fn) : (setFn s f v).loop = s.loop := rfl
@[simp] theorem setFn_dram (s : State) (f : Nat) (v : Fn) : (setFn s f v).dram = s.dram := rfl
@[simp] theorem setFn_pools (s : State) (f : Nat) (v : Fn) : (setFn s f v).pools = s.pools := rfl
@[simp] theorem setFn_rst (s : State) (f : Nat) (v : Fn) : (setFn s f v).rst = s.rst := rfl
@[simp] theorem setFn_bist (s : State) (f : Nat) (v : Fn) : (setFn s f v).bist = s.bist := rfl
@[simp] theorem setFn_loupe (s : State) (f : Nat) (v : Fn) : (setFn s f v).loupe = s.loupe := rfl
@[simp] theorem setFn_dict (s : State) (f : Nat) (v : Fn) : (setFn s f v).dict = s.dict := rfl
@[simp] theorem setFn_mgmt (s : State) (f : Nat) (v : Fn) : (setFn s f v).mgmt = s.mgmt := rfl
@[simp] theorem setFn_pins (s : State) (f : Nat) (v : Fn) : (setFn s f v).pins = s.pins := rfl
@[simp] theorem setFn_health (s : State) (f : Nat) (v : Fn) : (setFn s f v).health = s.health := rfl
@[simp] theorem setFn_toggles (s : State) (f : Nat) (v : Fn) : (setFn s f v).toggles = s.toggles := rfl
@[simp] theorem setFn_zone (s : State) (f : Nat) (v : Fn) (k : Nat) : zone (setFn s f v) k = zone s k := rfl
@[simp] theorem setFn_ring (s : State) (f : Nat) (v : Fn) (k : Nat) : ring (setFn s f v) k = ring s k := rfl
@[simp] theorem setFn_die (s : State) (f : Nat) (v : Fn) (k : Nat) : die (setFn s f v) k = die s k := rfl
@[simp] theorem setFn_grp (s : State) (f : Nat) (v : Fn) (k : Nat) : grp (setFn s f v) k = grp s k := rfl
@[simp] theorem setFn_chan (s : State) (f : Nat) (v : Fn) (k : Nat) : chan (setFn s f v) k = chan s k := rfl
@[simp] theorem setFn_ctx (s : State) (f : Nat) (v : Fn) (k : Nat) : ctx (setFn s f v) k = ctx s k := rfl
@[simp] theorem setFn_member (s : State) (f : Nat) (v : Fn) (k : Nat) : member (setFn s f v) k = member s k := rfl
@[simp] theorem setFn_dchan (s : State) (f : Nat) (v : Fn) (k : Nat) : dchan (setFn s f v) k = dchan s k := rfl
@[simp] theorem setFn_pool (s : State) (f : Nat) (v : Fn) (k : Nat) : pool (setFn s f v) k = pool s k := rfl
@[simp] theorem setFn_eng (s : State) (f : Nat) (v : Fn) (k : Nat) : eng (setFn s f v) k = eng s k := rfl
@[simp] theorem setFn_nsOpt (s : State) (f : Nat) (v : Fn) (k : Nat) : ns? (setFn s f v) k = ns? s k := rfl
@[simp] theorem setFn_cmdOpt (s : State) (f : Nat) (v : Fn) (k : Nat) : cmd? (setFn s f v) k = cmd? s k := rfl
@[simp] theorem setFn_od (s : State) (f : Nat) (v : Fn) (o x y : Nat) : od (setFn s f v) o x y = od s o x y := rfl

/-! setMember -/

@[simp] theorem setMember_pending (s : State) (p : Nat) (v : Member) : (setMember s p v).pending = s.pending := rfl
@[simp] theorem setMember_free (s : State) (p : Nat) (v : Member) : (setMember s p v).free = s.free := rfl
@[simp] theorem setMember_host (s : State) (p : Nat) (v : Member) : (setMember s p v).host = s.host := rfl
@[simp] theorem setMember_adm (s : State) (p : Nat) (v : Member) : (setMember s p v).adm = s.adm := rfl
@[simp] theorem setMember_zones (s : State) (p : Nat) (v : Member) : (setMember s p v).zones = s.zones := rfl
@[simp] theorem setMember_nss (s : State) (p : Nat) (v : Member) : (setMember s p v).nss = s.nss := rfl
@[simp] theorem setMember_rings (s : State) (p : Nat) (v : Member) : (setMember s p v).rings = s.rings := rfl
@[simp] theorem setMember_jrn (s : State) (p : Nat) (v : Member) : (setMember s p v).jrn = s.jrn := rfl
@[simp] theorem setMember_win (s : State) (p : Nat) (v : Member) : (setMember s p v).win = s.win := rfl
@[simp] theorem setMember_dies (s : State) (p : Nat) (v : Member) : (setMember s p v).dies = s.dies := rfl
@[simp] theorem setMember_reads (s : State) (p : Nat) (v : Member) : (setMember s p v).reads = s.reads := rfl
@[simp] theorem setMember_sched (s : State) (p : Nat) (v : Member) : (setMember s p v).sched = s.sched := rfl
@[simp] theorem setMember_groups (s : State) (p : Nat) (v : Member) : (setMember s p v).groups = s.groups := rfl
@[simp] theorem setMember_chans (s : State) (p : Nat) (v : Member) : (setMember s p v).chans = s.chans := rfl
@[simp] theorem setMember_ctxs (s : State) (p : Nat) (v : Member) : (setMember s p v).ctxs = s.ctxs := rfl
@[simp] theorem setMember_power (s : State) (p : Nat) (v : Member) : (setMember s p v).power = s.power := rfl
@[simp] theorem setMember_pair (s : State) (p : Nat) (v : Member) : (setMember s p v).pair = s.pair := rfl
@[simp] theorem setMember_casc_nextTag (s : State) (p : Nat) (v : Member) : (setMember s p v).casc.nextTag = s.casc.nextTag := rfl
@[simp] theorem setMember_casc_masterLost (s : State) (p : Nat) (v : Member) : (setMember s p v).casc.masterLost = s.casc.masterLost := rfl
@[simp] theorem setMember_ciph (s : State) (p : Nat) (v : Member) : (setMember s p v).ciph = s.ciph := rfl
@[simp] theorem setMember_pwr (s : State) (p : Nat) (v : Member) : (setMember s p v).pwr = s.pwr := rfl
@[simp] theorem setMember_loop (s : State) (p : Nat) (v : Member) : (setMember s p v).loop = s.loop := rfl
@[simp] theorem setMember_dram (s : State) (p : Nat) (v : Member) : (setMember s p v).dram = s.dram := rfl
@[simp] theorem setMember_pools (s : State) (p : Nat) (v : Member) : (setMember s p v).pools = s.pools := rfl
@[simp] theorem setMember_rst (s : State) (p : Nat) (v : Member) : (setMember s p v).rst = s.rst := rfl
@[simp] theorem setMember_bist (s : State) (p : Nat) (v : Member) : (setMember s p v).bist = s.bist := rfl
@[simp] theorem setMember_loupe (s : State) (p : Nat) (v : Member) : (setMember s p v).loupe = s.loupe := rfl
@[simp] theorem setMember_dict (s : State) (p : Nat) (v : Member) : (setMember s p v).dict = s.dict := rfl
@[simp] theorem setMember_mgmt (s : State) (p : Nat) (v : Member) : (setMember s p v).mgmt = s.mgmt := rfl
@[simp] theorem setMember_pins (s : State) (p : Nat) (v : Member) : (setMember s p v).pins = s.pins := rfl
@[simp] theorem setMember_health (s : State) (p : Nat) (v : Member) : (setMember s p v).health = s.health := rfl
@[simp] theorem setMember_toggles (s : State) (p : Nat) (v : Member) : (setMember s p v).toggles = s.toggles := rfl
@[simp] theorem setMember_zone (s : State) (p : Nat) (v : Member) (k : Nat) : zone (setMember s p v) k = zone s k := rfl
@[simp] theorem setMember_ring (s : State) (p : Nat) (v : Member) (k : Nat) : ring (setMember s p v) k = ring s k := rfl
@[simp] theorem setMember_die (s : State) (p : Nat) (v : Member) (k : Nat) : die (setMember s p v) k = die s k := rfl
@[simp] theorem setMember_grp (s : State) (p : Nat) (v : Member) (k : Nat) : grp (setMember s p v) k = grp s k := rfl
@[simp] theorem setMember_chan (s : State) (p : Nat) (v : Member) (k : Nat) : chan (setMember s p v) k = chan s k := rfl
@[simp] theorem setMember_ctx (s : State) (p : Nat) (v : Member) (k : Nat) : ctx (setMember s p v) k = ctx s k := rfl
@[simp] theorem setMember_fnc (s : State) (p : Nat) (v : Member) (k : Nat) : fnc (setMember s p v) k = fnc s k := rfl
@[simp] theorem setMember_dchan (s : State) (p : Nat) (v : Member) (k : Nat) : dchan (setMember s p v) k = dchan s k := rfl
@[simp] theorem setMember_pool (s : State) (p : Nat) (v : Member) (k : Nat) : pool (setMember s p v) k = pool s k := rfl
@[simp] theorem setMember_eng (s : State) (p : Nat) (v : Member) (k : Nat) : eng (setMember s p v) k = eng s k := rfl
@[simp] theorem setMember_nsOpt (s : State) (p : Nat) (v : Member) (k : Nat) : ns? (setMember s p v) k = ns? s k := rfl
@[simp] theorem setMember_cmdOpt (s : State) (p : Nat) (v : Member) (k : Nat) : cmd? (setMember s p v) k = cmd? s k := rfl
@[simp] theorem setMember_od (s : State) (p : Nat) (v : Member) (o x y : Nat) : od (setMember s p v) o x y = od s o x y := rfl

/-! setDchan -/

@[simp] theorem setDchan_pending (s : State) (c : Nat) (v : DChan) : (setDchan s c v).pending = s.pending := rfl
@[simp] theorem setDchan_free (s : State) (c : Nat) (v : DChan) : (setDchan s c v).free = s.free := rfl
@[simp] theorem setDchan_host (s : State) (c : Nat) (v : DChan) : (setDchan s c v).host = s.host := rfl
@[simp] theorem setDchan_adm (s : State) (c : Nat) (v : DChan) : (setDchan s c v).adm = s.adm := rfl
@[simp] theorem setDchan_zones (s : State) (c : Nat) (v : DChan) : (setDchan s c v).zones = s.zones := rfl
@[simp] theorem setDchan_nss (s : State) (c : Nat) (v : DChan) : (setDchan s c v).nss = s.nss := rfl
@[simp] theorem setDchan_rings (s : State) (c : Nat) (v : DChan) : (setDchan s c v).rings = s.rings := rfl
@[simp] theorem setDchan_jrn (s : State) (c : Nat) (v : DChan) : (setDchan s c v).jrn = s.jrn := rfl
@[simp] theorem setDchan_win (s : State) (c : Nat) (v : DChan) : (setDchan s c v).win = s.win := rfl
@[simp] theorem setDchan_dies (s : State) (c : Nat) (v : DChan) : (setDchan s c v).dies = s.dies := rfl
@[simp] theorem setDchan_reads (s : State) (c : Nat) (v : DChan) : (setDchan s c v).reads = s.reads := rfl
@[simp] theorem setDchan_sched (s : State) (c : Nat) (v : DChan) : (setDchan s c v).sched = s.sched := rfl
@[simp] theorem setDchan_groups (s : State) (c : Nat) (v : DChan) : (setDchan s c v).groups = s.groups := rfl
@[simp] theorem setDchan_chans (s : State) (c : Nat) (v : DChan) : (setDchan s c v).chans = s.chans := rfl
@[simp] theorem setDchan_ctxs (s : State) (c : Nat) (v : DChan) : (setDchan s c v).ctxs = s.ctxs := rfl
@[simp] theorem setDchan_power (s : State) (c : Nat) (v : DChan) : (setDchan s c v).power = s.power := rfl
@[simp] theorem setDchan_pair (s : State) (c : Nat) (v : DChan) : (setDchan s c v).pair = s.pair := rfl
@[simp] theorem setDchan_casc (s : State) (c : Nat) (v : DChan) : (setDchan s c v).casc = s.casc := rfl
@[simp] theorem setDchan_ciph (s : State) (c : Nat) (v : DChan) : (setDchan s c v).ciph = s.ciph := rfl
@[simp] theorem setDchan_pwr (s : State) (c : Nat) (v : DChan) : (setDchan s c v).pwr = s.pwr := rfl
@[simp] theorem setDchan_loop (s : State) (c : Nat) (v : DChan) : (setDchan s c v).loop = s.loop := rfl
@[simp] theorem setDchan_dram_mem (s : State) (c : Nat) (v : DChan) : (setDchan s c v).dram.mem = s.dram.mem := rfl
@[simp] theorem setDchan_dram_ranks (s : State) (c : Nat) (v : DChan) : (setDchan s c v).dram.ranks = s.dram.ranks := rfl
@[simp] theorem setDchan_dram_density (s : State) (c : Nat) (v : DChan) : (setDchan s c v).dram.density = s.dram.density := rfl
@[simp] theorem setDchan_dram_rate (s : State) (c : Nat) (v : DChan) : (setDchan s c v).dram.rate = s.dram.rate := rfl
@[simp] theorem setDchan_dram_initMark (s : State) (c : Nat) (v : DChan) : (setDchan s c v).dram.initMark = s.dram.initMark := rfl
@[simp] theorem setDchan_dram_initOther (s : State) (c : Nat) (v : DChan) : (setDchan s c v).dram.initOther = s.dram.initOther := rfl
@[simp] theorem setDchan_dram_withdrawn (s : State) (c : Nat) (v : DChan) : (setDchan s c v).dram.withdrawn = s.dram.withdrawn := rfl
@[simp] theorem setDchan_dram_sparesUsed (s : State) (c : Nat) (v : DChan) : (setDchan s c v).dram.sparesUsed = s.dram.sparesUsed := rfl
@[simp] theorem setDchan_dram_corrections (s : State) (c : Nat) (v : DChan) : (setDchan s c v).dram.corrections = s.dram.corrections := rfl
@[simp] theorem setDchan_dram_watch (s : State) (c : Nat) (v : DChan) : (setDchan s c v).dram.watch = s.dram.watch := rfl
@[simp] theorem setDchan_dram_nextRetrain (s : State) (c : Nat) (v : DChan) : (setDchan s c v).dram.nextRetrain = s.dram.nextRetrain := rfl
@[simp] theorem setDchan_dram_delivered (s : State) (c : Nat) (v : DChan) : (setDchan s c v).dram.delivered = s.dram.delivered := rfl
@[simp] theorem setDchan_pools (s : State) (c : Nat) (v : DChan) : (setDchan s c v).pools = s.pools := rfl
@[simp] theorem setDchan_rst (s : State) (c : Nat) (v : DChan) : (setDchan s c v).rst = s.rst := rfl
@[simp] theorem setDchan_bist (s : State) (c : Nat) (v : DChan) : (setDchan s c v).bist = s.bist := rfl
@[simp] theorem setDchan_loupe (s : State) (c : Nat) (v : DChan) : (setDchan s c v).loupe = s.loupe := rfl
@[simp] theorem setDchan_dict (s : State) (c : Nat) (v : DChan) : (setDchan s c v).dict = s.dict := rfl
@[simp] theorem setDchan_mgmt (s : State) (c : Nat) (v : DChan) : (setDchan s c v).mgmt = s.mgmt := rfl
@[simp] theorem setDchan_pins (s : State) (c : Nat) (v : DChan) : (setDchan s c v).pins = s.pins := rfl
@[simp] theorem setDchan_health (s : State) (c : Nat) (v : DChan) : (setDchan s c v).health = s.health := rfl
@[simp] theorem setDchan_toggles (s : State) (c : Nat) (v : DChan) : (setDchan s c v).toggles = s.toggles := rfl
@[simp] theorem setDchan_zone (s : State) (c : Nat) (v : DChan) (k : Nat) : zone (setDchan s c v) k = zone s k := rfl
@[simp] theorem setDchan_ring (s : State) (c : Nat) (v : DChan) (k : Nat) : ring (setDchan s c v) k = ring s k := rfl
@[simp] theorem setDchan_die (s : State) (c : Nat) (v : DChan) (k : Nat) : die (setDchan s c v) k = die s k := rfl
@[simp] theorem setDchan_grp (s : State) (c : Nat) (v : DChan) (k : Nat) : grp (setDchan s c v) k = grp s k := rfl
@[simp] theorem setDchan_chan (s : State) (c : Nat) (v : DChan) (k : Nat) : chan (setDchan s c v) k = chan s k := rfl
@[simp] theorem setDchan_ctx (s : State) (c : Nat) (v : DChan) (k : Nat) : ctx (setDchan s c v) k = ctx s k := rfl
@[simp] theorem setDchan_fnc (s : State) (c : Nat) (v : DChan) (k : Nat) : fnc (setDchan s c v) k = fnc s k := rfl
@[simp] theorem setDchan_member (s : State) (c : Nat) (v : DChan) (k : Nat) : member (setDchan s c v) k = member s k := rfl
@[simp] theorem setDchan_pool (s : State) (c : Nat) (v : DChan) (k : Nat) : pool (setDchan s c v) k = pool s k := rfl
@[simp] theorem setDchan_eng (s : State) (c : Nat) (v : DChan) (k : Nat) : eng (setDchan s c v) k = eng s k := rfl
@[simp] theorem setDchan_nsOpt (s : State) (c : Nat) (v : DChan) (k : Nat) : ns? (setDchan s c v) k = ns? s k := rfl
@[simp] theorem setDchan_cmdOpt (s : State) (c : Nat) (v : DChan) (k : Nat) : cmd? (setDchan s c v) k = cmd? s k := rfl
@[simp] theorem setDchan_od (s : State) (c : Nat) (v : DChan) (o x y : Nat) : od (setDchan s c v) o x y = od s o x y := rfl

/-! setPool -/

@[simp] theorem setPool_pending (s : State) (p : Nat) (v : Pool) : (setPool s p v).pending = s.pending := rfl
@[simp] theorem setPool_free (s : State) (p : Nat) (v : Pool) : (setPool s p v).free = s.free := rfl
@[simp] theorem setPool_host (s : State) (p : Nat) (v : Pool) : (setPool s p v).host = s.host := rfl
@[simp] theorem setPool_adm (s : State) (p : Nat) (v : Pool) : (setPool s p v).adm = s.adm := rfl
@[simp] theorem setPool_zones (s : State) (p : Nat) (v : Pool) : (setPool s p v).zones = s.zones := rfl
@[simp] theorem setPool_nss (s : State) (p : Nat) (v : Pool) : (setPool s p v).nss = s.nss := rfl
@[simp] theorem setPool_rings (s : State) (p : Nat) (v : Pool) : (setPool s p v).rings = s.rings := rfl
@[simp] theorem setPool_jrn (s : State) (p : Nat) (v : Pool) : (setPool s p v).jrn = s.jrn := rfl
@[simp] theorem setPool_win (s : State) (p : Nat) (v : Pool) : (setPool s p v).win = s.win := rfl
@[simp] theorem setPool_dies (s : State) (p : Nat) (v : Pool) : (setPool s p v).dies = s.dies := rfl
@[simp] theorem setPool_reads (s : State) (p : Nat) (v : Pool) : (setPool s p v).reads = s.reads := rfl
@[simp] theorem setPool_sched (s : State) (p : Nat) (v : Pool) : (setPool s p v).sched = s.sched := rfl
@[simp] theorem setPool_groups (s : State) (p : Nat) (v : Pool) : (setPool s p v).groups = s.groups := rfl
@[simp] theorem setPool_chans (s : State) (p : Nat) (v : Pool) : (setPool s p v).chans = s.chans := rfl
@[simp] theorem setPool_ctxs (s : State) (p : Nat) (v : Pool) : (setPool s p v).ctxs = s.ctxs := rfl
@[simp] theorem setPool_power (s : State) (p : Nat) (v : Pool) : (setPool s p v).power = s.power := rfl
@[simp] theorem setPool_pair (s : State) (p : Nat) (v : Pool) : (setPool s p v).pair = s.pair := rfl
@[simp] theorem setPool_casc (s : State) (p : Nat) (v : Pool) : (setPool s p v).casc = s.casc := rfl
@[simp] theorem setPool_ciph (s : State) (p : Nat) (v : Pool) : (setPool s p v).ciph = s.ciph := rfl
@[simp] theorem setPool_pwr (s : State) (p : Nat) (v : Pool) : (setPool s p v).pwr = s.pwr := rfl
@[simp] theorem setPool_loop (s : State) (p : Nat) (v : Pool) : (setPool s p v).loop = s.loop := rfl
@[simp] theorem setPool_dram (s : State) (p : Nat) (v : Pool) : (setPool s p v).dram = s.dram := rfl
@[simp] theorem setPool_rst (s : State) (p : Nat) (v : Pool) : (setPool s p v).rst = s.rst := rfl
@[simp] theorem setPool_bist (s : State) (p : Nat) (v : Pool) : (setPool s p v).bist = s.bist := rfl
@[simp] theorem setPool_loupe (s : State) (p : Nat) (v : Pool) : (setPool s p v).loupe = s.loupe := rfl
@[simp] theorem setPool_dict (s : State) (p : Nat) (v : Pool) : (setPool s p v).dict = s.dict := rfl
@[simp] theorem setPool_mgmt (s : State) (p : Nat) (v : Pool) : (setPool s p v).mgmt = s.mgmt := rfl
@[simp] theorem setPool_pins (s : State) (p : Nat) (v : Pool) : (setPool s p v).pins = s.pins := rfl
@[simp] theorem setPool_health (s : State) (p : Nat) (v : Pool) : (setPool s p v).health = s.health := rfl
@[simp] theorem setPool_toggles (s : State) (p : Nat) (v : Pool) : (setPool s p v).toggles = s.toggles := rfl
@[simp] theorem setPool_zone (s : State) (p : Nat) (v : Pool) (k : Nat) : zone (setPool s p v) k = zone s k := rfl
@[simp] theorem setPool_ring (s : State) (p : Nat) (v : Pool) (k : Nat) : ring (setPool s p v) k = ring s k := rfl
@[simp] theorem setPool_die (s : State) (p : Nat) (v : Pool) (k : Nat) : die (setPool s p v) k = die s k := rfl
@[simp] theorem setPool_grp (s : State) (p : Nat) (v : Pool) (k : Nat) : grp (setPool s p v) k = grp s k := rfl
@[simp] theorem setPool_chan (s : State) (p : Nat) (v : Pool) (k : Nat) : chan (setPool s p v) k = chan s k := rfl
@[simp] theorem setPool_ctx (s : State) (p : Nat) (v : Pool) (k : Nat) : ctx (setPool s p v) k = ctx s k := rfl
@[simp] theorem setPool_fnc (s : State) (p : Nat) (v : Pool) (k : Nat) : fnc (setPool s p v) k = fnc s k := rfl
@[simp] theorem setPool_member (s : State) (p : Nat) (v : Pool) (k : Nat) : member (setPool s p v) k = member s k := rfl
@[simp] theorem setPool_dchan (s : State) (p : Nat) (v : Pool) (k : Nat) : dchan (setPool s p v) k = dchan s k := rfl
@[simp] theorem setPool_eng (s : State) (p : Nat) (v : Pool) (k : Nat) : eng (setPool s p v) k = eng s k := rfl
@[simp] theorem setPool_nsOpt (s : State) (p : Nat) (v : Pool) (k : Nat) : ns? (setPool s p v) k = ns? s k := rfl
@[simp] theorem setPool_cmdOpt (s : State) (p : Nat) (v : Pool) (k : Nat) : cmd? (setPool s p v) k = cmd? s k := rfl
@[simp] theorem setPool_od (s : State) (p : Nat) (v : Pool) (o x y : Nat) : od (setPool s p v) o x y = od s o x y := rfl

/-! setLane -/

@[simp] theorem setLane_pending (s : State) (l : Nat) (v : Lane) : (setLane s l v).pending = s.pending := rfl
@[simp] theorem setLane_free (s : State) (l : Nat) (v : Lane) : (setLane s l v).free = s.free := rfl
@[simp] theorem setLane_host (s : State) (l : Nat) (v : Lane) : (setLane s l v).host = s.host := rfl
@[simp] theorem setLane_adm (s : State) (l : Nat) (v : Lane) : (setLane s l v).adm = s.adm := rfl
@[simp] theorem setLane_zones (s : State) (l : Nat) (v : Lane) : (setLane s l v).zones = s.zones := rfl
@[simp] theorem setLane_nss (s : State) (l : Nat) (v : Lane) : (setLane s l v).nss = s.nss := rfl
@[simp] theorem setLane_rings (s : State) (l : Nat) (v : Lane) : (setLane s l v).rings = s.rings := rfl
@[simp] theorem setLane_jrn (s : State) (l : Nat) (v : Lane) : (setLane s l v).jrn = s.jrn := rfl
@[simp] theorem setLane_win (s : State) (l : Nat) (v : Lane) : (setLane s l v).win = s.win := rfl
@[simp] theorem setLane_dies (s : State) (l : Nat) (v : Lane) : (setLane s l v).dies = s.dies := rfl
@[simp] theorem setLane_reads (s : State) (l : Nat) (v : Lane) : (setLane s l v).reads = s.reads := rfl
@[simp] theorem setLane_sched (s : State) (l : Nat) (v : Lane) : (setLane s l v).sched = s.sched := rfl
@[simp] theorem setLane_groups (s : State) (l : Nat) (v : Lane) : (setLane s l v).groups = s.groups := rfl
@[simp] theorem setLane_chans (s : State) (l : Nat) (v : Lane) : (setLane s l v).chans = s.chans := rfl
@[simp] theorem setLane_ctxs (s : State) (l : Nat) (v : Lane) : (setLane s l v).ctxs = s.ctxs := rfl
@[simp] theorem setLane_power (s : State) (l : Nat) (v : Lane) : (setLane s l v).power = s.power := rfl
@[simp] theorem setLane_pair (s : State) (l : Nat) (v : Lane) : (setLane s l v).pair = s.pair := rfl
@[simp] theorem setLane_casc (s : State) (l : Nat) (v : Lane) : (setLane s l v).casc = s.casc := rfl
@[simp] theorem setLane_ciph_root (s : State) (l : Nat) (v : Lane) : (setLane s l v).ciph.root = s.ciph.root := rfl
@[simp] theorem setLane_ciph_stored (s : State) (l : Nat) (v : Lane) : (setLane s l v).ciph.stored = s.ciph.stored := rfl
@[simp] theorem setLane_ciph_pendingRoot (s : State) (l : Nat) (v : Lane) : (setLane s l v).ciph.pendingRoot = s.ciph.pendingRoot := rfl
@[simp] theorem setLane_ciph_pendingErase (s : State) (l : Nat) (v : Lane) : (setLane s l v).ciph.pendingErase = s.ciph.pendingErase := rfl
@[simp] theorem setLane_ciph_badLanes (s : State) (l : Nat) (v : Lane) : (setLane s l v).ciph.badLanes = s.ciph.badLanes := rfl
@[simp] theorem setLane_ciph_urgentPtr (s : State) (l : Nat) (v : Lane) : (setLane s l v).ciph.urgentPtr = s.ciph.urgentPtr := rfl
@[simp] theorem setLane_ciph_normalPtr (s : State) (l : Nat) (v : Lane) : (setLane s l v).ciph.normalPtr = s.ciph.normalPtr := rfl
@[simp] theorem setLane_ciph_cache (s : State) (l : Nat) (v : Lane) : (setLane s l v).ciph.cache = s.ciph.cache := rfl
@[simp] theorem setLane_ciph_shared (s : State) (l : Nat) (v : Lane) : (setLane s l v).ciph.shared = s.ciph.shared := rfl
@[simp] theorem setLane_ciph_loaded (s : State) (l : Nat) (v : Lane) : (setLane s l v).ciph.loaded = s.ciph.loaded := rfl
@[simp] theorem setLane_ciph_drbgOk (s : State) (l : Nat) (v : Lane) : (setLane s l v).ciph.drbgOk = s.ciph.drbgOk := rfl
@[simp] theorem setLane_ciph_drbgUsed (s : State) (l : Nat) (v : Lane) : (setLane s l v).ciph.drbgUsed = s.ciph.drbgUsed := rfl
@[simp] theorem setLane_ciph_alarms (s : State) (l : Nat) (v : Lane) : (setLane s l v).ciph.alarms = s.ciph.alarms := rfl
@[simp] theorem setLane_ciph_sessions (s : State) (l : Nat) (v : Lane) : (setLane s l v).ciph.sessions = s.ciph.sessions := rfl
@[simp] theorem setLane_ciph_negotiated (s : State) (l : Nat) (v : Lane) : (setLane s l v).ciph.negotiated = s.ciph.negotiated := rfl
@[simp] theorem setLane_ciph_slot1 (s : State) (l : Nat) (v : Lane) : (setLane s l v).ciph.slot1 = s.ciph.slot1 := rfl
@[simp] theorem setLane_ciph_erased (s : State) (l : Nat) (v : Lane) : (setLane s l v).ciph.erased = s.ciph.erased := rfl
@[simp] theorem setLane_ciph_ms (s : State) (l : Nat) (v : Lane) : (setLane s l v).ciph.ms = s.ciph.ms := rfl
@[simp] theorem setLane_ciph_records (s : State) (l : Nat) (v : Lane) : (setLane s l v).ciph.records = s.ciph.records := rfl
@[simp] theorem setLane_ciph_retained (s : State) (l : Nat) (v : Lane) : (setLane s l v).ciph.retained = s.ciph.retained := rfl
@[simp] theorem setLane_ciph_fresh (s : State) (l : Nat) (v : Lane) : (setLane s l v).ciph.fresh = s.ciph.fresh := rfl
@[simp] theorem setLane_ciph_lacking (s : State) (l : Nat) (v : Lane) : (setLane s l v).ciph.lacking = s.ciph.lacking := rfl
@[simp] theorem setLane_ciph_slots (s : State) (l : Nat) (v : Lane) : (setLane s l v).ciph.slots = s.ciph.slots := rfl
@[simp] theorem setLane_ciph_chosen (s : State) (l : Nat) (v : Lane) : (setLane s l v).ciph.chosen = s.ciph.chosen := rfl
@[simp] theorem setLane_ciph_activeSlot (s : State) (l : Nat) (v : Lane) : (setLane s l v).ciph.activeSlot = s.ciph.activeSlot := rfl
@[simp] theorem setLane_ciph_otpMin (s : State) (l : Nat) (v : Lane) : (setLane s l v).ciph.otpMin = s.ciph.otpMin := rfl
@[simp] theorem setLane_ciph_alarmResets (s : State) (l : Nat) (v : Lane) : (setLane s l v).ciph.alarmResets = s.ciph.alarmResets := rfl
@[simp] theorem setLane_pwr (s : State) (l : Nat) (v : Lane) : (setLane s l v).pwr = s.pwr := rfl
@[simp] theorem setLane_loop (s : State) (l : Nat) (v : Lane) : (setLane s l v).loop = s.loop := rfl
@[simp] theorem setLane_dram (s : State) (l : Nat) (v : Lane) : (setLane s l v).dram = s.dram := rfl
@[simp] theorem setLane_pools (s : State) (l : Nat) (v : Lane) : (setLane s l v).pools = s.pools := rfl
@[simp] theorem setLane_rst (s : State) (l : Nat) (v : Lane) : (setLane s l v).rst = s.rst := rfl
@[simp] theorem setLane_bist (s : State) (l : Nat) (v : Lane) : (setLane s l v).bist = s.bist := rfl
@[simp] theorem setLane_loupe (s : State) (l : Nat) (v : Lane) : (setLane s l v).loupe = s.loupe := rfl
@[simp] theorem setLane_dict (s : State) (l : Nat) (v : Lane) : (setLane s l v).dict = s.dict := rfl
@[simp] theorem setLane_mgmt (s : State) (l : Nat) (v : Lane) : (setLane s l v).mgmt = s.mgmt := rfl
@[simp] theorem setLane_pins (s : State) (l : Nat) (v : Lane) : (setLane s l v).pins = s.pins := rfl
@[simp] theorem setLane_health (s : State) (l : Nat) (v : Lane) : (setLane s l v).health = s.health := rfl
@[simp] theorem setLane_toggles (s : State) (l : Nat) (v : Lane) : (setLane s l v).toggles = s.toggles := rfl
@[simp] theorem setLane_zone (s : State) (l : Nat) (v : Lane) (k : Nat) : zone (setLane s l v) k = zone s k := rfl
@[simp] theorem setLane_ring (s : State) (l : Nat) (v : Lane) (k : Nat) : ring (setLane s l v) k = ring s k := rfl
@[simp] theorem setLane_die (s : State) (l : Nat) (v : Lane) (k : Nat) : die (setLane s l v) k = die s k := rfl
@[simp] theorem setLane_grp (s : State) (l : Nat) (v : Lane) (k : Nat) : grp (setLane s l v) k = grp s k := rfl
@[simp] theorem setLane_chan (s : State) (l : Nat) (v : Lane) (k : Nat) : chan (setLane s l v) k = chan s k := rfl
@[simp] theorem setLane_ctx (s : State) (l : Nat) (v : Lane) (k : Nat) : ctx (setLane s l v) k = ctx s k := rfl
@[simp] theorem setLane_fnc (s : State) (l : Nat) (v : Lane) (k : Nat) : fnc (setLane s l v) k = fnc s k := rfl
@[simp] theorem setLane_member (s : State) (l : Nat) (v : Lane) (k : Nat) : member (setLane s l v) k = member s k := rfl
@[simp] theorem setLane_dchan (s : State) (l : Nat) (v : Lane) (k : Nat) : dchan (setLane s l v) k = dchan s k := rfl
@[simp] theorem setLane_pool (s : State) (l : Nat) (v : Lane) (k : Nat) : pool (setLane s l v) k = pool s k := rfl
@[simp] theorem setLane_eng (s : State) (l : Nat) (v : Lane) (k : Nat) : eng (setLane s l v) k = eng s k := rfl
@[simp] theorem setLane_nsOpt (s : State) (l : Nat) (v : Lane) (k : Nat) : ns? (setLane s l v) k = ns? s k := rfl
@[simp] theorem setLane_cmdOpt (s : State) (l : Nat) (v : Lane) (k : Nat) : cmd? (setLane s l v) k = cmd? s k := rfl
@[simp] theorem setLane_od (s : State) (l : Nat) (v : Lane) (o x y : Nat) : od (setLane s l v) o x y = od s o x y := rfl

/-! setEng -/

@[simp] theorem setEng_pending (s : State) (e : Nat) (v : Engine) : (setEng s e v).pending = s.pending := by unfold setEng; split <;> rfl
@[simp] theorem setEng_free (s : State) (e : Nat) (v : Engine) : (setEng s e v).free = s.free := by unfold setEng; split <;> rfl
@[simp] theorem setEng_host (s : State) (e : Nat) (v : Engine) : (setEng s e v).host = s.host := by unfold setEng; split <;> rfl
@[simp] theorem setEng_adm (s : State) (e : Nat) (v : Engine) : (setEng s e v).adm = s.adm := by unfold setEng; split <;> rfl
@[simp] theorem setEng_zones (s : State) (e : Nat) (v : Engine) : (setEng s e v).zones = s.zones := by unfold setEng; split <;> rfl
@[simp] theorem setEng_nss (s : State) (e : Nat) (v : Engine) : (setEng s e v).nss = s.nss := by unfold setEng; split <;> rfl
@[simp] theorem setEng_rings (s : State) (e : Nat) (v : Engine) : (setEng s e v).rings = s.rings := by unfold setEng; split <;> rfl
@[simp] theorem setEng_jrn (s : State) (e : Nat) (v : Engine) : (setEng s e v).jrn = s.jrn := by unfold setEng; split <;> rfl
@[simp] theorem setEng_win (s : State) (e : Nat) (v : Engine) : (setEng s e v).win = s.win := by unfold setEng; split <;> rfl
@[simp] theorem setEng_dies (s : State) (e : Nat) (v : Engine) : (setEng s e v).dies = s.dies := by unfold setEng; split <;> rfl
@[simp] theorem setEng_reads (s : State) (e : Nat) (v : Engine) : (setEng s e v).reads = s.reads := by unfold setEng; split <;> rfl
@[simp] theorem setEng_sched (s : State) (e : Nat) (v : Engine) : (setEng s e v).sched = s.sched := by unfold setEng; split <;> rfl
@[simp] theorem setEng_groups (s : State) (e : Nat) (v : Engine) : (setEng s e v).groups = s.groups := by unfold setEng; split <;> rfl
@[simp] theorem setEng_chans (s : State) (e : Nat) (v : Engine) : (setEng s e v).chans = s.chans := by unfold setEng; split <;> rfl
@[simp] theorem setEng_ctxs (s : State) (e : Nat) (v : Engine) : (setEng s e v).ctxs = s.ctxs := by unfold setEng; split <;> rfl
@[simp] theorem setEng_power (s : State) (e : Nat) (v : Engine) : (setEng s e v).power = s.power := by unfold setEng; split <;> rfl
@[simp] theorem setEng_pair (s : State) (e : Nat) (v : Engine) : (setEng s e v).pair = s.pair := by unfold setEng; split <;> rfl
@[simp] theorem setEng_casc (s : State) (e : Nat) (v : Engine) : (setEng s e v).casc = s.casc := by unfold setEng; split <;> rfl
@[simp] theorem setEng_ciph (s : State) (e : Nat) (v : Engine) : (setEng s e v).ciph = s.ciph := by unfold setEng; split <;> rfl
@[simp] theorem setEng_pwr (s : State) (e : Nat) (v : Engine) : (setEng s e v).pwr = s.pwr := by unfold setEng; split <;> rfl
@[simp] theorem setEng_loop_mode (s : State) (e : Nat) (v : Engine) : (setEng s e v).loop.mode = s.loop.mode := by unfold setEng; split <;> rfl
@[simp] theorem setEng_loop_u (s : State) (e : Nat) (v : Engine) : (setEng s e v).loop.u = s.loop.u := by unfold setEng; split <;> rfl
@[simp] theorem setEng_loop_uInForce (s : State) (e : Nat) (v : Engine) : (setEng s e v).loop.uInForce = s.loop.uInForce := by unfold setEng; split <;> rfl
@[simp] theorem setEng_loop_levelReq (s : State) (e : Nat) (v : Engine) : (setEng s e v).loop.levelReq = s.loop.levelReq := by unfold setEng; split <;> rfl
@[simp] theorem setEng_loop_mailbox (s : State) (e : Nat) (v : Engine) : (setEng s e v).loop.mailbox = s.loop.mailbox := by unfold setEng; split <;> rfl
@[simp] theorem setEng_loop_mailbox0 (s : State) (e : Nat) (v : Engine) : (setEng s e v).loop.mailbox0 = s.loop.mailbox0 := by unfold setEng; split <;> rfl
@[simp] theorem setEng_dram (s : State) (e : Nat) (v : Engine) : (setEng s e v).dram = s.dram := by unfold setEng; split <;> rfl
@[simp] theorem setEng_pools (s : State) (e : Nat) (v : Engine) : (setEng s e v).pools = s.pools := by unfold setEng; split <;> rfl
@[simp] theorem setEng_rst (s : State) (e : Nat) (v : Engine) : (setEng s e v).rst = s.rst := by unfold setEng; split <;> rfl
@[simp] theorem setEng_bist (s : State) (e : Nat) (v : Engine) : (setEng s e v).bist = s.bist := by unfold setEng; split <;> rfl
@[simp] theorem setEng_loupe (s : State) (e : Nat) (v : Engine) : (setEng s e v).loupe = s.loupe := by unfold setEng; split <;> rfl
@[simp] theorem setEng_dict (s : State) (e : Nat) (v : Engine) : (setEng s e v).dict = s.dict := by unfold setEng; split <;> rfl
@[simp] theorem setEng_mgmt (s : State) (e : Nat) (v : Engine) : (setEng s e v).mgmt = s.mgmt := by unfold setEng; split <;> rfl
@[simp] theorem setEng_pins (s : State) (e : Nat) (v : Engine) : (setEng s e v).pins = s.pins := by unfold setEng; split <;> rfl
@[simp] theorem setEng_health (s : State) (e : Nat) (v : Engine) : (setEng s e v).health = s.health := by unfold setEng; split <;> rfl
@[simp] theorem setEng_toggles (s : State) (e : Nat) (v : Engine) : (setEng s e v).toggles = s.toggles := by unfold setEng; split <;> rfl
@[simp] theorem setEng_zone (s : State) (e : Nat) (v : Engine) (k : Nat) : zone (setEng s e v) k = zone s k := by unfold setEng; split <;> rfl
@[simp] theorem setEng_ring (s : State) (e : Nat) (v : Engine) (k : Nat) : ring (setEng s e v) k = ring s k := by unfold setEng; split <;> rfl
@[simp] theorem setEng_die (s : State) (e : Nat) (v : Engine) (k : Nat) : die (setEng s e v) k = die s k := by unfold setEng; split <;> rfl
@[simp] theorem setEng_grp (s : State) (e : Nat) (v : Engine) (k : Nat) : grp (setEng s e v) k = grp s k := by unfold setEng; split <;> rfl
@[simp] theorem setEng_chan (s : State) (e : Nat) (v : Engine) (k : Nat) : chan (setEng s e v) k = chan s k := by unfold setEng; split <;> rfl
@[simp] theorem setEng_ctx (s : State) (e : Nat) (v : Engine) (k : Nat) : ctx (setEng s e v) k = ctx s k := by unfold setEng; split <;> rfl
@[simp] theorem setEng_fnc (s : State) (e : Nat) (v : Engine) (k : Nat) : fnc (setEng s e v) k = fnc s k := by unfold setEng; split <;> rfl
@[simp] theorem setEng_member (s : State) (e : Nat) (v : Engine) (k : Nat) : member (setEng s e v) k = member s k := by unfold setEng; split <;> rfl
@[simp] theorem setEng_dchan (s : State) (e : Nat) (v : Engine) (k : Nat) : dchan (setEng s e v) k = dchan s k := by unfold setEng; split <;> rfl
@[simp] theorem setEng_pool (s : State) (e : Nat) (v : Engine) (k : Nat) : pool (setEng s e v) k = pool s k := by unfold setEng; split <;> rfl
@[simp] theorem setEng_nsOpt (s : State) (e : Nat) (v : Engine) (k : Nat) : ns? (setEng s e v) k = ns? s k := by unfold setEng; split <;> rfl
@[simp] theorem setEng_cmdOpt (s : State) (e : Nat) (v : Engine) (k : Nat) : cmd? (setEng s e v) k = cmd? s k := by unfold setEng; split <;> rfl
@[simp] theorem setEng_od (s : State) (e : Nat) (v : Engine) (o x y : Nat) : od (setEng s e v) o x y = od s o x y := by unfold setEng; split <;> rfl

/-! setNs -/

@[simp] theorem setNs_pending (s : State) (n : Ns) : (setNs s n).pending = s.pending := rfl
@[simp] theorem setNs_free (s : State) (n : Ns) : (setNs s n).free = s.free := rfl
@[simp] theorem setNs_host (s : State) (n : Ns) : (setNs s n).host = s.host := rfl
@[simp] theorem setNs_adm (s : State) (n : Ns) : (setNs s n).adm = s.adm := rfl
@[simp] theorem setNs_zones (s : State) (n : Ns) : (setNs s n).zones = s.zones := rfl
@[simp] theorem setNs_rings (s : State) (n : Ns) : (setNs s n).rings = s.rings := rfl
@[simp] theorem setNs_jrn (s : State) (n : Ns) : (setNs s n).jrn = s.jrn := rfl
@[simp] theorem setNs_win (s : State) (n : Ns) : (setNs s n).win = s.win := rfl
@[simp] theorem setNs_dies (s : State) (n : Ns) : (setNs s n).dies = s.dies := rfl
@[simp] theorem setNs_reads (s : State) (n : Ns) : (setNs s n).reads = s.reads := rfl
@[simp] theorem setNs_sched (s : State) (n : Ns) : (setNs s n).sched = s.sched := rfl
@[simp] theorem setNs_groups (s : State) (n : Ns) : (setNs s n).groups = s.groups := rfl
@[simp] theorem setNs_chans (s : State) (n : Ns) : (setNs s n).chans = s.chans := rfl
@[simp] theorem setNs_ctxs (s : State) (n : Ns) : (setNs s n).ctxs = s.ctxs := rfl
@[simp] theorem setNs_power (s : State) (n : Ns) : (setNs s n).power = s.power := rfl
@[simp] theorem setNs_pair (s : State) (n : Ns) : (setNs s n).pair = s.pair := rfl
@[simp] theorem setNs_casc (s : State) (n : Ns) : (setNs s n).casc = s.casc := rfl
@[simp] theorem setNs_ciph (s : State) (n : Ns) : (setNs s n).ciph = s.ciph := rfl
@[simp] theorem setNs_pwr (s : State) (n : Ns) : (setNs s n).pwr = s.pwr := rfl
@[simp] theorem setNs_loop (s : State) (n : Ns) : (setNs s n).loop = s.loop := rfl
@[simp] theorem setNs_dram (s : State) (n : Ns) : (setNs s n).dram = s.dram := rfl
@[simp] theorem setNs_pools (s : State) (n : Ns) : (setNs s n).pools = s.pools := rfl
@[simp] theorem setNs_rst (s : State) (n : Ns) : (setNs s n).rst = s.rst := rfl
@[simp] theorem setNs_bist (s : State) (n : Ns) : (setNs s n).bist = s.bist := rfl
@[simp] theorem setNs_loupe (s : State) (n : Ns) : (setNs s n).loupe = s.loupe := rfl
@[simp] theorem setNs_dict (s : State) (n : Ns) : (setNs s n).dict = s.dict := rfl
@[simp] theorem setNs_mgmt (s : State) (n : Ns) : (setNs s n).mgmt = s.mgmt := rfl
@[simp] theorem setNs_pins (s : State) (n : Ns) : (setNs s n).pins = s.pins := rfl
@[simp] theorem setNs_health (s : State) (n : Ns) : (setNs s n).health = s.health := rfl
@[simp] theorem setNs_toggles (s : State) (n : Ns) : (setNs s n).toggles = s.toggles := rfl
@[simp] theorem setNs_zone (s : State) (n : Ns) (k : Nat) : zone (setNs s n) k = zone s k := rfl
@[simp] theorem setNs_ring (s : State) (n : Ns) (k : Nat) : ring (setNs s n) k = ring s k := rfl
@[simp] theorem setNs_die (s : State) (n : Ns) (k : Nat) : die (setNs s n) k = die s k := rfl
@[simp] theorem setNs_grp (s : State) (n : Ns) (k : Nat) : grp (setNs s n) k = grp s k := rfl
@[simp] theorem setNs_chan (s : State) (n : Ns) (k : Nat) : chan (setNs s n) k = chan s k := rfl
@[simp] theorem setNs_ctx (s : State) (n : Ns) (k : Nat) : ctx (setNs s n) k = ctx s k := rfl
@[simp] theorem setNs_fnc (s : State) (n : Ns) (k : Nat) : fnc (setNs s n) k = fnc s k := rfl
@[simp] theorem setNs_member (s : State) (n : Ns) (k : Nat) : member (setNs s n) k = member s k := rfl
@[simp] theorem setNs_dchan (s : State) (n : Ns) (k : Nat) : dchan (setNs s n) k = dchan s k := rfl
@[simp] theorem setNs_pool (s : State) (n : Ns) (k : Nat) : pool (setNs s n) k = pool s k := rfl
@[simp] theorem setNs_eng (s : State) (n : Ns) (k : Nat) : eng (setNs s n) k = eng s k := rfl
@[simp] theorem setNs_cmdOpt (s : State) (n : Ns) (k : Nat) : cmd? (setNs s n) k = cmd? s k := rfl
@[simp] theorem setNs_od (s : State) (n : Ns) (o x y : Nat) : od (setNs s n) o x y = od s o x y := rfl

/-! setCmd -/

@[simp] theorem setCmd_pending (s : State) (c : Cmd) : (setCmd s c).pending = s.pending := rfl
@[simp] theorem setCmd_free (s : State) (c : Cmd) : (setCmd s c).free = s.free := rfl
@[simp] theorem setCmd_host_fns (s : State) (c : Cmd) : (setCmd s c).host.fns = s.host.fns := rfl
@[simp] theorem setCmd_host_vtime (s : State) (c : Cmd) : (setCmd s c).host.vtime = s.host.vtime := rfl
@[simp] theorem setCmd_host_rrPtr (s : State) (c : Cmd) : (setCmd s c).host.rrPtr = s.host.rrPtr := rfl
@[simp] theorem setCmd_host_fetchOrder (s : State) (c : Cmd) : (setCmd s c).host.fetchOrder = s.host.fetchOrder := rfl
@[simp] theorem setCmd_host_granted (s : State) (c : Cmd) : (setCmd s c).host.granted = s.host.granted := rfl
@[simp] theorem setCmd_host_nextId (s : State) (c : Cmd) : (setCmd s c).host.nextId = s.host.nextId := rfl
@[simp] theorem setCmd_host_cq (s : State) (c : Cmd) : (setCmd s c).host.cq = s.host.cq := rfl
@[simp] theorem setCmd_host_numVfs (s : State) (c : Cmd) : (setCmd s c).host.numVfs = s.host.numVfs := rfl
@[simp] theorem setCmd_host_linkNo (s : State) (c : Cmd) : (setCmd s c).host.linkNo = s.host.linkNo := rfl
@[simp] theorem setCmd_host_linkMax (s : State) (c : Cmd) : (setCmd s c).host.linkMax = s.host.linkMax := rfl
@[simp] theorem setCmd_host_bifurcated (s : State) (c : Cmd) : (setCmd s c).host.bifurcated = s.host.bifurcated := rfl
@[simp] theorem setCmd_host_freeVq (s : State) (c : Cmd) : (setCmd s c).host.freeVq = s.host.freeVq := rfl
@[simp] theorem setCmd_host_freeVi (s : State) (c : Cmd) : (setCmd s c).host.freeVi = s.host.freeVi := rfl
@[simp] theorem setCmd_host_cfgServed (s : State) (c : Cmd) : (setCmd s c).host.cfgServed = s.host.cfgServed := rfl
@[simp] theorem setCmd_host_fdp (s : State) (c : Cmd) : (setCmd s c).host.fdp = s.host.fdp := rfl
@[simp] theorem setCmd_host_fdpEnabled (s : State) (c : Cmd) : (setCmd s c).host.fdpEnabled = s.host.fdpEnabled := rfl
@[simp] theorem setCmd_host_fdpEvents (s : State) (c : Cmd) : (setCmd s c).host.fdpEvents = s.host.fdpEvents := rfl
@[simp] theorem setCmd_host_fdpHost (s : State) (c : Cmd) : (setCmd s c).host.fdpHost = s.host.fdpHost := rfl
@[simp] theorem setCmd_host_fdpMedia (s : State) (c : Cmd) : (setCmd s c).host.fdpMedia = s.host.fdpMedia := rfl
@[simp] theorem setCmd_host_fdpErased (s : State) (c : Cmd) : (setCmd s c).host.fdpErased = s.host.fdpErased := rfl
@[simp] theorem setCmd_host_sanitizeStatus (s : State) (c : Cmd) : (setCmd s c).host.sanitizeStatus = s.host.sanitizeStatus := rfl
@[simp] theorem setCmd_host_d3hot (s : State) (c : Cmd) : (setCmd s c).host.d3hot = s.host.d3hot := rfl
@[simp] theorem setCmd_adm (s : State) (c : Cmd) : (setCmd s c).adm = s.adm := rfl
@[simp] theorem setCmd_zones (s : State) (c : Cmd) : (setCmd s c).zones = s.zones := rfl
@[simp] theorem setCmd_nss (s : State) (c : Cmd) : (setCmd s c).nss = s.nss := rfl
@[simp] theorem setCmd_rings (s : State) (c : Cmd) : (setCmd s c).rings = s.rings := rfl
@[simp] theorem setCmd_jrn (s : State) (c : Cmd) : (setCmd s c).jrn = s.jrn := rfl
@[simp] theorem setCmd_win (s : State) (c : Cmd) : (setCmd s c).win = s.win := rfl
@[simp] theorem setCmd_dies (s : State) (c : Cmd) : (setCmd s c).dies = s.dies := rfl
@[simp] theorem setCmd_reads (s : State) (c : Cmd) : (setCmd s c).reads = s.reads := rfl
@[simp] theorem setCmd_sched (s : State) (c : Cmd) : (setCmd s c).sched = s.sched := rfl
@[simp] theorem setCmd_groups (s : State) (c : Cmd) : (setCmd s c).groups = s.groups := rfl
@[simp] theorem setCmd_chans (s : State) (c : Cmd) : (setCmd s c).chans = s.chans := rfl
@[simp] theorem setCmd_ctxs (s : State) (c : Cmd) : (setCmd s c).ctxs = s.ctxs := rfl
@[simp] theorem setCmd_power (s : State) (c : Cmd) : (setCmd s c).power = s.power := rfl
@[simp] theorem setCmd_pair (s : State) (c : Cmd) : (setCmd s c).pair = s.pair := rfl
@[simp] theorem setCmd_casc (s : State) (c : Cmd) : (setCmd s c).casc = s.casc := rfl
@[simp] theorem setCmd_ciph (s : State) (c : Cmd) : (setCmd s c).ciph = s.ciph := rfl
@[simp] theorem setCmd_pwr (s : State) (c : Cmd) : (setCmd s c).pwr = s.pwr := rfl
@[simp] theorem setCmd_loop (s : State) (c : Cmd) : (setCmd s c).loop = s.loop := rfl
@[simp] theorem setCmd_dram (s : State) (c : Cmd) : (setCmd s c).dram = s.dram := rfl
@[simp] theorem setCmd_pools (s : State) (c : Cmd) : (setCmd s c).pools = s.pools := rfl
@[simp] theorem setCmd_rst (s : State) (c : Cmd) : (setCmd s c).rst = s.rst := rfl
@[simp] theorem setCmd_bist (s : State) (c : Cmd) : (setCmd s c).bist = s.bist := rfl
@[simp] theorem setCmd_loupe (s : State) (c : Cmd) : (setCmd s c).loupe = s.loupe := rfl
@[simp] theorem setCmd_dict (s : State) (c : Cmd) : (setCmd s c).dict = s.dict := rfl
@[simp] theorem setCmd_mgmt (s : State) (c : Cmd) : (setCmd s c).mgmt = s.mgmt := rfl
@[simp] theorem setCmd_pins (s : State) (c : Cmd) : (setCmd s c).pins = s.pins := rfl
@[simp] theorem setCmd_health (s : State) (c : Cmd) : (setCmd s c).health = s.health := rfl
@[simp] theorem setCmd_toggles (s : State) (c : Cmd) : (setCmd s c).toggles = s.toggles := rfl
@[simp] theorem setCmd_zone (s : State) (c : Cmd) (k : Nat) : zone (setCmd s c) k = zone s k := rfl
@[simp] theorem setCmd_ring (s : State) (c : Cmd) (k : Nat) : ring (setCmd s c) k = ring s k := rfl
@[simp] theorem setCmd_die (s : State) (c : Cmd) (k : Nat) : die (setCmd s c) k = die s k := rfl
@[simp] theorem setCmd_grp (s : State) (c : Cmd) (k : Nat) : grp (setCmd s c) k = grp s k := rfl
@[simp] theorem setCmd_chan (s : State) (c : Cmd) (k : Nat) : chan (setCmd s c) k = chan s k := rfl
@[simp] theorem setCmd_ctx (s : State) (c : Cmd) (k : Nat) : ctx (setCmd s c) k = ctx s k := rfl
@[simp] theorem setCmd_fnc (s : State) (c : Cmd) (k : Nat) : fnc (setCmd s c) k = fnc s k := rfl
@[simp] theorem setCmd_member (s : State) (c : Cmd) (k : Nat) : member (setCmd s c) k = member s k := rfl
@[simp] theorem setCmd_dchan (s : State) (c : Cmd) (k : Nat) : dchan (setCmd s c) k = dchan s k := rfl
@[simp] theorem setCmd_pool (s : State) (c : Cmd) (k : Nat) : pool (setCmd s c) k = pool s k := rfl
@[simp] theorem setCmd_eng (s : State) (c : Cmd) (k : Nat) : eng (setCmd s c) k = eng s k := rfl
@[simp] theorem setCmd_nsOpt (s : State) (c : Cmd) (k : Nat) : ns? (setCmd s c) k = ns? s k := rfl
@[simp] theorem setCmd_od (s : State) (c : Cmd) (o x y : Nat) : od (setCmd s c) o x y = od s o x y := rfl

/-! setRdUnit -/

@[simp] theorem setRdUnit_pending (s : State) (r : RdUnit) : (setRdUnit s r).pending = s.pending := rfl
@[simp] theorem setRdUnit_free (s : State) (r : RdUnit) : (setRdUnit s r).free = s.free := rfl
@[simp] theorem setRdUnit_host (s : State) (r : RdUnit) : (setRdUnit s r).host = s.host := rfl
@[simp] theorem setRdUnit_adm (s : State) (r : RdUnit) : (setRdUnit s r).adm = s.adm := rfl
@[simp] theorem setRdUnit_zones (s : State) (r : RdUnit) : (setRdUnit s r).zones = s.zones := rfl
@[simp] theorem setRdUnit_nss (s : State) (r : RdUnit) : (setRdUnit s r).nss = s.nss := rfl
@[simp] theorem setRdUnit_rings (s : State) (r : RdUnit) : (setRdUnit s r).rings = s.rings := rfl
@[simp] theorem setRdUnit_jrn (s : State) (r : RdUnit) : (setRdUnit s r).jrn = s.jrn := rfl
@[simp] theorem setRdUnit_win (s : State) (r : RdUnit) : (setRdUnit s r).win = s.win := rfl
@[simp] theorem setRdUnit_dies (s : State) (r : RdUnit) : (setRdUnit s r).dies = s.dies := rfl
@[simp] theorem setRdUnit_sched (s : State) (r : RdUnit) : (setRdUnit s r).sched = s.sched := rfl
@[simp] theorem setRdUnit_groups (s : State) (r : RdUnit) : (setRdUnit s r).groups = s.groups := rfl
@[simp] theorem setRdUnit_chans (s : State) (r : RdUnit) : (setRdUnit s r).chans = s.chans := rfl
@[simp] theorem setRdUnit_ctxs (s : State) (r : RdUnit) : (setRdUnit s r).ctxs = s.ctxs := rfl
@[simp] theorem setRdUnit_power (s : State) (r : RdUnit) : (setRdUnit s r).power = s.power := rfl
@[simp] theorem setRdUnit_pair (s : State) (r : RdUnit) : (setRdUnit s r).pair = s.pair := rfl
@[simp] theorem setRdUnit_casc (s : State) (r : RdUnit) : (setRdUnit s r).casc = s.casc := rfl
@[simp] theorem setRdUnit_ciph (s : State) (r : RdUnit) : (setRdUnit s r).ciph = s.ciph := rfl
@[simp] theorem setRdUnit_pwr (s : State) (r : RdUnit) : (setRdUnit s r).pwr = s.pwr := rfl
@[simp] theorem setRdUnit_loop (s : State) (r : RdUnit) : (setRdUnit s r).loop = s.loop := rfl
@[simp] theorem setRdUnit_dram (s : State) (r : RdUnit) : (setRdUnit s r).dram = s.dram := rfl
@[simp] theorem setRdUnit_pools (s : State) (r : RdUnit) : (setRdUnit s r).pools = s.pools := rfl
@[simp] theorem setRdUnit_rst (s : State) (r : RdUnit) : (setRdUnit s r).rst = s.rst := rfl
@[simp] theorem setRdUnit_bist (s : State) (r : RdUnit) : (setRdUnit s r).bist = s.bist := rfl
@[simp] theorem setRdUnit_loupe (s : State) (r : RdUnit) : (setRdUnit s r).loupe = s.loupe := rfl
@[simp] theorem setRdUnit_dict (s : State) (r : RdUnit) : (setRdUnit s r).dict = s.dict := rfl
@[simp] theorem setRdUnit_mgmt (s : State) (r : RdUnit) : (setRdUnit s r).mgmt = s.mgmt := rfl
@[simp] theorem setRdUnit_pins (s : State) (r : RdUnit) : (setRdUnit s r).pins = s.pins := rfl
@[simp] theorem setRdUnit_health (s : State) (r : RdUnit) : (setRdUnit s r).health = s.health := rfl
@[simp] theorem setRdUnit_toggles (s : State) (r : RdUnit) : (setRdUnit s r).toggles = s.toggles := rfl
@[simp] theorem setRdUnit_zone (s : State) (r : RdUnit) (k : Nat) : zone (setRdUnit s r) k = zone s k := rfl
@[simp] theorem setRdUnit_ring (s : State) (r : RdUnit) (k : Nat) : ring (setRdUnit s r) k = ring s k := rfl
@[simp] theorem setRdUnit_die (s : State) (r : RdUnit) (k : Nat) : die (setRdUnit s r) k = die s k := rfl
@[simp] theorem setRdUnit_grp (s : State) (r : RdUnit) (k : Nat) : grp (setRdUnit s r) k = grp s k := rfl
@[simp] theorem setRdUnit_chan (s : State) (r : RdUnit) (k : Nat) : chan (setRdUnit s r) k = chan s k := rfl
@[simp] theorem setRdUnit_ctx (s : State) (r : RdUnit) (k : Nat) : ctx (setRdUnit s r) k = ctx s k := rfl
@[simp] theorem setRdUnit_fnc (s : State) (r : RdUnit) (k : Nat) : fnc (setRdUnit s r) k = fnc s k := rfl
@[simp] theorem setRdUnit_member (s : State) (r : RdUnit) (k : Nat) : member (setRdUnit s r) k = member s k := rfl
@[simp] theorem setRdUnit_dchan (s : State) (r : RdUnit) (k : Nat) : dchan (setRdUnit s r) k = dchan s k := rfl
@[simp] theorem setRdUnit_pool (s : State) (r : RdUnit) (k : Nat) : pool (setRdUnit s r) k = pool s k := rfl
@[simp] theorem setRdUnit_eng (s : State) (r : RdUnit) (k : Nat) : eng (setRdUnit s r) k = eng s k := rfl
@[simp] theorem setRdUnit_nsOpt (s : State) (r : RdUnit) (k : Nat) : ns? (setRdUnit s r) k = ns? s k := rfl
@[simp] theorem setRdUnit_cmdOpt (s : State) (r : RdUnit) (k : Nat) : cmd? (setRdUnit s r) k = cmd? s k := rfl
@[simp] theorem setRdUnit_od (s : State) (r : RdUnit) (o x y : Nat) : od (setRdUnit s r) o x y = od s o x y := rfl

/-! journal -/

@[simp] theorem journal_pending (s : State) (t : Nat) (b : List Nat) : (journal s t b).pending = s.pending := rfl
@[simp] theorem journal_free (s : State) (t : Nat) (b : List Nat) : (journal s t b).free = s.free := rfl
@[simp] theorem journal_host (s : State) (t : Nat) (b : List Nat) : (journal s t b).host = s.host := rfl
@[simp] theorem journal_adm (s : State) (t : Nat) (b : List Nat) : (journal s t b).adm = s.adm := rfl
@[simp] theorem journal_zones (s : State) (t : Nat) (b : List Nat) : (journal s t b).zones = s.zones := rfl
@[simp] theorem journal_nss (s : State) (t : Nat) (b : List Nat) : (journal s t b).nss = s.nss := rfl
@[simp] theorem journal_rings (s : State) (t : Nat) (b : List Nat) : (journal s t b).rings = s.rings := rfl
@[simp] theorem journal_jrn_durable (s : State) (t : Nat) (b : List Nat) : (journal s t b).jrn.durable = s.jrn.durable := rfl
@[simp] theorem journal_jrn_pageSeq (s : State) (t : Nat) (b : List Nat) : (journal s t b).jrn.pageSeq = s.jrn.pageSeq := rfl
@[simp] theorem journal_jrn_sinceBegin (s : State) (t : Nat) (b : List Nat) : (journal s t b).jrn.sinceBegin = s.jrn.sinceBegin := rfl
@[simp] theorem journal_jrn_ckpt (s : State) (t : Nat) (b : List Nat) : (journal s t b).jrn.ckpt = s.jrn.ckpt := rfl
@[simp] theorem journal_jrn_running (s : State) (t : Nat) (b : List Nat) : (journal s t b).jrn.running = s.jrn.running := rfl
@[simp] theorem journal_jrn_beginLsn (s : State) (t : Nat) (b : List Nat) : (journal s t b).jrn.beginLsn = s.jrn.beginLsn := rfl
@[simp] theorem journal_jrn_pages (s : State) (t : Nat) (b : List Nat) : (journal s t b).jrn.pages = s.jrn.pages := rfl
@[simp] theorem journal_win (s : State) (t : Nat) (b : List Nat) : (journal s t b).win = s.win := rfl
@[simp] theorem journal_dies (s : State) (t : Nat) (b : List Nat) : (journal s t b).dies = s.dies := rfl
@[simp] theorem journal_reads (s : State) (t : Nat) (b : List Nat) : (journal s t b).reads = s.reads := rfl
@[simp] theorem journal_sched (s : State) (t : Nat) (b : List Nat) : (journal s t b).sched = s.sched := rfl
@[simp] theorem journal_groups (s : State) (t : Nat) (b : List Nat) : (journal s t b).groups = s.groups := rfl
@[simp] theorem journal_chans (s : State) (t : Nat) (b : List Nat) : (journal s t b).chans = s.chans := rfl
@[simp] theorem journal_ctxs (s : State) (t : Nat) (b : List Nat) : (journal s t b).ctxs = s.ctxs := rfl
@[simp] theorem journal_power (s : State) (t : Nat) (b : List Nat) : (journal s t b).power = s.power := rfl
@[simp] theorem journal_pair (s : State) (t : Nat) (b : List Nat) : (journal s t b).pair = s.pair := rfl
@[simp] theorem journal_casc (s : State) (t : Nat) (b : List Nat) : (journal s t b).casc = s.casc := rfl
@[simp] theorem journal_ciph (s : State) (t : Nat) (b : List Nat) : (journal s t b).ciph = s.ciph := rfl
@[simp] theorem journal_pwr (s : State) (t : Nat) (b : List Nat) : (journal s t b).pwr = s.pwr := rfl
@[simp] theorem journal_loop (s : State) (t : Nat) (b : List Nat) : (journal s t b).loop = s.loop := rfl
@[simp] theorem journal_dram (s : State) (t : Nat) (b : List Nat) : (journal s t b).dram = s.dram := rfl
@[simp] theorem journal_pools (s : State) (t : Nat) (b : List Nat) : (journal s t b).pools = s.pools := rfl
@[simp] theorem journal_rst (s : State) (t : Nat) (b : List Nat) : (journal s t b).rst = s.rst := rfl
@[simp] theorem journal_bist (s : State) (t : Nat) (b : List Nat) : (journal s t b).bist = s.bist := rfl
@[simp] theorem journal_loupe (s : State) (t : Nat) (b : List Nat) : (journal s t b).loupe = s.loupe := rfl
@[simp] theorem journal_dict (s : State) (t : Nat) (b : List Nat) : (journal s t b).dict = s.dict := rfl
@[simp] theorem journal_mgmt (s : State) (t : Nat) (b : List Nat) : (journal s t b).mgmt = s.mgmt := rfl
@[simp] theorem journal_pins (s : State) (t : Nat) (b : List Nat) : (journal s t b).pins = s.pins := rfl
@[simp] theorem journal_health (s : State) (t : Nat) (b : List Nat) : (journal s t b).health = s.health := rfl
@[simp] theorem journal_toggles (s : State) (t : Nat) (b : List Nat) : (journal s t b).toggles = s.toggles := rfl
@[simp] theorem journal_zone (s : State) (t : Nat) (b : List Nat) (k : Nat) : zone (journal s t b) k = zone s k := rfl
@[simp] theorem journal_ring (s : State) (t : Nat) (b : List Nat) (k : Nat) : ring (journal s t b) k = ring s k := rfl
@[simp] theorem journal_die (s : State) (t : Nat) (b : List Nat) (k : Nat) : die (journal s t b) k = die s k := rfl
@[simp] theorem journal_grp (s : State) (t : Nat) (b : List Nat) (k : Nat) : grp (journal s t b) k = grp s k := rfl
@[simp] theorem journal_chan (s : State) (t : Nat) (b : List Nat) (k : Nat) : chan (journal s t b) k = chan s k := rfl
@[simp] theorem journal_ctx (s : State) (t : Nat) (b : List Nat) (k : Nat) : ctx (journal s t b) k = ctx s k := rfl
@[simp] theorem journal_fnc (s : State) (t : Nat) (b : List Nat) (k : Nat) : fnc (journal s t b) k = fnc s k := rfl
@[simp] theorem journal_member (s : State) (t : Nat) (b : List Nat) (k : Nat) : member (journal s t b) k = member s k := rfl
@[simp] theorem journal_dchan (s : State) (t : Nat) (b : List Nat) (k : Nat) : dchan (journal s t b) k = dchan s k := rfl
@[simp] theorem journal_pool (s : State) (t : Nat) (b : List Nat) (k : Nat) : pool (journal s t b) k = pool s k := rfl
@[simp] theorem journal_eng (s : State) (t : Nat) (b : List Nat) (k : Nat) : eng (journal s t b) k = eng s k := rfl
@[simp] theorem journal_nsOpt (s : State) (t : Nat) (b : List Nat) (k : Nat) : ns? (journal s t b) k = ns? s k := rfl
@[simp] theorem journal_cmdOpt (s : State) (t : Nat) (b : List Nat) (k : Nat) : cmd? (journal s t b) k = cmd? s k := rfl
@[simp] theorem journal_od (s : State) (t : Nat) (b : List Nat) (o x y : Nat) : od (journal s t b) o x y = od s o x y := rfl

/-! useFree -/

@[simp] theorem useFree_pending (s : State) : (useFree s).pending = s.pending := rfl
@[simp] theorem useFree_host (s : State) : (useFree s).host = s.host := rfl
@[simp] theorem useFree_adm (s : State) : (useFree s).adm = s.adm := rfl
@[simp] theorem useFree_zones (s : State) : (useFree s).zones = s.zones := rfl
@[simp] theorem useFree_nss (s : State) : (useFree s).nss = s.nss := rfl
@[simp] theorem useFree_rings (s : State) : (useFree s).rings = s.rings := rfl
@[simp] theorem useFree_jrn (s : State) : (useFree s).jrn = s.jrn := rfl
@[simp] theorem useFree_win (s : State) : (useFree s).win = s.win := rfl
@[simp] theorem useFree_dies (s : State) : (useFree s).dies = s.dies := rfl
@[simp] theorem useFree_reads (s : State) : (useFree s).reads = s.reads := rfl
@[simp] theorem useFree_sched (s : State) : (useFree s).sched = s.sched := rfl
@[simp] theorem useFree_groups (s : State) : (useFree s).groups = s.groups := rfl
@[simp] theorem useFree_chans (s : State) : (useFree s).chans = s.chans := rfl
@[simp] theorem useFree_ctxs (s : State) : (useFree s).ctxs = s.ctxs := rfl
@[simp] theorem useFree_power (s : State) : (useFree s).power = s.power := rfl
@[simp] theorem useFree_pair (s : State) : (useFree s).pair = s.pair := rfl
@[simp] theorem useFree_casc (s : State) : (useFree s).casc = s.casc := rfl
@[simp] theorem useFree_ciph (s : State) : (useFree s).ciph = s.ciph := rfl
@[simp] theorem useFree_pwr (s : State) : (useFree s).pwr = s.pwr := rfl
@[simp] theorem useFree_loop (s : State) : (useFree s).loop = s.loop := rfl
@[simp] theorem useFree_dram (s : State) : (useFree s).dram = s.dram := rfl
@[simp] theorem useFree_pools (s : State) : (useFree s).pools = s.pools := rfl
@[simp] theorem useFree_rst (s : State) : (useFree s).rst = s.rst := rfl
@[simp] theorem useFree_bist (s : State) : (useFree s).bist = s.bist := rfl
@[simp] theorem useFree_loupe (s : State) : (useFree s).loupe = s.loupe := rfl
@[simp] theorem useFree_dict (s : State) : (useFree s).dict = s.dict := rfl
@[simp] theorem useFree_mgmt (s : State) : (useFree s).mgmt = s.mgmt := rfl
@[simp] theorem useFree_pins (s : State) : (useFree s).pins = s.pins := rfl
@[simp] theorem useFree_health (s : State) : (useFree s).health = s.health := rfl
@[simp] theorem useFree_toggles (s : State) : (useFree s).toggles = s.toggles := rfl
@[simp] theorem useFree_zone (s : State) (k : Nat) : zone (useFree s) k = zone s k := rfl
@[simp] theorem useFree_ring (s : State) (k : Nat) : ring (useFree s) k = ring s k := rfl
@[simp] theorem useFree_die (s : State) (k : Nat) : die (useFree s) k = die s k := rfl
@[simp] theorem useFree_grp (s : State) (k : Nat) : grp (useFree s) k = grp s k := rfl
@[simp] theorem useFree_chan (s : State) (k : Nat) : chan (useFree s) k = chan s k := rfl
@[simp] theorem useFree_ctx (s : State) (k : Nat) : ctx (useFree s) k = ctx s k := rfl
@[simp] theorem useFree_fnc (s : State) (k : Nat) : fnc (useFree s) k = fnc s k := rfl
@[simp] theorem useFree_member (s : State) (k : Nat) : member (useFree s) k = member s k := rfl
@[simp] theorem useFree_dchan (s : State) (k : Nat) : dchan (useFree s) k = dchan s k := rfl
@[simp] theorem useFree_pool (s : State) (k : Nat) : pool (useFree s) k = pool s k := rfl
@[simp] theorem useFree_eng (s : State) (k : Nat) : eng (useFree s) k = eng s k := rfl
@[simp] theorem useFree_nsOpt (s : State) (k : Nat) : ns? (useFree s) k = ns? s k := rfl
@[simp] theorem useFree_cmdOpt (s : State) (k : Nat) : cmd? (useFree s) k = cmd? s k := rfl
@[simp] theorem useFree_od (s : State) (o x y : Nat) : od (useFree s) o x y = od s o x y := rfl

/-! useDraw -/

@[simp] theorem useDraw_pending (s : State) : (useDraw s).pending = s.pending := rfl
@[simp] theorem useDraw_host (s : State) : (useDraw s).host = s.host := rfl
@[simp] theorem useDraw_adm (s : State) : (useDraw s).adm = s.adm := rfl
@[simp] theorem useDraw_zones (s : State) : (useDraw s).zones = s.zones := rfl
@[simp] theorem useDraw_nss (s : State) : (useDraw s).nss = s.nss := rfl
@[simp] theorem useDraw_rings (s : State) : (useDraw s).rings = s.rings := rfl
@[simp] theorem useDraw_jrn (s : State) : (useDraw s).jrn = s.jrn := rfl
@[simp] theorem useDraw_win (s : State) : (useDraw s).win = s.win := rfl
@[simp] theorem useDraw_dies (s : State) : (useDraw s).dies = s.dies := rfl
@[simp] theorem useDraw_reads (s : State) : (useDraw s).reads = s.reads := rfl
@[simp] theorem useDraw_sched (s : State) : (useDraw s).sched = s.sched := rfl
@[simp] theorem useDraw_groups (s : State) : (useDraw s).groups = s.groups := rfl
@[simp] theorem useDraw_chans (s : State) : (useDraw s).chans = s.chans := rfl
@[simp] theorem useDraw_ctxs (s : State) : (useDraw s).ctxs = s.ctxs := rfl
@[simp] theorem useDraw_power (s : State) : (useDraw s).power = s.power := rfl
@[simp] theorem useDraw_pair (s : State) : (useDraw s).pair = s.pair := rfl
@[simp] theorem useDraw_casc (s : State) : (useDraw s).casc = s.casc := rfl
@[simp] theorem useDraw_ciph_root (s : State) : (useDraw s).ciph.root = s.ciph.root := rfl
@[simp] theorem useDraw_ciph_stored (s : State) : (useDraw s).ciph.stored = s.ciph.stored := rfl
@[simp] theorem useDraw_ciph_pendingRoot (s : State) : (useDraw s).ciph.pendingRoot = s.ciph.pendingRoot := rfl
@[simp] theorem useDraw_ciph_pendingErase (s : State) : (useDraw s).ciph.pendingErase = s.ciph.pendingErase := rfl
@[simp] theorem useDraw_ciph_lanes (s : State) : (useDraw s).ciph.lanes = s.ciph.lanes := rfl
@[simp] theorem useDraw_ciph_badLanes (s : State) : (useDraw s).ciph.badLanes = s.ciph.badLanes := rfl
@[simp] theorem useDraw_ciph_urgentPtr (s : State) : (useDraw s).ciph.urgentPtr = s.ciph.urgentPtr := rfl
@[simp] theorem useDraw_ciph_normalPtr (s : State) : (useDraw s).ciph.normalPtr = s.ciph.normalPtr := rfl
@[simp] theorem useDraw_ciph_cache (s : State) : (useDraw s).ciph.cache = s.ciph.cache := rfl
@[simp] theorem useDraw_ciph_shared (s : State) : (useDraw s).ciph.shared = s.ciph.shared := rfl
@[simp] theorem useDraw_ciph_loaded (s : State) : (useDraw s).ciph.loaded = s.ciph.loaded := rfl
@[simp] theorem useDraw_ciph_drbgOk (s : State) : (useDraw s).ciph.drbgOk = s.ciph.drbgOk := rfl
@[simp] theorem useDraw_ciph_alarms (s : State) : (useDraw s).ciph.alarms = s.ciph.alarms := rfl
@[simp] theorem useDraw_ciph_sessions (s : State) : (useDraw s).ciph.sessions = s.ciph.sessions := rfl
@[simp] theorem useDraw_ciph_negotiated (s : State) : (useDraw s).ciph.negotiated = s.ciph.negotiated := rfl
@[simp] theorem useDraw_ciph_slot1 (s : State) : (useDraw s).ciph.slot1 = s.ciph.slot1 := rfl
@[simp] theorem useDraw_ciph_erased (s : State) : (useDraw s).ciph.erased = s.ciph.erased := rfl
@[simp] theorem useDraw_ciph_ms (s : State) : (useDraw s).ciph.ms = s.ciph.ms := rfl
@[simp] theorem useDraw_ciph_records (s : State) : (useDraw s).ciph.records = s.ciph.records := rfl
@[simp] theorem useDraw_ciph_retained (s : State) : (useDraw s).ciph.retained = s.ciph.retained := rfl
@[simp] theorem useDraw_ciph_fresh (s : State) : (useDraw s).ciph.fresh = s.ciph.fresh := rfl
@[simp] theorem useDraw_ciph_lacking (s : State) : (useDraw s).ciph.lacking = s.ciph.lacking := rfl
@[simp] theorem useDraw_ciph_slots (s : State) : (useDraw s).ciph.slots = s.ciph.slots := rfl
@[simp] theorem useDraw_ciph_chosen (s : State) : (useDraw s).ciph.chosen = s.ciph.chosen := rfl
@[simp] theorem useDraw_ciph_activeSlot (s : State) : (useDraw s).ciph.activeSlot = s.ciph.activeSlot := rfl
@[simp] theorem useDraw_ciph_otpMin (s : State) : (useDraw s).ciph.otpMin = s.ciph.otpMin := rfl
@[simp] theorem useDraw_ciph_alarmResets (s : State) : (useDraw s).ciph.alarmResets = s.ciph.alarmResets := rfl
@[simp] theorem useDraw_pwr (s : State) : (useDraw s).pwr = s.pwr := rfl
@[simp] theorem useDraw_loop (s : State) : (useDraw s).loop = s.loop := rfl
@[simp] theorem useDraw_dram (s : State) : (useDraw s).dram = s.dram := rfl
@[simp] theorem useDraw_pools (s : State) : (useDraw s).pools = s.pools := rfl
@[simp] theorem useDraw_rst (s : State) : (useDraw s).rst = s.rst := rfl
@[simp] theorem useDraw_bist (s : State) : (useDraw s).bist = s.bist := rfl
@[simp] theorem useDraw_loupe (s : State) : (useDraw s).loupe = s.loupe := rfl
@[simp] theorem useDraw_dict (s : State) : (useDraw s).dict = s.dict := rfl
@[simp] theorem useDraw_mgmt (s : State) : (useDraw s).mgmt = s.mgmt := rfl
@[simp] theorem useDraw_pins (s : State) : (useDraw s).pins = s.pins := rfl
@[simp] theorem useDraw_health (s : State) : (useDraw s).health = s.health := rfl
@[simp] theorem useDraw_toggles (s : State) : (useDraw s).toggles = s.toggles := rfl
@[simp] theorem useDraw_zone (s : State) (k : Nat) : zone (useDraw s) k = zone s k := rfl
@[simp] theorem useDraw_ring (s : State) (k : Nat) : ring (useDraw s) k = ring s k := rfl
@[simp] theorem useDraw_die (s : State) (k : Nat) : die (useDraw s) k = die s k := rfl
@[simp] theorem useDraw_grp (s : State) (k : Nat) : grp (useDraw s) k = grp s k := rfl
@[simp] theorem useDraw_chan (s : State) (k : Nat) : chan (useDraw s) k = chan s k := rfl
@[simp] theorem useDraw_ctx (s : State) (k : Nat) : ctx (useDraw s) k = ctx s k := rfl
@[simp] theorem useDraw_fnc (s : State) (k : Nat) : fnc (useDraw s) k = fnc s k := rfl
@[simp] theorem useDraw_member (s : State) (k : Nat) : member (useDraw s) k = member s k := rfl
@[simp] theorem useDraw_dchan (s : State) (k : Nat) : dchan (useDraw s) k = dchan s k := rfl
@[simp] theorem useDraw_pool (s : State) (k : Nat) : pool (useDraw s) k = pool s k := rfl
@[simp] theorem useDraw_eng (s : State) (k : Nat) : eng (useDraw s) k = eng s k := rfl
@[simp] theorem useDraw_nsOpt (s : State) (k : Nat) : ns? (useDraw s) k = ns? s k := rfl
@[simp] theorem useDraw_cmdOpt (s : State) (k : Nat) : cmd? (useDraw s) k = cmd? s k := rfl
@[simp] theorem useDraw_od (s : State) (o x y : Nat) : od (useDraw s) o x y = od s o x y := rfl

end Sys2Proof.Machine
end

