-- ==== Sys2Proof/Laws/Dram.lean ====
section
/-! SUPPORT. DRAM: what a block's initialisation and a delivery do, and where the second copies lie (R501, R503, R505,
R527). -/

namespace Sys2Proof.Machine

open Sys2Proof

theorem dchan_setDchan (s : State) (ch : Nat) (v : DChan) (w : kvWf {} s.dram.chans) : dchan (setDchan s ch v) ch = v :=
  kvGet_put_self _ _ _ _ w

/-- A block that is ready is initialised no second time. -/
theorem initBlock_ready (s : State) (b : Nat) (h : blockReady s b = true) : initBlock s b = s := by
  unfold initBlock; rw [if_pos h]

/-- The bytes that an initialised block keeps: those of every other block. -/
theorem initBlock_mem (s : State) (b : Nat) (h : blockReady s b = false) :
    (initBlock s b).dram.mem = s.dram.mem.filter fun e => e.1 / 65536 != b := by
  unfold initBlock; rw [if_neg (by simp [h])]

/-- A map with some keys struck out reads as the default there, and as before elsewhere. -/
theorem kvGet_filter {α : Type} (d : α) (p : Nat → Bool) (x : Nat) (m : Kv α) :
    kvGet d x (m.filter fun e => p e.1) = if p x then kvGet d x m else d := by
  induction m with
  | nil => simp [kvGet]
  | cons e t ih =>
    by_cases y : x = e.1
    · by_cases c : p e.1
      · rw [List.filter_cons_of_pos (by simpa using c), kvGet_cons, kvGet_cons]; subst y; simp [c]
      · rw [List.filter_cons_of_neg (by simpa using c), ih, kvGet_cons]; subst y; simp [c]
    · by_cases c : p e.1
      · rw [List.filter_cons_of_pos (by simpa using c), kvGet_cons, kvGet_cons, ih]; simp [y]
      · rw [List.filter_cons_of_neg (by simpa using c), ih, kvGet_cons]; simp [y]

theorem pool_of_pools {s t : State} (h : t.pools = s.pools) (p : Nat) : pool t p = pool s p := by unfold pool; rw [h]

/-- What is delivered depends on the bytes and the pools alone. -/
theorem deliver_of {s t : State} (port a : Nat) (hm : t.dram.mem = s.dram.mem) (hp : t.pools = s.pools) :
    deliver t port a = deliver s port a := by
  have b (x) : bufferOf t x = bufferOf s x := by unfold bufferOf; simp only [pool_of_pools hp]
  have m (x) : maySend t x = maySend s x := by unfold maySend; simp only [b, pool_of_pools hp]
  unfold deliver codeword; rw [hm]; simp only [m]

/-- A port that sends nothing out is delivered the codeword. -/
theorem deliver_within (s : State) (port a : Nat) (h : sendsOut port = false) : deliver s port a = codeword s a := by
  unfold deliver; simp [h]

theorem chan_flip : ∀ a < 8, ∀ b < 8, ∀ c < 8,
    Nat.xor (Nat.xor (Nat.xor a 4) b) c = (Nat.xor (Nat.xor a b) c + 4) % 8 := by decide

/-- The second copy of a frame lies on channel (c + 4) mod 8, where c is the channel of the frame it copies (R505). -/
theorem copyFrame_chan (ranks base f : Nat) :
    (dramLoc ranks (4096 * copyFrame base f)).chan = ((dramLoc ranks (4096 * f)).chan + 4) % 8 := by
  have m : Nat.xor f 4 % 8 = Nat.xor (f % 8) 4 := by simpa using @Nat.xor_mod_two_pow f 4 3
  have d : Nat.xor f 4 / 8 = f / 8 := by simpa using @Nat.xor_div_two_pow f 4 3
  have e : copyFrame base f % 8 = Nat.xor (f % 8) 4 ∧ copyFrame base f / 8 % 8 = f / 8 % 8 ∧
      copyFrame base f / 64 % 8 = f / 64 % 8 := by
    unfold copyFrame; exact ⟨by omega, by omega, by omega⟩
  simp only [dramLoc, Nat.mul_div_cancel_left _ (show 0 < 4096 by decide), e]
  exact chan_flip _ (by omega) _ (by omega) _ (by omega)

end Sys2Proof.Machine
end

