-- ==== Sys2Proof/Laws/Tells.lean ====
section
/-! SUPPORT. What the device tells the host and the dictionary without touching anything else: log entries, events,
completions, contract states and the window in force. A step that only tells leaves every other field of State alone. -/

namespace Sys2Proof.Machine
open Sys2Proof

/-- Only the functions' registers, the completion queue, the group contracts, the dictionary, the flight recorder, the
pins and the window in force differ. -/
abbrev Tells (s t : State) : Prop := ∃ f q g d l p w,
  t = { s with host.fns := f, host.cq := q, groups := g, dict := d, loupe := l, pins := p, win.effectiveMiB := w }

theorem Tells.refl (s : State) : Tells s s := ⟨_, _, _, _, _, _, _, rfl⟩

theorem Tells.trans {s t u : State} (a : Tells s t) (b : Tells t u) : Tells s u := by
  obtain ⟨f, q, g, d, l, p, w, rfl⟩ := a; obtain ⟨f', q', g', d', l', p', w', rfl⟩ := b
  exact ⟨_, _, _, _, _, _, _, rfl⟩

/-! What a telling leaves alone, field by field. -/

theorem Tells.pending {s t : State} (h : Tells s t) : t.pending = s.pending := by obtain ⟨f, q, g, d, l, p, w, rfl⟩ := h; rfl
theorem Tells.free {s t : State} (h : Tells s t) : t.free = s.free := by obtain ⟨f, q, g, d, l, p, w, rfl⟩ := h; rfl
theorem Tells.adm {s t : State} (h : Tells s t) : t.adm = s.adm := by obtain ⟨f, q, g, d, l, p, w, rfl⟩ := h; rfl
theorem Tells.zones {s t : State} (h : Tells s t) : t.zones = s.zones := by obtain ⟨f, q, g, d, l, p, w, rfl⟩ := h; rfl
theorem Tells.nss {s t : State} (h : Tells s t) : t.nss = s.nss := by obtain ⟨f, q, g, d, l, p, w, rfl⟩ := h; rfl
theorem Tells.rings {s t : State} (h : Tells s t) : t.rings = s.rings := by obtain ⟨f, q, g, d, l, p, w, rfl⟩ := h; rfl
theorem Tells.jrn {s t : State} (h : Tells s t) : t.jrn = s.jrn := by obtain ⟨f, q, g, d, l, p, w, rfl⟩ := h; rfl
theorem Tells.dies {s t : State} (h : Tells s t) : t.dies = s.dies := by obtain ⟨f, q, g, d, l, p, w, rfl⟩ := h; rfl
theorem Tells.reads {s t : State} (h : Tells s t) : t.reads = s.reads := by obtain ⟨f, q, g, d, l, p, w, rfl⟩ := h; rfl
theorem Tells.sched {s t : State} (h : Tells s t) : t.sched = s.sched := by obtain ⟨f, q, g, d, l, p, w, rfl⟩ := h; rfl
theorem Tells.chans {s t : State} (h : Tells s t) : t.chans = s.chans := by obtain ⟨f, q, g, d, l, p, w, rfl⟩ := h; rfl
theorem Tells.ctxs {s t : State} (h : Tells s t) : t.ctxs = s.ctxs := by obtain ⟨f, q, g, d, l, p, w, rfl⟩ := h; rfl
theorem Tells.power {s t : State} (h : Tells s t) : t.power = s.power := by obtain ⟨f, q, g, d, l, p, w, rfl⟩ := h; rfl
theorem Tells.pair {s t : State} (h : Tells s t) : t.pair = s.pair := by obtain ⟨f, q, g, d, l, p, w, rfl⟩ := h; rfl
theorem Tells.casc {s t : State} (h : Tells s t) : t.casc = s.casc := by obtain ⟨f, q, g, d, l, p, w, rfl⟩ := h; rfl
theorem Tells.ciph {s t : State} (h : Tells s t) : t.ciph = s.ciph := by obtain ⟨f, q, g, d, l, p, w, rfl⟩ := h; rfl
theorem Tells.pwr {s t : State} (h : Tells s t) : t.pwr = s.pwr := by obtain ⟨f, q, g, d, l, p, w, rfl⟩ := h; rfl
theorem Tells.loop {s t : State} (h : Tells s t) : t.loop = s.loop := by obtain ⟨f, q, g, d, l, p, w, rfl⟩ := h; rfl
theorem Tells.dram {s t : State} (h : Tells s t) : t.dram = s.dram := by obtain ⟨f, q, g, d, l, p, w, rfl⟩ := h; rfl
theorem Tells.pools {s t : State} (h : Tells s t) : t.pools = s.pools := by obtain ⟨f, q, g, d, l, p, w, rfl⟩ := h; rfl
theorem Tells.rst {s t : State} (h : Tells s t) : t.rst = s.rst := by obtain ⟨f, q, g, d, l, p, w, rfl⟩ := h; rfl
theorem Tells.bist {s t : State} (h : Tells s t) : t.bist = s.bist := by obtain ⟨f, q, g, d, l, p, w, rfl⟩ := h; rfl
theorem Tells.mgmt {s t : State} (h : Tells s t) : t.mgmt = s.mgmt := by obtain ⟨f, q, g, d, l, p, w, rfl⟩ := h; rfl
theorem Tells.health {s t : State} (h : Tells s t) : t.health = s.health := by obtain ⟨f, q, g, d, l, p, w, rfl⟩ := h; rfl
theorem Tells.toggles {s t : State} (h : Tells s t) : t.toggles = s.toggles := by obtain ⟨f, q, g, d, l, p, w, rfl⟩ := h; rfl

theorem Tells.ite {s a b : State} (c : Prop) [Decidable c] (ha : Tells s a) (hb : Tells s b) : Tells s (if c then a else b) := by
  split <;> assumption

theorem tells_foldl {α : Type} (f : State → α → State) (h : ∀ s a, Tells s (f s a)) (l : List α) (s : State) :
    Tells s (l.foldl f s) := by
  induction l generalizing s with
  | nil => exact .refl s
  | cons a l ih => exact (h s a).trans (ih _)

theorem Says.tells {s t : State} (h : Says s t) : Tells s t := by
  obtain ⟨l, p, d, rfl⟩ := h; exact ⟨_, _, _, _, _, _, _, rfl⟩

theorem Marks.tells {s t : State} (h : Marks s t) : Tells s t := by
  obtain ⟨f, d, rfl⟩ := h; exact ⟨_, _, _, _, _, _, _, rfl⟩

theorem loupe_tells (s : State) (rule subject sev : Nat) (detail : List Nat) : Tells s (loupe s rule subject sev detail) :=
  (loupe_says s rule subject sev detail).tells

theorem odBump_tells (s : State) (o e i n : Nat) : Tells s (odBump s o e i n) := ⟨_, _, _, _, _, _, _, rfl⟩
theorem odSet_tells (s : State) (o e i v : Nat) : Tells s (odSet s o e i v) := ⟨_, _, _, _, _, _, _, rfl⟩
theorem setFn_tells (s : State) (n : Nat) (v : Fn) : Tells s (setFn s n v) := ⟨_, _, _, _, _, _, _, rfl⟩
theorem setGrp_tells (s : State) (n : Nat) (v : Group) : Tells s (setGrp s n v) := ⟨_, _, _, _, _, _, _, rfl⟩

theorem post_tells (s : State) (n sq cid gen st d0 d1 : Nat) (p : Payload) (a b c d : Nat) :
    Tells s (post s n sq cid gen st d0 d1 p a b c d) := by
  obtain ⟨t, q, ht, h⟩ := post_writes s n sq cid gen st d0 d1 p a b c d
  rw [h]; exact ht.tells.trans ⟨_, _, _, _, _, _, _, rfl⟩

theorem answerAer_tells (s : State) (n : Nat) (r : Nat × Nat) (a b : Nat) : Tells s (answerAer s n r a b) :=
  (dmaWrite_marks s n 0xFFFFFFFF r.2 16).tells.trans ⟨_, _, _, _, _, _, _, rfl⟩

theorem aen_tells (s : State) (n etype info : Nat) : Tells s (aen s n etype info) := by
  unfold aen; dsimp only; split
  · exact (setFn_tells s n _).trans (answerAer_tells ..)
  · exact setFn_tells s n _

theorem updateGroup_tells (s : State) (g : Nat) : Tells s (updateGroup s g) := by
  unfold updateGroup; dsimp only
  split
  · exact .refl s
  · have h : ∀ t, Tells s t → Tells s (if groupCauses s g ≠ 0 ∧ ((grp t g).state = 2 ∨ ((grp t g).state = 1 ∧ (groupCauses s g).testBit 2)) then
        loupe (setGrp t g { grp t g with state := 3, causes := groupCauses s g }) 200 0x31 5 [g, groupCauses s g]
      else if (grp t g).state = 3 ∧ (grp t g).causes ≠ groupCauses s g then
        loupe (setGrp t g { grp t g with causes := groupCauses s g }) 200 0x31 5 [g, groupCauses s g]
      else t) := fun t ht =>
      .ite _ (ht.trans ((setGrp_tells t g _).trans (loupe_tells ..)))
        (.ite _ (ht.trans ((setGrp_tells t g _).trans (loupe_tells ..))) ht)
    exact h _ (.ite _ (setGrp_tells s g _) (.refl s))

theorem groupFrame_tells (s : State) (g : Nat) : Tells s (groupFrame s g) := by
  unfold groupFrame; dsimp only
  split
  · exact .refl s
  · have h := (setGrp_tells s g { grp s g with d := darkLimit s g }).trans (updateGroup_tells _ g)
    generalize updateGroup _ g = t at h
    refine h.trans ?_
    (repeat' split) <;> first
      | exact (setGrp_tells t g _).trans (loupe_tells ..)
      | exact setGrp_tells t g _

theorem lensContractEvents_tells (s : State) : Tells s (lensContractEvents s) := by
  unfold lensContractEvents; refine tells_foldl _ (fun s l => ?_) _ _
  dsimp only
  (repeat' split) <;> first
    | exact (setFn_tells s l _).trans (aen_tells ..)
    | exact setFn_tells s l _
    | exact .refl s

theorem updateGroups_tells (s : State) (gs : List Nat) : Tells s (updateGroups s gs) :=
  (tells_foldl _ updateGroup_tells gs s).trans (lensContractEvents_tells _)

theorem updateWindow_tells (s : State) : Tells s (updateWindow s) := by
  unfold updateWindow; dsimp only
  have h (e : Nat) : Tells s { s with win.effectiveMiB := e } := ⟨_, _, _, _, _, _, _, rfl⟩
  exact .ite _ (.refl s) (.ite _ ((h _).trans (loupe_tells ..)) (h _))

end Sys2Proof.Machine
end

