-- ==== Sys2Proof/Laws/PairPaths.lean ====
section
/-! SUPPORT. The pair: what a change of the ANA state, a lost link, a promotion and a separation leave of the state, and the
dictionary elements that other elements leave alone. -/

namespace Sys2Proof.Machine

open Sys2Proof

/-- What every step of a fold keeps, the fold keeps. -/
theorem foldl_holds {α : Type} (P : State → Prop) (f : State → α → State) (h : ∀ s a, P s → P (f s a)) (l : List α)
    (s : State) (k : P s) : P (l.foldl f s) := by
  induction l generalizing s with
  | nil => exact k
  | cons a l ih => exact ih _ (h s a k)

/-- A write to one key leaves every other key as it reads, whatever the form of the map. -/
theorem kvGet_put_ne {α : Type} [DecidableEq α] (d d' : α) (k j : Nat) (v : α) (m : Kv α) (hj : j ≠ k) :
    kvGet d j (kvPut d' k v m) = kvGet d j m := by
  induction m with
  | nil => unfold kvPut; split <;> simp [kvGet_cons, hj]
  | cons e t ih =>
    obtain ⟨k', v'⟩ := e
    unfold kvPut
    split
    · split
      · rfl
      · simp [kvGet_cons, hj]
    · split
      · rename_i h1 h2
        subst h2
        split <;> simp [kvGet_cons, hj]
      · simp [kvGet_cons, ih]

/-- An element that another write leaves alone. -/
theorem od_odSet_ne (s : State) (o e i v o' e' i' : Nat) (h : odKey o' e' i' ≠ odKey o e i) : od (odSet s o e i v) o' e' i' = od s o' e' i' := kvGet_put_ne _ _ _ _ _ _ h

/-- The same of a saved write. -/
theorem od_odSave_ne (s : State) (o e i v o' e' i' : Nat) (h : odKey o' e' i' ≠ odKey o e i) : od (odSave s o e i v) o' e' i' = od s o' e' i' := kvGet_put_ne _ _ _ _ _ _ h

/-- A change of phase keeps the role. -/
theorem role_setPhase (s : State) (p : Nat) : pairRole (setPhase s p) = pairRole s := od_odSet_ne _ _ _ _ _ _ _ _ (by decide)

/-- A change of the ANA state only tells. -/
theorem setAna_tells (s : State) (a : Nat) : ∃ t, Tells { s with pair.ana := a } t ∧
    (setAna s a = t ∨ setAna s a = s) := by
  unfold setAna
  split
  · exact ⟨_, .refl _, .inr rfl⟩
  · exact ⟨_, tells_foldl _ (fun s n => aen_tells s n 2 3) _ _, .inl rfl⟩

/-- What a change of the ANA state leaves as it was. -/
theorem setAna_says (s : State) (a : Nat) : (setAna s a).pair = { s.pair with ana := (setAna s a).pair.ana } ∧
    (setAna s a).adm = s.adm ∧ (setAna s a).zones = s.zones ∧ (setAna s a).host.cmds = s.host.cmds := by
  have h : ∀ t, Tells { s with pair.ana := a } t → t.host.cmds = s.host.cmds := by
    rintro t ⟨_, _, _, _, _, _, _, rfl⟩; rfl
  obtain ⟨t, ht, e | e⟩ := setAna_tells s a
  · rw [e]; refine ⟨?_, ht.adm, ht.zones, h t ht⟩
    rw [ht.pair]
  · rw [e]; exact ⟨rfl, rfl, rfl, rfl⟩

/-- With no separation due there is none. -/
theorem trySeparate_idle (s : State) (h : s.pair.detaching = false) : trySeparate s = s := by
  unfold trySeparate; rw [if_pos (by simp [h])]

/-- With no handover due there is none. -/
theorem tryHandover_idle (s : State) (a) (h : s.pair.handing = false) : tryHandover s a = s := by
  unfold tryHandover; rw [if_pos (by simp [h])]

/-- With no command there is no read to settle. -/
theorem settleReads_idle (w : State) (hw : w.host.cmds = []) : settleReads w = w := by
  unfold settleReads; dsimp only; rw [hw]; rfl

/-- With no command and every record sealed, a separation settles nothing but the order list. -/
theorem settleTwinless_says (s : State) (c : s.host.cmds = []) (d : ∀ l ∈ s.adm.recs, l.sealed = true) :
    settleTwinless s = { s with win.convOrder := [], host.cmds := [] } := by
  have : (s.adm.recs.filter fun l => !l.sealed && !dataHeld s l.r.asn) = [] := by
    rw [List.filter_eq_nil_iff]; intro x hx; simp [d x hx]
  unfold settleTwinless
  simp only [this, List.foldl_nil, c, List.filter_nil]
  rw [settleReads_idle _ rfl]
  unfold dropForeign; simp

/-- A separation that is due and has nothing left to settle. -/
theorem trySeparate_says (s : State) (h : s.pair.detaching = true) (c : s.host.cmds = []) (d : ∀ l ∈ s.adm.recs, l.sealed = true) :
    (trySeparate s).pair = { s.pair with detaching := false } ∧ (trySeparate s).zones = s.zones := by
  unfold trySeparate; rw [if_neg (by simp [h, owedTwin, c])]; dsimp only
  split
  · have k : ∀ u : State, u.host.cmds = [] → (∀ l ∈ u.adm.recs, l.sealed = true) → (goSolo u).pair = u.pair ∧
      (goSolo u).zones = u.zones := by
      intro u x y; unfold goSolo; rw [settleTwinless_says (bumpEpoch u) x y]; exact ⟨rfl, rfl⟩
    obtain ⟨k1, k2⟩ := k (setPhase { s with pair.detaching := false, adm.holdAll := false } 0) c d
    rw [k1, k2]; exact ⟨rfl, rfl⟩
  · exact ⟨rfl, rfl⟩

/-- What a fence leaves, with no command in flight. -/
theorem fence_says (s : State) (h : s.host.cmds = []) : (fence s).pair.fenced = true ∧
    (fence s).pair.waiting = false ∧ (fence s).zones = s.zones ∧ (fence s).pair.hbIn = s.pair.hbIn ∧
    (fence s).pair.linkUp = s.pair.linkUp ∧ (fence s).pair.session = s.pair.session ∧
        (fence s).pair.unacked = s.pair.unacked := by
  obtain ⟨a, b, c, d⟩ := setAna_says { s with pair.fenced := true, pair.waiting := false, pair.asked := [] } 3
  have hu : (setAna { s with pair.fenced := true, pair.waiting := false, pair.asked := [] } 3).host.cmds = [] := d.trans h
  generalize hU : setAna { s with pair.fenced := true, pair.waiting := false, pair.asked := [] } 3 = U at a b c d hu
  have e : fence s = settleReads (dropForeign { U with host.cmds := [] }) := by
    unfold fence; simp only [hU, hu, List.filter_nil, List.foldl_nil]
  rw [e, settleReads_idle _ rfl]
  show U.pair.fenced = true ∧ U.pair.waiting = false ∧ U.zones = s.zones ∧ U.pair.hbIn = _ ∧ U.pair.linkUp = _ ∧
      U.pair.session = _ ∧ U.pair.unacked = _
  rw [a]; exact ⟨rfl, rfl, c, rfl, rfl, rfl, rfl⟩

/-- What a link that goes down leaves, with no read in flight. -/
theorem linkDown_says (s : State) (h : s.reads = []) : (linkDown s).pair.linkUp = false ∧
    (linkDown s).pair.session = false ∧ (linkDown s).pair.unacked = [] ∧
    (linkDown s).pair.hbIn = s.pair.hbIn ∧ (linkDown s).pair.hbAge = s.pair.hbAge ∧
        (linkDown s).host.cmds = s.host.cmds := by
  have f : ∀ t : State, t.reads = [] → failTwinReads t = t := by intro t ht; unfold failTwinReads; rw [ht]; rfl
  have g : ∀ t : State, (dropLinkSets t true).pair = t.pair ∧ (dropLinkSets t true).host = t.host ∧
      (dropLinkSets t true).reads = t.reads := fun t => ⟨rfl, rfl, rfl⟩
  have k : ∀ t : State, t.reads = [] → (failTwinReads (dropLinkSets t true)).pair = t.pair ∧
      (failTwinReads (dropLinkSets t true)).host = t.host := by
    intro t ht; rw [f _ ((g t).2.2.trans ht)]; exact ⟨(g t).1, (g t).2.1⟩
  unfold linkDown
  extract_lets a1 a2 a3 a4 a5
  have hr : a5.reads = [] := h
  obtain ⟨k1, k2⟩ := k a5 hr
  rw [k1, k2]
  exact ⟨rfl, rfl, rfl, rfl, rfl, rfl⟩

/-- A fold over the linked members does nothing where none is linked. -/
theorem foldl_members_idle (F : State → Nat → State) (l : List Nat) (u : State) (h : ∀ p, (member u p).linkUp = false) :
    l.foldl (fun s p => if (member s p).linkUp then F s p else s) u = u := by
  induction l with
  | nil => rfl
  | cons x l ih => simp only [List.foldl_cons, h, Bool.false_eq_true, if_false]; exact ih

/-- What a promotion leaves, with no command in flight and every record sealed. -/
theorem promote_says (s : State) (c : s.host.cmds = []) (d : ∀ l ∈ s.adm.recs, l.sealed = true) : (promote s).adm.nextAsn = s.adm.appliedHead + 1 ∧
    (promote s).pair.waiting = false ∧ (promote s).pair.promoted = true ∧ (promote s).pair.wasLead = true ∧
        (promote s).zones = s.zones := by
  have h1 : ∀ t : State, t.host.cmds = [] → ordersHere t = t := by intro t ht; unfold ordersHere; rw [ht]; rfl
  have h2 : ∀ t : State, (askedToPoint t).adm = t.adm ∧ (askedToPoint t).zones = t.zones ∧
      (askedToPoint t).pair = { t.pair with asked := [] } := fun t => ⟨rfl, rfl, rfl⟩
  have h3 : ∀ t : State, (reportHere t).adm.nextAsn = t.adm.nextAsn ∧ (reportHere t).zones = t.zones ∧
      (reportHere t).pair = t.pair := by
    intro t; unfold reportHere; split <;> exact ⟨rfl, rfl, rfl⟩
  unfold promote
  extract_lets a1 a2 a3 a4 a5 a6
  have p1 : a5.adm.nextAsn = s.adm.appliedHead + 1 := rfl
  have p2 : a5.pair.waiting = false ∧ a5.pair.promoted = true ∧ a5.pair.wasLead = true := ⟨rfl, rfl, rfl⟩
  have r : (setRole s 1).zones = s.zones ∧ (setRole s 1).host = s.host ∧ (setRole s 1).adm = s.adm := by
    unfold setRole; exact ⟨rfl, rfl, rfl⟩
  have p3 : a5.zones = (setRole s 1).zones := rfl
  have c5 : a5.host = (setRole s 1).host := rfl
  have d5 : a5.adm.recs = (setRole s 1).adm.recs := rfl
  have e6 : a6 = reportHere (askedToPoint (ordersHere (settleTwinless a5))) := rfl
  clear_value a6 a5
  rw [settleTwinless_says a5 (by rw [c5, r.2.1, c]) (by rw [d5, r.2.2]; exact d), h1 _ rfl] at e6
  obtain ⟨b1, b2, b3, _⟩ := setAna_says a6 1
  obtain ⟨k1, k2, k3⟩ := h3 (askedToPoint { a5 with win.convOrder := [], host.cmds := [] })
  obtain ⟨m1, m2, m3⟩ := h2 { a5 with win.convOrder := [], host.cmds := [] }
  rw [b1, b2, b3, e6, k1, k2, k3, m1, m2, m3]
  exact ⟨p1, p2.1, p2.2.1, p2.2.2, p3.trans r.1⟩

end Sys2Proof.Machine
end

