-- ==== Sys2Proof/Laws/NsPaths.lean ====
section
/-! SUPPORT. Namespaces: what emptying, formatting, freeing, adding and re-salting them leaves of the state. -/

namespace Sys2Proof.Machine

open Sys2Proof

/-- The namespaces keep their identifiers, and commands, members and power are equal. -/
def NsKept (s t : State) : Prop := t.nss.map (·.nsid) = s.nss.map (·.nsid) ∧ t.host.cmds = s.host.cmds ∧
    t.casc = s.casc ∧ t.power = s.power

theorem NsKept.refl (s : State) : NsKept s s := ⟨rfl, rfl, rfl, rfl⟩

theorem NsKept.trans {s t u : State} (a : NsKept s t) (b : NsKept t u) : NsKept s u :=
  ⟨b.1.trans a.1, b.2.1.trans a.2.1, b.2.2.1.trans a.2.2.1, b.2.2.2.trans a.2.2.2⟩

theorem foldl_nsKept {α : Type} (f : State → α →
    State) (h : ∀ s a, NsKept s (f s a)) (l : List α) (s : State) : NsKept s (l.foldl f s) := by
  induction l generalizing s with
  | nil => exact .refl s
  | cons a l ih => exact (h s a).trans (ih _)

theorem NsKept.ite {s a b : State} (c : Prop) [Decidable c] (ha : NsKept s a) (hb : NsKept s b) : NsKept s (if c then a else b) := by
  split <;> assumption

theorem eraseRow_nsKept (s : State) (z : Nat) : NsKept s (eraseRow s z) := ⟨rfl, rfl, rfl, rfl⟩

theorem freeWindow_nsKept (s : State) (l : List Nat) : NsKept s (freeWindow s l) := by
  unfold freeWindow; refine foldl_nsKept _ ?_ _ _; intro s a; exact ⟨rfl, rfl, rfl, rfl⟩

theorem dropRewrites_nsKept (s : State) (z : Nat) : NsKept s (dropRewrites s z) :=
  foldl_nsKept _ (fun _ _ => by dsimp only; exact .ite _ (.refl _) ⟨rfl, rfl, rfl, rfl⟩) _ _

theorem releaseActive_nsKept (s : State) (z : Nat) : NsKept s (releaseActive s z) := by
  unfold releaseActive; split
  · exact .ite _ ⟨rfl, rfl, rfl, rfl⟩ (.refl _)
  · exact .refl _

theorem freeZoneCells_nsKept (s : State) (z : Nat) : NsKept s (freeZoneCells s z) := by
  unfold freeZoneCells; split <;> exact ⟨rfl, rfl, rfl, rfl⟩

theorem unmapZone_nsKept (s : State) (z : Nat) (st : ZState) : NsKept s (unmapZone s z st) := by
  have a := NsKept.trans (NsKept.trans (releaseActive_nsKept s z) (freeZoneCells_nsKept _ z)) (dropRewrites_nsKept _ z)
  unfold unmapZone; dsimp only
  generalize dropRewrites (freeZoneCells (releaseActive s z) z) z = u at a ⊢
  have b := a.trans (freeWindow_nsKept u ((zone u z).units.filterMap fun e => e.2.held))
  generalize freeWindow u ((zone u z).units.filterMap fun e => e.2.held) = w at b ⊢
  exact b.trans ⟨rfl, rfl, rfl, rfl⟩

theorem markZone_nsKept (s : State) (z off : Nat) : NsKept s (markZone s z off) := by
  unfold markZone; exact .ite _ ⟨rfl, rfl, rfl, rfl⟩ (.refl _)

theorem emptyZone_nsKept (e : Bool) (s : State) (z : Nat) : NsKept s (emptyZone e s z) := by
  have a := (unmapZone_nsKept s z .empty).trans (markZone_nsKept _ z 0)
  unfold emptyZone; dsimp only
  generalize markZone (unmapZone s z .empty) z 0 = u at a ⊢
  split <;> (try split) <;> (try split) <;> first
    | exact .refl _
    | exact a.trans ⟨rfl, rfl, rfl, rfl⟩

theorem setNs_nsKept (s : State) (n : Ns) : NsKept s (setNs s n) := by
  refine ⟨?_, rfl, rfl, rfl⟩
  show (s.nss.map fun m => if m.nsid = n.nsid then n else m).map _ = _
  rw [List.map_map]; apply List.map_congr_left; intro m _; dsimp only [Function.comp]; split <;> simp_all

theorem markRegions_nsKept (s : State) (n : Ns) (a b : Nat) : NsKept s (markRegions s n a b) := by
  unfold markRegions; exact .ite _ ⟨rfl, rfl, rfl, rfl⟩ (.refl _)

theorem emptyConv_nsKept (e : Bool) (s : State) (n : Ns) : NsKept s (emptyConv e s n) := by
  refine NsKept.trans (NsKept.trans (NsKept.trans (freeWindow_nsKept s (n.units.filterMap fun e => e.2.held)) (markRegions_nsKept _ n 0 n.size)) (foldl_nsKept _ (fun s z => eraseRow_nsKept s z) (n.poolRows.filter fun z => e || kvGet 0 z n.fill != 0) _)) ?_
  exact NsKept.trans ⟨rfl, rfl, rfl, rfl⟩ (setNs_nsKept _ _)

theorem emptyNs_nsKept (e : Bool) (s : State) (n : Ns) : NsKept s (emptyNs e s n) := by
  unfold emptyNs; exact .ite _ (foldl_nsKept _ (emptyZone_nsKept e) _ _) (emptyConv_nsKept _ _ _)

theorem dropKeys_nsKept (s : State) (n : Nat) : NsKept s (dropKeys s n) := by
  unfold dropKeys dropKeysOf; exact ⟨rfl, rfl, rfl, rfl⟩

theorem useDraws_nsKept (s : State) (n : Nat) : NsKept s (useDraws s n) := ⟨rfl, rfl, rfl, rfl⟩

theorem tell_nsKept (s : State) (b : List Nat) : NsKept s (tellFollower s b) := by
  unfold tellFollower; split
  · unfold sendFrame; rw [if_pos rfl]; exact ⟨rfl, rfl, rfl, rfl⟩
  · exact .refl _

theorem tell_nss (s : State) (b : List Nat) : (tellFollower s b).nss = s.nss := by
  unfold tellFollower sendFrame; split
  · split <;> rfl
  · rfl

/-- A namespace is found by its identifier. -/
theorem ns_of_map {s t : State} (h : t.nss.map (·.nsid) = s.nss.map (·.nsid)) (x : Nat) : (ns? t x).isSome = (ns? s x).isSome := by
  unfold ns?
  generalize t.nss = a at h; generalize s.nss = b at h
  induction a generalizing b with
  | nil => cases b with
    | nil => rfl
    | cons c d => simp at h
  | cons u v ih => cases b with
    | nil => simp at h
    | cons c d =>
      simp only [List.map_cons, List.cons.injEq] at h
      simp only [List.find?_cons, h.1]
      split
      · rfl
      · exact ih _ h.2

/-- A namespace that is written is read back. -/
theorem ns_setNs (s : State) (n m : Ns) (h : ns? s n.nsid = some m) : ns? (setNs s n) n.nsid = some n := by
  unfold ns? at *
  show (s.nss.map fun m => if m.nsid = n.nsid then n else m).find? _ = _
  generalize s.nss = l at *
  induction l with
  | nil => simp at h
  | cons a l ih =>
    by_cases e : a.nsid = n.nsid
    · simp [e]
    · have e' : (a.nsid == n.nsid) = false := by simpa using e
      simp only [List.find?_cons, List.map_cons, if_neg e, e'] at h ⊢
      exact ih h

/-- What a format leaves: the new format, and the old salt or a new generation. -/
theorem formatNs_says (s : State) (n m : Ns) (e : NsEnd) (h : ns? s n.nsid = some m) (he : e.salt = none) :
    ((formatNs s n e).host.cmds = s.host.cmds ∧ (formatNs s n e).casc = s.casc ∧ (formatNs s n e).power = s.power) ∧
        ∃ k, ns? (formatNs s n e) n.nsid = some k ∧ k.lbaf = e.lbaf ∧ k.pit = e.pit ∧ k.ending = none ∧
      (e.newKey = false → k.salt = n.salt) ∧ (e.newKey = true → k.gen = 1 ∧ k.rot = none) := by
  have q0 := emptyNs_nsKept e.erase s n
  unfold formatNs
  dsimp only
  generalize emptyNs e.erase s n = s1 at q0 ⊢
  have q1 : NsKept s1 (if e.newKey then dropKeys (if e.salt.isNone then useDraws s1 (saltDraws s1 (s1.ciph.root.getD 0) n.nsid 1) else s1) n.nsid else s1) :=
    .ite _ (NsKept.trans (.ite _ (useDraws_nsKept _ _) (.refl _)) (dropKeys_nsKept _ _)) (.refl _)
  generalize (if e.newKey then dropKeys (if e.salt.isNone then useDraws s1 (saltDraws s1 (s1.ciph.root.getD 0) n.nsid 1) else s1) n.nsid else s1) = s2 at q1 ⊢
  have q2 := q0.trans q1
  have hs := ns_of_map q2.1 n.nsid
  rw [h] at hs
  cases hk : ns? s2 n.nsid with
  | none => rw [hk] at hs; simp at hs
  | some m2 =>
    dsimp only
    have hid : m2.nsid = n.nsid := by have := List.find?_some hk; simpa using this
    cases hn : e.newKey
    · simp only [hn, Bool.false_eq_true, ↓reduceIte] at *
      generalize hm : ({ m2 with lbaf := e.lbaf, pit := e.pit, size := sizeIn n e.lbaf, salt := n.salt, ending := none } : Ns) = M
      have hM : M.nsid = n.nsid := by rw [← hm]; exact hid
      have hL : M.lbaf = e.lbaf ∧ M.pit = e.pit ∧ M.ending = none ∧
          M.salt = n.salt := by rw [← hm]; exact ⟨rfl, rfl, rfl, rfl⟩
      have q3 := (q2.trans (setNs_nsKept s2 M)).trans (tell_nsKept (setNs s2 M) [0x80, 0, n.nsid, e.lbaf, e.pit, if e.erase = true then 1 else 0, 0, n.salt])
      refine ⟨q3.2, M, ?_, hL.1, hL.2.1, hL.2.2.1, fun _ => hL.2.2.2, fun h => by simp at h⟩
      have := ns_setNs s2 M m2 (by rw [hM]; exact hk)
      rw [hM] at this
      unfold ns? at this ⊢
      rw [tell_nss]; exact this
    · simp only [hn, ↓reduceIte, he, Option.getD_none] at *
      generalize drawSalt s1 (s1.ciph.root.getD 0) n.nsid 1 = sl
      generalize hm : ({ { m2 with lbaf := e.lbaf, pit := e.pit, size := sizeIn n e.lbaf, salt := sl, ending := none } with gen := 1, rot := none } : Ns) = M
      have hM : M.nsid = n.nsid := by rw [← hm]; exact hid
      have hL : M.lbaf = e.lbaf ∧ M.pit = e.pit ∧ M.ending = none ∧ M.gen = 1 ∧
          M.rot = none := by rw [← hm]; exact ⟨rfl, rfl, rfl, rfl, rfl⟩
      have q3 := (q2.trans (setNs_nsKept s2 M)).trans (tell_nsKept (setNs s2 M) [0x80, 0, n.nsid, e.lbaf, e.pit, if e.erase = true then 1 else 0, 1, sl])
      refine ⟨q3.2, M, ?_, hL.1, hL.2.1, hL.2.2.1, fun h => by simp at h, fun _ => hL.2.2.2⟩
      have := ns_setNs s2 M m2 (by rw [hM]; exact hk)
      rw [hM] at this
      unfold ns? at this ⊢
      rw [tell_nss]; exact this

/-- A freed namespace is gone. -/
theorem freeNs_says (s : State) (n : Ns) : (freeNs s n).host.cmds = s.host.cmds ∧ (freeNs s n).casc = s.casc ∧
    (freeNs s n).power = s.power ∧ ns? (freeNs s n) n.nsid = none := by
  have q0 := emptyNs_nsKept false s n
  unfold freeNs; dsimp only
  generalize emptyNs false s n = s1 at q0 ⊢
  have q1 := q0.trans (dropKeys_nsKept s1 n.nsid)
  generalize dropKeys s1 n.nsid = s2 at q1 ⊢
  have q2 := q1.trans (foldl_nsKept (fun s z => setZone s z { eraseLeft := (zone s z).eraseLeft, eraseQueue := (zone s z).eraseQueue }) (fun _ _ => ⟨rfl, rfl, rfl, rfl⟩) (n.zones ++ n.poolRows) s2)
  generalize List.foldl (fun s z => setZone s z { eraseLeft := (zone s z).eraseLeft, eraseQueue := (zone s z).eraseQueue }) s2 (n.zones ++ n.poolRows) = s3 at q2 ⊢
  have q3 := tell_nsKept { s3 with nss := s3.nss.filter fun m => m.nsid != n.nsid, host.fns := kvMap {} (fun f : Fn => { f with attached := f.attached.filter fun x => x != n.nsid, changed := f.changed.filter fun x => x.1 != n.nsid }) s3.host.fns } [0x0D, 0, n.nsid]
  refine ⟨q3.2.1.trans q2.2.1, q3.2.2.1.trans q2.2.2.1, q3.2.2.2.trans q2.2.2.2, ?_⟩
  unfold ns?; rw [tell_nss]
  apply List.find?_eq_none.2
  intro x hx; simp at hx; simp [hx.2]

/-- A drawn root touches none of these. -/
theorem ensureRoot_says (s : State) : (ensureRoot s).nss = s.nss ∧ (ensureRoot s).dict = s.dict ∧
    (ensureRoot s).pair = s.pair := by
  unfold ensureRoot; split
  · exact ⟨rfl, rfl, rfl⟩
  · dsimp only; generalize draw s = x; exact ⟨rfl, rfl, rfl⟩

/-- What a created namespace holds. -/
theorem addNs_says (s : State) (c : CreateReq) (nsid : Nat) (rows : List Nat) : (addNs s c nsid rows [] []).dict = s.dict ∧
    ∃ m, (addNs s c nsid rows [] []).nss = s.nss ++ [m] ∧ m.nsid = nsid ∧ m.zoned = c.zoned ∧
          m.size = c.size ∧ m.lbaf = c.lbaf ∧ m.pit = c.pit ∧ m.parity = c.parity ∧ m.pclass = c.pclass ∧ m.gen = 1 ∧
          m.zones = (if c.zoned then rows else []) ∧ m.poolRows = (if c.zoned then [] else rows) := by
  obtain ⟨a, b, d⟩ := ensureRoot_says s
  unfold addNs useDraws
  refine ⟨?_, ⟨_, congrArg (· ++ [_]) a, ?_⟩⟩
  · exact b
  · exact ⟨rfl, rfl, rfl, rfl, rfl, rfl, rfl, rfl, rfl, rfl⟩

/-- A request of size 0 keeps its other fields. -/
theorem sized_says (z : Bool) (size l p pa pc ac op : Nat) (hs : List Nat) :
    let c := CreateReq.sized ⟨z, size, l, p, pa, pc, ac, op, hs⟩
    c.zoned = z ∧ c.lbaf = l ∧ c.pit = p ∧ c.parity = pa ∧ c.pclass = pc := by
  intro c; show (CreateReq.sized _).zoned = z ∧ (CreateReq.sized _).lbaf = l ∧ (CreateReq.sized _).pit = p ∧
      (CreateReq.sized _).parity = pa ∧ (CreateReq.sized _).pclass = pc
  unfold CreateReq.sized; split <;> exact ⟨rfl, rfl, rfl, rfl, rfl⟩

/-- Keys, dictionary, commands and free counter are equal, and the sanitize status. -/
def KeysKept (s t : State) : Prop := t.free = s.free ∧ t.host.cmds = s.host.cmds ∧ t.ciph = s.ciph ∧
    t.dict = s.dict ∧ t.host.sanitizeStatus = s.host.sanitizeStatus

theorem KeysKept.refl (s : State) : KeysKept s s := ⟨rfl, rfl, rfl, rfl, rfl⟩

theorem KeysKept.trans {s t u : State} (a : KeysKept s t) (b : KeysKept t u) : KeysKept s u :=
  ⟨b.1.trans a.1, b.2.1.trans a.2.1, b.2.2.1.trans a.2.2.1, b.2.2.2.1.trans a.2.2.2.1, b.2.2.2.2.trans a.2.2.2.2⟩

theorem foldl_keysKept {α : Type} (f : State → α →
    State) (h : ∀ s a, KeysKept s (f s a)) (l : List α) (s : State) : KeysKept s (l.foldl f s) := by
  induction l generalizing s with
  | nil => exact .refl s
  | cons a l ih => exact (h s a).trans (ih _)

theorem KeysKept.ite {s a b : State} (c : Prop) [Decidable c] (ha : KeysKept s a) (hb : KeysKept s b) : KeysKept s (if c then a else b) := by
  split <;> assumption

theorem eraseRow_keysKept (s : State) (z : Nat) : KeysKept s (eraseRow s z) := ⟨rfl, rfl, rfl, rfl, rfl⟩

theorem freeWindow_keysKept (s : State) (l : List Nat) : KeysKept s (freeWindow s l) := by
  unfold freeWindow; refine foldl_keysKept _ ?_ _ _; intro s a; exact ⟨rfl, rfl, rfl, rfl, rfl⟩

theorem dropRewrites_keysKept (s : State) (z : Nat) : KeysKept s (dropRewrites s z) :=
  foldl_keysKept _ (fun _ _ => by dsimp only; exact .ite _ (.refl _) ⟨rfl, rfl, rfl, rfl, rfl⟩) _ _

theorem releaseActive_keysKept (s : State) (z : Nat) : KeysKept s (releaseActive s z) := by
  unfold releaseActive; split
  · exact .ite _ ⟨rfl, rfl, rfl, rfl, rfl⟩ (.refl _)
  · exact .refl _

theorem freeZoneCells_keysKept (s : State) (z : Nat) : KeysKept s (freeZoneCells s z) := by
  unfold freeZoneCells; split <;> exact ⟨rfl, rfl, rfl, rfl, rfl⟩

theorem unmapZone_keysKept (s : State) (z : Nat) (st : ZState) : KeysKept s (unmapZone s z st) := by
  have a := KeysKept.trans (KeysKept.trans (releaseActive_keysKept s z) (freeZoneCells_keysKept _ z)) (dropRewrites_keysKept _ z)
  unfold unmapZone; dsimp only
  generalize dropRewrites (freeZoneCells (releaseActive s z) z) z = u at a ⊢
  have b := a.trans (freeWindow_keysKept u ((zone u z).units.filterMap fun e => e.2.held))
  generalize freeWindow u ((zone u z).units.filterMap fun e => e.2.held) = w at b ⊢
  exact b.trans ⟨rfl, rfl, rfl, rfl, rfl⟩

theorem markZone_keysKept (s : State) (z off : Nat) : KeysKept s (markZone s z off) := by
  unfold markZone; exact .ite _ ⟨rfl, rfl, rfl, rfl, rfl⟩ (.refl _)

theorem emptyZone_keysKept (e : Bool) (s : State) (z : Nat) : KeysKept s (emptyZone e s z) := by
  have a := (unmapZone_keysKept s z .empty).trans (markZone_keysKept _ z 0)
  unfold emptyZone; dsimp only
  generalize markZone (unmapZone s z .empty) z 0 = u at a ⊢
  split <;> (try split) <;> (try split) <;> first
    | exact .refl _
    | exact a.trans ⟨rfl, rfl, rfl, rfl, rfl⟩

theorem setNs_keysKept (s : State) (n : Ns) : KeysKept s (setNs s n) := ⟨rfl, rfl, rfl, rfl, rfl⟩

theorem markRegions_keysKept (s : State) (n : Ns) (a b : Nat) : KeysKept s (markRegions s n a b) := by
  unfold markRegions; exact .ite _ ⟨rfl, rfl, rfl, rfl, rfl⟩ (.refl _)

theorem emptyConv_keysKept (e : Bool) (s : State) (n : Ns) : KeysKept s (emptyConv e s n) := by
  refine KeysKept.trans (KeysKept.trans (KeysKept.trans (freeWindow_keysKept s (n.units.filterMap fun e => e.2.held)) (markRegions_keysKept _ n 0 n.size)) (foldl_keysKept _ (fun s z => eraseRow_keysKept s z) (n.poolRows.filter fun z => e || kvGet 0 z n.fill != 0) _)) ?_
  exact KeysKept.trans ⟨rfl, rfl, rfl, rfl, rfl⟩ (setNs_keysKept _ _)

theorem emptyNs_keysKept (e : Bool) (s : State) (n : Ns) : KeysKept s (emptyNs e s n) := by
  unfold emptyNs; exact .ite _ (foldl_keysKept _ (emptyZone_keysKept e) _ _) (emptyConv_keysKept _ _ _)

theorem emptyAll_keysKept (e : Bool) (s : State) : KeysKept s (emptyAll e s) := by
  have q := foldl_keysKept _ (emptyNs_keysKept e) s.nss s
  unfold emptyAll; dsimp only
  generalize s.nss.foldl (emptyNs e) s = u at q ⊢
  have q2 : KeysKept u (emptyRings e u) := by unfold emptyRings; dsimp only; split <;> exact ⟨rfl, rfl, rfl, rfl, rfl⟩
  refine .ite _ ((q.trans q2).trans ?_) (q.trans q2)
  exact ⟨rfl, rfl, rfl, rfl, rfl⟩

/-- One namespace of the list takes its draws. -/
theorem newSalts_cons (n : Ns) (ns : List Ns) (s : State) : ∃ k x, newSalts [] (n :: ns) s = newSalts [] ns (match ns? (useDraws s k) n.nsid with
      | some m => setNs (useDraws s k) { m with gen := 1, salt := x, rot := none }
      | none => useDraws s k) := by
  rw [newSalts]
  exact ⟨_, _, rfl⟩

/-- New salts touch none of these. -/
theorem newSalts_says (l : List Nat) (ns : List Ns) (s : State) : (newSalts l ns s).host = s.host ∧
    (newSalts l ns s).dict = s.dict ∧
    (newSalts l ns s).ciph.root = s.ciph.root ∧ (newSalts l ns s).ciph.stored = s.ciph.stored ∧
        (newSalts l ns s).ciph.pendingRoot = s.ciph.pendingRoot ∧ (newSalts l ns s).ciph.cache = s.ciph.cache ∧
        (newSalts l ns s).ciph.erased = s.ciph.erased := by
  have ud : ∀ (t : State) (k : Nat), (useDraws t k).host = t.host ∧ (useDraws t k).dict = t.dict ∧
      (useDraws t k).ciph.root = t.ciph.root ∧ (useDraws t k).ciph.stored = t.ciph.stored ∧
      (useDraws t k).ciph.pendingRoot = t.ciph.pendingRoot ∧ (useDraws t k).ciph.cache = t.ciph.cache ∧
      (useDraws t k).ciph.erased = t.ciph.erased := fun t k => ⟨rfl, rfl, rfl, rfl, rfl, rfl, rfl⟩
  induction ns generalizing l s with
  | nil => unfold newSalts; exact ⟨rfl, rfl, rfl, rfl, rfl, rfl, rfl⟩
  | cons n ns ih =>
    cases l with
    | nil =>
      obtain ⟨k, x, e⟩ := newSalts_cons n ns s; rw [e]
      split
      · exact ih [] _
      · exact ih [] _
    | cons x l =>
      unfold newSalts; dsimp only
      split
      · obtain ⟨a1, a2, a3, a4, a5, a6, a7⟩ := ih l (setNs s { ‹Ns› with gen := 1, salt := x, rot := none }); exact ⟨a1, a2, a3, a4, a5, a6, a7⟩
      · exact ih l s

/-- The end of a sanitize puts the pending root in place of the old one. -/
theorem sanitizeEnd_says (s : State) (h : pairRole s = 0) : (sanitizeEnd [] s).host.sanitizeStatus = 1 ∧
    (sanitizeEnd [] s).ciph.root = s.ciph.pendingRoot ∧ (sanitizeEnd [] s).ciph.stored = s.ciph.pendingRoot ∧
    (sanitizeEnd [] s).ciph.pendingRoot = none ∧ (sanitizeEnd [] s).ciph.cache = [] ∧
    (sanitizeEnd [] s).ciph.erased = false := by
  unfold sanitizeEnd
  dsimp only
  have q := emptyAll_keysKept s.ciph.pendingErase s
  generalize emptyAll s.ciph.pendingErase s = u at q ⊢
  have e : ∀ v : State, v.dict = s.dict → pairRole v = 0 := by intro v hv; unfold pairRole od at *; rw [hv]; exact h
  have qc : u.ciph.pendingRoot = s.ciph.pendingRoot := by rw [q.2.2.1]
  have e2 : ∀ (v : State) (l : List Ns), v.dict = s.dict → ¬ (pairRole (newSalts [] l v) = 1 ∧
      (newSalts [] l v).pair.linkUp = true) := by
    intro v l hv c; rw [e _ ((newSalts_says _ _ _).2.1.trans hv)] at c; simp at c
  rw [if_neg (e2 _ _ ?_)]; rotate_left
  · exact q.2.2.2.1
  refine ⟨rfl, ?_, ?_, ?_, ?_, ?_⟩
  · exact (newSalts_says _ _ _).2.2.1.trans qc
  · exact (newSalts_says _ _ _).2.2.2.1.trans qc
  · exact (newSalts_says _ _ _).2.2.2.2.1
  · exact (newSalts_says _ _ _).2.2.2.2.2.1
  · exact (newSalts_says _ _ _).2.2.2.2.2.2

theorem dmaWrite_more (s : State) (n p d b : Nat) : (dmaWrite s n p d b).free = s.free ∧
    (dmaWrite s n p d b).host.cmds = s.host.cmds ∧ (dmaWrite s n p d b).power = s.power := by
  unfold dmaWrite; dsimp only; (repeat' split) <;> exact ⟨rfl, rfl, rfl⟩

/-- A completed admin command. -/
theorem adminDone_says (s : State) (a : Adm) (st : Nat) : (adminDone s a st).free = s.free ∧
    (adminDone s a st).host.cmds = s.host.cmds ∧ (adminDone s a st).power = s.power := by
  unfold adminDone post; split
  · exact ⟨rfl, rfl, rfl⟩
  · split
    · dsimp only; simp only [dmaWrite_more]; exact ⟨trivial, trivial, trivial⟩
    · split
      · exact ⟨rfl, rfl, rfl⟩
      · dsimp only; split <;> exact ⟨rfl, rfl, rfl⟩

end Sys2Proof.Machine
end

