-- ==== Sys2Proof/Laws/PowerPaths.lean ====
section
/-! SUPPORT. Hold-up, power loss and the restart scan: what each of their steps leaves of the state. -/

namespace Sys2Proof.Machine

open Sys2Proof

/-- What a frame that is sent leaves alone. -/
theorem sendFrame_says (s : State) (p k : Nat) (b : List Nat) : (sendFrame s p k b).rst = s.rst ∧
    (sendFrame s p k b).power = s.power ∧ (sendFrame s p k b).host = s.host ∧ (sendFrame s p k b).pins = s.pins := by
  unfold sendFrame; split <;> exact ⟨rfl, rfl, rfl, rfl⟩

/-- The second ledger copy touches neither. -/
theorem copyLedger_says (s : State) : (copyLedger s).rst = s.rst ∧ (copyLedger s).power = s.power := by
  unfold copyLedger; exact ⟨rfl, rfl⟩

theorem sealRecord_rst (s : State) (a b c : Nat) : (sealRecord s a b c).rst = s.rst := by
  unfold sealRecord; dsimp only
  split
  · split
    · exact (sendFrame_says _ _ _ _).1
    · rfl
  · rfl

theorem holdCmdEnd_rst (s : State) (k : Cmd) : (holdCmdEnd s k).rst = s.rst := by
  unfold holdCmdEnd; split
  · dsimp only; split
    · exact sealRecord_rst _ _ _ _
    · rfl
  · rfl

/-- A fold of steps that keep the reset state keeps it. -/
theorem foldl_rst {α : Type} (f : State → α → State) (h : ∀ s a, (f s a).rst = s.rst) (l : List α) (s : State) :
    (l.foldl f s).rst = s.rst := by
  induction l generalizing s with
  | nil => rfl
  | cons a l ih => exact (ih _).trans (h s a)

theorem holdStops_says (s : State) (h : Hold) : (holdStops s h).rst = s.rst ∧ (holdStops s h).power.hold = h ∧
    (holdStops s h).host.cmds = [] := by
  unfold holdStops; exact ⟨rfl, rfl, rfl⟩

theorem holdNotice_says (s : State) : (holdNotice s).rst = s.rst ∧ (holdNotice s).power = s.power ∧
    (holdNotice s).host = s.host ∧ (holdNotice s).pins = s.pins := by
  have st : ∀ (u : State) (p : Nat) (c : Prop) [Decidable c], (if c then sendFrame u p 0x04 [4] else u).rst = u.rst ∧
      (if c then sendFrame u p 0x04 [4] else u).power = u.power ∧
      (if c then sendFrame u p 0x04 [4] else u).host = u.host ∧
      (if c then sendFrame u p 0x04 [4] else u).pins = u.pins := by
    intro u p c _; split
    · exact sendFrame_says u p 4 [4]
    · exact ⟨rfl, rfl, rfl, rfl⟩
  unfold holdNotice; dsimp only; simp only [List.foldl_cons, List.foldl_nil]
  refine ⟨?_, ?_, ?_, ?_⟩
  · rw [(st _ _ _).1, (st _ _ _).1, (st _ _ _).1, (st _ _ _).1]
  · rw [(st _ _ _).2.1, (st _ _ _).2.1, (st _ _ _).2.1, (st _ _ _).2.1]
  · rw [(st _ _ _).2.2.1, (st _ _ _).2.2.1, (st _ _ _).2.2.1, (st _ _ _).2.2.1]
  · rw [(st _ _ _).2.2.2, (st _ _ _).2.2.2, (st _ _ _).2.2.2, (st _ _ _).2.2.2]

/-- The start of hold-up, in its three parts. -/
theorem holdStart_eq (s : State) (h : Hold) : ∃ l, holdStart s h = updateGroups (holdNotice (holdStops (s.host.cmds.foldl holdCmdEnd s) h)) l :=
  ⟨_, rfl⟩

theorem tells_cmds {s t : State} (h : Tells s t) : t.host.cmds = s.host.cmds ∧ t.rst = s.rst ∧ t.power = s.power := by
  obtain ⟨f, q, g, d, l, p, w, rfl⟩ := h; exact ⟨rfl, rfl, rfl⟩

/-- What the start of hold-up leaves. -/
theorem holdStart_says (s : State) (h : Hold) : (holdStart s h).rst = s.rst ∧ (holdStart s h).power.hold = h ∧
    (holdStart s h).host.cmds = [] := by
  obtain ⟨l, e⟩ := holdStart_eq s h
  rw [e]
  obtain ⟨t1, t2, t3⟩ := tells_cmds (updateGroups_tells (holdNotice (holdStops (s.host.cmds.foldl holdCmdEnd s) h)) l)
  obtain ⟨a1, a2, a3, a4⟩ := holdNotice_says (holdStops (s.host.cmds.foldl holdCmdEnd s) h)
  obtain ⟨b1, b2, b3⟩ := holdStops_says (s.host.cmds.foldl holdCmdEnd s) h
  exact ⟨by rw [t2, a1, b1]; exact foldl_rst _ holdCmdEnd_rst _ _, by rw [t3, a2, b2], by rw [t1, a3, b3]⟩

/-- What a durable journal record leaves. -/
theorem onDurable_says (s : State) (r : JRec) : (onDurable s r).jrn = s.jrn ∧ (onDurable s r).power = s.power := by
  have a : ∀ d row old new cause, (addRemap s d row old new cause).jrn = s.jrn ∧
      (addRemap s d row old new cause).power = s.power := by
    intro d row old new cause; unfold addRemap; dsimp only; split <;> exact ⟨rfl, rfl⟩
  unfold onDurable
  (repeat' split) <;> first | exact a .. | exact ⟨rfl, rfl⟩

/-- The same of a list of them. -/
theorem onDurables_say (l : List JRec) (s : State) : (l.foldl onDurable s).jrn = s.jrn ∧
    (l.foldl onDurable s).power = s.power := by
  induction l generalizing s with
  | nil => exact ⟨rfl, rfl⟩
  | cons a t ih => exact ⟨(ih _).1.trans (onDurable_says ..).1, (ih _).2.trans (onDurable_says ..).2⟩

/-- What a power loss leaves. -/
theorem powerLost_says (s : State) : (powerLost s).power = { s.power with hold := .lost, armed := false } ∧
    (powerLost s).pins.wpLow = true ∧
    (powerLost s).pair.linkUp = false ∧ (powerLost s).jrn = s.jrn := by
  unfold powerLost
  refine foldl_holds (fun t : State => t.power = _ ∧ t.pins.wpLow = true ∧ t.pair.linkUp = false ∧
      t.jrn = s.jrn) _ ?_ _ _ ⟨rfl, rfl, rfl, rfl⟩
  intro t c k; exact k

/-- The seal of an image empties the tail and marks it. -/
theorem sealImage_says (s : State) : (sealImage s).jrn.tail = [] ∧
    (sealImage s).power.images = s.power.images.map (fun i => if i.seq = s.power.imageSeq then { i with sealed := true } else i) := by
  unfold sealImage; dsimp only
  exact ⟨congrArg Journal.tail (onDurables_say _ _).1, congrArg Power.images (onDurables_say _ _).2⟩

/-- A write keeps the keys of a map in order. -/
theorem kvPut_sorted {α : Type} [DecidableEq α] (d' : α) (k : Nat) (v : α) (m : Kv α) (h : (m.map Prod.fst).Pairwise (· < ·)) : ((kvPut d' k v m).map Prod.fst).Pairwise (· < ·) := by
  have mem : ∀ (m : Kv α) x, x ∈ (kvPut d' k v m).map Prod.fst → x = k ∨ x ∈ m.map Prod.fst := by
    intro m; induction m with
    | nil => unfold kvPut; intro x; split <;> simp_all
    | cons e t ih =>
      obtain ⟨k', v'⟩ := e
      unfold kvPut; intro x; (repeat' split) <;> simp only [List.map_cons, List.mem_cons]
      · intro h; exact .inr h
      · intro h; exact h
      · intro h; exact .inr (.inr h)
      · intro h; rcases h with h | h
        · exact .inl h
        · exact .inr (.inr h)
      · intro h; rcases h with h | h
        · exact .inr (.inl h)
        · rcases ih x h with h | h
          · exact .inl h
          · exact .inr (.inr h)
  induction m with
  | nil => unfold kvPut; split <;> simp
  | cons e t ih =>
    obtain ⟨k', v'⟩ := e
    simp only [List.map_cons, List.pairwise_cons] at h
    unfold kvPut
    split
    · split
      · simpa using h
      · simp only [List.map_cons, List.pairwise_cons, List.mem_cons, forall_eq_or_imp]
        exact ⟨⟨by assumption, fun a ha => by have := h.1 a ha; omega⟩, h⟩
    · split
      · rename_i e; subst e
        split
        · exact h.2
        · simpa using h
      · simp only [List.map_cons, List.pairwise_cons]
        exact ⟨fun a ha => by rcases mem t a ha with rfl | ha; omega; exact h.1 a ha, ih h.2⟩

/-- A kept element: the others, and what it leaves alone. -/
theorem odKeep_says (s : State) (o e v i : Nat) (w : (s.dict.od.map Prod.fst).Pairwise (· < ·)) :
    ((odKeep s o e v i).dict.od.map Prod.fst).Pairwise (· < ·) ∧ (∀ o' e' i', odKey o' e' i' ≠ odKey o e i →
        od (odKeep s o e v i) o' e' i' = od s o' e' i') ∧
      (odKeep s o e v i).rst = s.rst ∧ (odKeep s o e v i).pair = s.pair ∧ (odKeep s o e v i).power = s.power := by
  refine ⟨kvPut_sorted _ _ _ _ w, ?_, rfl, rfl, rfl⟩
  intro o' e' i' h; unfold od; exact kvGet_put_ne _ _ _ _ _ _ h

/-- The window in force and nothing of these changes. -/
theorem updateWindow_says (s : State) : (updateWindow s).host = s.host ∧ (updateWindow s).rst = s.rst ∧
    (updateWindow s).power = s.power := by
  have h := updateWindow_tells s
  refine ⟨?_, h.rst, h.power⟩
  have hi : ∀ (c : Prop) [Decidable c] (a b : State), a.host = s.host → b.host = s.host →
      (if c then a else b).host = s.host := by
    intro c _ a b ha hb; split <;> assumption
  have hl : ∀ (t : State) (a b c : Nat) (l : List Nat), t.host = s.host → (loupe t a b c l).host = s.host := by
    intro t a b c l ht; obtain ⟨_, _, _, e⟩ := loupe_says t a b c l; rw [e]; exact ht
  unfold updateWindow; dsimp only
  exact hi _ _ _ rfl (hi _ _ _ (hl _ _ _ _ _ rfl) rfl)

/-- The end of the restart scan: the device is in service, armed, its enabled functions ready. -/
theorem scanArm_says (s : State) : (scanArm s).rst.life = .service ∧ (scanArm s).rst.scanStep = 0 ∧
    (scanArm s).power.armed = true ∧ ∀ e ∈ (scanArm s).host.fns, e.2.rdy = e.2.en := by
  unfold scanArm; dsimp only
  rw [(updateWindow_says _).1, (updateWindow_says _).2.1, (updateWindow_says _).2.2]
  refine ⟨rfl, rfl, rfl, ?_⟩
  intro e he
  simp only [kvMap, List.mem_filter, List.mem_map] at he
  obtain ⟨⟨a, _, rfl⟩, _⟩ := he; rfl

/-- Reset state, pair, dictionary and power are equal. -/
abbrev ScanSame (s t : State) : Prop := t.rst = s.rst ∧ t.pair = s.pair ∧ t.dict = s.dict ∧ t.power = s.power

theorem ScanSame.trans {a b c : State} (h : ScanSame a b) (k : ScanSame b c) : ScanSame a c :=
  ⟨k.1.trans h.1, k.2.1.trans h.2.1, k.2.2.1.trans h.2.2.1, k.2.2.2.trans h.2.2.2⟩

theorem eraseAgain_same (s : State) (d b : Nat) : ScanSame s (eraseAgain s d b) := by
  unfold eraseAgain; dsimp only; split <;> exact ⟨rfl, rfl, rfl, rfl⟩

/-- Half-erased blocks are queued again and nothing else of these changes. -/
theorem halfErased_same (s : State) : ScanSame s (halfErased s) := by
  unfold halfErased
  refine foldl_holds (ScanSame s) _ ?_ _ _ ⟨rfl, rfl, rfl, rfl⟩
  intro t e h
  refine foldl_holds (ScanSame s) _ ?_ _ _ h
  intro u b k; exact k.trans (eraseAgain_same ..)

theorem holdUnits_scanSame (s : State) (z f : Nat) (l : List Nat) : ScanSame s (holdUnits s z f l) := by
  unfold holdUnits
  refine foldl_holds (ScanSame s) _ ?_ _ _ ⟨rfl, rfl, rfl, rfl⟩
  intro t u k; dsimp only; split
  · exact k
  · exact k.trans ⟨rfl, rfl, rfl, rfl⟩

theorem holdConv_scanSame (s : State) (e : Nat × Nat) : ScanSame s (holdConv s e) := by
  unfold holdConv; split <;> exact ⟨rfl, rfl, rfl, rfl⟩

theorem unsafe_counted (t : State) : (if t.power.clean then t else { t with power.unsafeShutdowns := t.power.unsafeShutdowns + 1 }).rst = t.rst ∧
    (if t.power.clean then t else { t with power.unsafeShutdowns := t.power.unsafeShutdowns + 1 }).pair = t.pair ∧
    (if t.power.clean then t else { t with power.unsafeShutdowns := t.power.unsafeShutdowns + 1 }).dict = t.dict ∧
    (if t.power.clean then t else { t with power.unsafeShutdowns := t.power.unsafeShutdowns + 1 }).power.unsafeShutdowns = t.power.unsafeShutdowns + (if t.power.clean then 0 else 1) := by
  split <;> exact ⟨rfl, rfl, rfl, rfl⟩

/-- What the restart scan reads back after a clean start. -/
theorem scanRead_says (s : State) (l : Option LossFacts) (c : s.rst.unclean = false) (w : (s.dict.od.map Prod.fst).Pairwise (· < ·)) :
    (scanRead s l).rst = { s.rst with unclean := false } ∧ (scanRead s l).pair = s.pair ∧
        od (scanRead s l) 0x5000 0x01 = od s 0x5000 0x01 ∧
    (scanRead s l).power.unsafeShutdowns = s.power.unsafeShutdowns + (if s.power.clean then 0 else 1) ∧ True := by
  unfold scanRead
  extract_lets x1 x2 x3 x4 x5 x6 x7 x8 x9 y1 y2 y3 y4 y5 y6 y7 y8
  have a1 := odKeep_says s 0xA100 5 x3 0 w
  have a2 := odKeep_says (odKeep s 0xA100 5 x3) 0xA100 9 0 0 a1.1
  have p4 : x4.rst = s.rst ∧ x4.pair = s.pair ∧ od x4 0x5000 0x01 = od s 0x5000 0x01 ∧ x4.power = s.power ∧
      (x4.dict.od.map Prod.fst).Pairwise (· < ·) :=
    ⟨a2.2.2.1.trans a1.2.2.1, a2.2.2.2.1.trans a1.2.2.2.1, (a2.2.1 _ _ _ (by decide)).trans (a1.2.1 _ _ _ (by decide)), a2.2.2.2.2.trans a1.2.2.2.2, a2.1⟩
  have p6 : x6.rst = s.rst ∧ x6.pair = s.pair ∧ od x6 0x5000 0x01 = od s 0x5000 0x01 ∧
      x6.power.unsafeShutdowns = s.power.unsafeShutdowns + (if s.power.clean then 0 else 1) ∧
          (x6.dict.od.map Prod.fst).Pairwise (· < ·) := by
    have k : x6.rst = x4.rst ∧ x6.pair = x4.pair ∧ x6.dict = x4.dict ∧
        x6.power.unsafeShutdowns = x4.power.unsafeShutdowns + (if x4.power.clean then 0 else 1) := unsafe_counted x4
    refine ⟨k.1.trans p4.1, k.2.1.trans p4.2.1, ?_, k.2.2.2.trans (by rw [p4.2.2.2.1]), by rw [k.2.2.1]; exact p4.2.2.2.2⟩
    unfold od; rw [k.2.2.1]; exact p4.2.2.1
  obtain ⟨h1, h2, h3, h4⟩ := halfErased_same x6
  have w7 : (x7.dict.od.map Prod.fst).Pairwise (· < ·) := by rw [show x7.dict = x6.dict from h3]; exact p6.2.2.2.2
  have a8 := odKeep_says x7 0xA100 3 (x7.dies.map fun e => e.2.half.length).sum 0 w7
  have p8 : x8.rst = s.rst ∧ x8.pair = s.pair ∧ od x8 0x5000 0x01 = od s 0x5000 0x01 ∧
      x8.power.unsafeShutdowns = s.power.unsafeShutdowns + (if s.power.clean then 0 else 1) := by
    refine ⟨a8.2.2.1.trans (h1.trans p6.1), a8.2.2.2.1.trans (h2.trans p6.2.1), (a8.2.1 _ _ _ (by decide)).trans ?_, ?_⟩
    · unfold od; rw [show x7.dict = x6.dict from h3]; exact p6.2.2.1
    · rw [a8.2.2.2.2, show x7.power = x6.power from h4]; exact p6.2.2.2.1
  have e9 : x9 = x8 := if_neg (by rw [show x2 = false from c]; decide)
  have p1 : y1.rst = s.rst ∧ y1.pair = s.pair ∧ od y1 0x5000 0x01 = od s 0x5000 0x01 ∧
      y1.power.unsafeShutdowns = s.power.unsafeShutdowns + (if s.power.clean then 0 else 1) := by
    have : ∀ t : State, (useImage t).rst = t.rst ∧ (useImage t).pair = t.pair ∧
        od (useImage t) 0x5000 0x01 = od t 0x5000 0x01 ∧
        (useImage t).power.unsafeShutdowns = t.power.unsafeShutdowns := by
      intro t; unfold useImage; split <;> exact ⟨rfl, rfl, rfl, rfl⟩
    have k := this x9
    rw [e9] at k
    exact ⟨(show y1 = useImage x8 from congrArg useImage e9) ▸ k.1.trans p8.1, (show y1 = useImage x8 from congrArg useImage e9) ▸ k.2.1.trans p8.2.1,
      (show y1 = useImage x8 from congrArg useImage e9) ▸ k.2.2.1.trans p8.2.2.1, (show y1 = useImage x8 from congrArg useImage e9) ▸ k.2.2.2.trans p8.2.2.2⟩
  have k7 : ScanSame y6 y7 := foldl_holds (ScanSame y6) _ (fun t e k => k.trans (holdUnits_scanSame ..)) _ _ ⟨rfl, rfl, rfl, rfl⟩
  have k8 : ScanSame y6 (y2.foldl holdConv y7) := foldl_holds (ScanSame y6) _ (fun t e k => k.trans (holdConv_scanSame ..)) _ _ k7
  refine ⟨k8.1.trans ?_, k8.2.1.trans p1.2.1, ?_, ?_, trivial⟩
  · show { y1.rst with unclean := false } = _; rw [p1.1]
  · have : (y2.foldl holdConv y7).dict = y1.dict := k8.2.2.1
    unfold od; rw [this]; exact p1.2.2.1
  · rw [k8.2.2.2]; exact p1.2.2.2

/-- A device that goes on without its pair is in service, armed. -/
theorem aloneAsLead_says (s : State) : (aloneAsLead s).rst.life = .service ∧ (aloneAsLead s).power.armed = true := by
  have k : ∃ t, aloneAsLead s = scanArm t := by
    unfold aloneAsLead; dsimp only; exact ⟨_, Eq.refl _⟩
  obtain ⟨t, e⟩ := k
  rw [e]
  exact ⟨(scanArm_says t).1, (scanArm_says t).2.2.1⟩

end Sys2Proof.Machine
end

