-- ==== Sys2Proof/Machine/Stored.lean ====
section
/-! DEFINITION. What the system rows and the flush areas hold byte by byte: the hold-up image, journal pages and erase-ledger
cells (R265 to R270, R273), each a codeword under the system key (R379). -/

namespace Sys2Proof.Machine

/-- A 4,096-byte page with the CRC-32C of bytes 4,091:0 in its last four bytes. -/
def checked (v : Nat) : Nat := v + atByte 4092 4 (crc32c 4092 v)

/-! The hold-up image (R266 to R268). -/

/-- The header codeword. -/
def imageHeader (i : Image) : Nat :=
  checked (atByte 0 4 0x4D495548 + atByte 4 2 1 + atByte 6 1 i.area + atByte 8 8 i.seq + atByte 16 8 i.nextAsn +
    atByte 24 8 i.sealedHead + atByte 32 8 i.lsn + atByte 40 4 i.epoch + atByte 44 4 (i.units.length + i.conv.length) +
    atByte 48 4 (64 * i.ledger.length) + atByte 52 4 (i.tail.map jrecBytes).sum + atByte 56 8 i.convSeq)

/-- The tags of the image's units, in slot order. -/
def imageTags (i : Image) : List Nat :=
  (i.orders.zip (i.units ++ i.conv)).map fun t => atByte 0 8 t.1 + atByte 8 4 t.2.1 + atByte 12 4 t.2.2

/-- The tag codewords: 13 tags to a stripe. -/
def imageTagWords (i : Image) : List Nat :=
  (List.range (ceilDiv (imageTags i).length 13)).map fun k => pack 128 (((imageTags i).drop (13 * k)).take 13)

/-- The seal codeword, with the CRC-32C of every tag codeword in order. -/
def imageSeal (i : Image) : Nat :=
  let tags := imageTagWords i
  atByte 0 4 0x4C535548 + atByte 4 8 i.seq + atByte 12 4 tags.length +
    atByte 16 4 (crc32c (4096 * tags.length) (pack 32768 tags))

/-- The header, the ledger buffer, the tag codewords and, once it is programmed, the seal of an image, under the system key. -/
def imageStored (i : Image) : List Nat :=
  let ledger := (List.range (ceilDiv i.ledger.length 64)).map fun k =>
    pack 512 (((i.ledger.drop (64 * k)).take 64).map recImage)
  ([imageHeader i] ++ ledger ++ imageTagWords i ++ if i.sealed then [imageSeal i] else []).map (systemCodeword false 4096)

/-! The journal (R269, R270). -/

/-- The fields of a record's body: width in bytes, and whether it is a field or reserved. -/
def bodyFields : Nat → List (Nat × Bool)
  | 1 => [(4, true), (4, false), (8, true)]
  | 2 => [(4, true), (1, true), (3, false), (8, true)]
  | 3 => [(2, true), (6, false), (8, true), (4, true), (4, false)]
  | 4 => [(2, true), (2, true), (2, true), (2, true), (1, true), (1, true), (6, false)]
  | 5 => [(2, true), (2, true), (4, false), (8, true)]
  | 6 => [(4, true), (4, true), (8, true), (4, true), (4, false)]
  | 7 => [(4, true), (4, true), (8, true), (4, true), (4, true)]
  | 8 => [(4, true), (1, true), (1, true), (2, false), (8, true)]
  | 9 | 14 => [(8, true), (8, true)]
  | 10 => [(8, true), (4, true), (4, true)]
  | 11 => [(2, true), (1, true), (1, true), (4, false), (4, true), (4, false)]
  | 12 => [(2, true), (1, true), (1, false), (4, true), (8, true), (4, true), (4, false)]
  | 13 => [(2, true), (1, true), (5, false), (4, true), (4, false)]
  | 15 | 16 => [(2, true), (2, true), (2, true), (2, false), (4, true), (1, true), (3, false)]
  | _ => []

/-- Values in their fields, with reserved bytes 0. -/
def fillBody : List (Nat × Bool) → List Nat → List (Nat × Nat)
  | [], _ => []
  | (w, false) :: t, vs => (w, 0) :: fillBody t vs
  | (w, true) :: t, vs => (w, vs.headD 0) :: fillBody t vs.tail

/-- A record: LSN, type, length in 8-byte words, reserved, and its body. -/
def jrecImage (r : JRec) : Nat :=
  (layFields ([(8, r.lsn), (1, r.typ), (1, jrecBytes r / 8), (6, 0)] ++ fillBody (bodyFields r.typ) r.body)).2

/-- Records from a byte offset on, one after the other. -/
def layRecords (off : Nat) : List JRec → Nat
  | [] => 0
  | r :: t => atByte off (jrecBytes r) (jrecImage r) + layRecords (off + jrecBytes r) t

/-- A journal page. -/
def journalPage (seq first epoch : Nat) (rs : List JRec) : Nat :=
  checked (atByte 0 4 0x4C4E524A + atByte 4 2 1 + atByte 6 2 (32 + (rs.map jrecBytes).sum) + atByte 8 8 seq +
    atByte 16 8 first + atByte 24 4 epoch + layRecords 32 rs)

/-- The journal row's pages that the device holds, under the system key. -/
def journalStored (s : State) : List Nat :=
  s.jrn.pages.map fun p => systemCodeword false 4096 (journalPage p.1 p.2.1 p.2.2.2
    (s.jrn.durable.filter fun r => decide (p.2.1 ≤ r.lsn) && decide (r.lsn < p.2.1 + p.2.2.1)))

/-! The erase ledger (R273). -/

/-- A cell's payload, which stands in all four codeword slots. -/
def cellImage (d : Nat) (c : EraseCell) : Nat :=
  let entries := c.blocks.map fun e => atByte 0 2 e.1 + atByte 2 1 e.2.1 + atByte 4 4 e.2.2
  checked (atByte 0 4 0x474C5245 + atByte 4 1 (if c.start then 1 else 2) + atByte 5 1 c.blocks.length + atByte 6 2 d +
    atByte 8 8 c.seq + atByte 16 8 c.floor + atByte 24 8 c.lsn + atByte 32 256 (pack 64 entries))

/-- A die's erase ledger, under the system key: each cell four times. -/
def eraseLedgerStored (s : State) (d : Nat) : List Nat :=
  (die s d).cells.flatMap fun c => List.replicate 4 (systemCodeword false 4096 (cellImage d c))

/-! The migration write log (R363). -/

/-- A buffer of a lens's write log in the PF's host memory: A, or B. -/
def logBuffer (s : State) (n : Nat) (bufferB : Bool) : Nat :=
  let f := fnc s n
  let (q, flags, pages) := if bufferB then (f.seqB, f.flagsB, f.logB) else (f.seqA, f.flagsA, f.logA)
  atByte 0 8 q + atByte 8 8 (od s 0x6300 0x04 n) + atByte 16 8 (od s 0x6300 0x05 n) + atByte 24 4 flags +
    atByte 28 4 (od s 0x6300 0x09 n) + (pages.map fun p => 2 ^ (512 + p)).sum

end Sys2Proof.Machine
end

