-- ==== Sys2Proof/WellFormed.lean ====
section
/-! DEFINITION. Which commands are well formed: every number that names a part lies in the range the spec gives. -/

namespace Sys2Proof

/-- A number below a bound. -/
def below (n x : Nat) : Bool := decide (x < n)

/-- The PF or a lens (R44, R454). -/
def fnOk (f : Nat) : Bool := below 513 f
/-- A lens (R454). -/
def lensOk (l : Nat) : Bool := decide (1 ≤ l) && below 513 l
/-- A namespace identifier (R454). -/
def nsidOk (n : Nat) : Bool := decide (1 ≤ n) && below 4097 n
/-- A submission entry names a function, a queue of it (R44, R342) and at least one block. -/
def ioOk (c : IoCmd) : Bool := fnOk c.fn && below 8192 c.sq && decide (1 ≤ c.nlb) && below 65536 c.lbat && below 65536 c.lbatm
/-- An admin command names a function. -/
def admOk (a : Adm) : Bool := fnOk a.fn
/-- A dictionary request fits its header's fields (R481). -/
def odReqOk (r : OdReq) : Bool := below 65536 r.obj && below 256 r.elem && below 65536 r.inst && below 256 r.target
/-- A requester of R457 and R485. -/
def whoOk : Requester → Bool
  | .lens n => lensOk n
  | .pf => true
  | .hostRelay p => decide (1 ≤ p) && below 3 p
  | .mgmt e => below 5 e
  | .twin => true
/-- An entry of a request list fits its header's fields (R481). -/
def dictOpOk : DictOp → Bool
  | .read r | .readStaged r | .describe r => odReqOk r
  | .write r _ => odReqOk r
  | .other code r => odReqOk r && below 256 code && (code == 0 || decide (4 < code))
/-- A host's dictionary command comes on the admin queue of its own function (R457, R480). -/
def carrierOk (who : Requester) (a : Option Adm) : Bool :=
  match who, a with
  | .pf, some a => a.fn == 0
  | .lens n, some a => a.fn == n
  | .pf, none | .lens _, none => false
  | _, none => true
  | _, some _ => false
def commitOk (q : CommitReq) : Bool := whoOk q.who && carrierOk q.who q.a
def srcOk : AdmSrc → Bool
  | .host a => admOk a
  | .follower => true
  | .lead _ d salts => (match d with | some d => nsidOk d.nsid | none => true) && salts.all fun x => below (2 ^ 64) x
  | .master _ _ _ nsid => nsidOk nsid
/-- A DRAM or buffer request has a class and a port (R510, R526). -/
def reqOk (r : Req) : Bool := below 4 r.cls && below 16 r.port

/-- A well-formed command. -/
def Instr.wf : Instr → Bool
  | .submissionQueueDoorbell fn _ => fnOk fn
  | .submissionEntryFetched _ c => ioOk c
  | .tokenRefill => true
  | .lensSubmissionGrant => true
  | .flush c => ioOk c
  | .write c => ioOk c
  | .read c => ioOk c
  | .compare c _ => ioOk c
  | .writeZeroes c => ioOk c
  | .datasetManagement c _ _ => ioOk c
  | .verify c => ioOk c
  | .reservationRegister c _ _ _ => ioOk c
  | .reservationReport c => ioOk c
  | .reservationAcquire c _ _ _ _ => ioOk c
  | .reservationRelease c _ _ _ => ioOk c
  | .zoneAppend c => ioOk c
  | .openZone c => ioOk c
  | .closeZone c => ioOk c
  | .finishZone c => ioOk c
  | .resetZone c => ioOk c
  | .offlineZone c => ioOk c
  | .setZoneDescriptorExtension c => ioOk c
  | .reportZones c _ _ _ => ioOk c
  | .extendedReportZones c => ioOk c
  | .unsupportedIoCommand c _ => ioOk c
  | .asnSequencerPick => true
  | .admissionHoldRelease _ row => below 8192 row
  | .writeDataFetch _ _ _ _ _ => true
  | .postWriteCompletion _ => true
  | .ledgerRowProgram => true
  | .remapRecordProgram => true
  | .journalPageProgram => true
  | .checkpointBegin => true
  | .checkpointEnd => true
  | .resetStepUnmap _ _ => true
  | .dieReadIssue _ _ _ => true
  | .dieReadDone _ _ die _ _ => below 2048 die
  | .readRetryStep _ _ _ => true
  | .softDecode _ _ _ => true
  | .dieProgramIssue die _ => below 2048 die
  | .dieProgramReady die status _ => below 2048 die && below 256 status
  | .dieEraseIssue die block => below 2048 die && below 8192 block
  | .dieEraseReady die status => below 2048 die && below 256 status
  | .eraseSuspend die _ => below 2048 die
  | .eraseSuspendDone die status => below 2048 die && below 256 status
  | .eraseResume die => below 2048 die
  | .wrdyTimeout die => below 2048 die
  | .operationTimeout die => below 2048 die
  | .scriptInstructionLimit die => below 2048 die
  | .nop die _ => below 2048 die
  | .cmd die _ => below 2048 die
  | .addr die _ => below 2048 die
  | .dout die _ => below 2048 die
  | .din die _ => below 2048 die
  | .doutb die _ => below 2048 die
  | .dinb die _ _ => below 2048 die
  | .sel die _ => below 2048 die
  | .dsel die _ => below 2048 die
  | .wrdy die _ => below 2048 die
  | .dieReady die => below 2048 die
  | .stat die _ _ => below 2048 die
  | .dly die _ => below 2048 die
  | .phy die _ => below 2048 die
  | .movi die _ => below 2048 die
  | .movh die _ => below 2048 die
  | .aluAdd die _ => below 2048 die
  | .aluSubtract die _ => below 2048 die
  | .aluAnd die _ => below 2048 die
  | .aluOr die _ => below 2048 die
  | .aluXor die _ => below 2048 die
  | .aluShiftLeft die _ => below 2048 die
  | .aluShiftRight die _ => below 2048 die
  | .aluiAdd die _ => below 2048 die
  | .aluiSubtract die _ => below 2048 die
  | .aluiAnd die _ => below 2048 die
  | .aluiOr die _ => below 2048 die
  | .aluiXor die _ => below 2048 die
  | .aluiShiftLeft die _ => below 2048 die
  | .aluiShiftRight die _ => below 2048 die
  | .br die _ => below 2048 die
  | .bst die _ => below 2048 die
  | .call die _ => below 2048 die
  | .ret die _ => below 2048 die
  | .gets die _ => below 2048 die
  | .cnt die _ => below 2048 die
  | .endOp die _ => below 2048 die
  | .slotBoundary => true
  | .frameBoundary => true
  | .channelScriptSwap ch _ => below 64 ch
  | .rewriteStep die _ => below 2048 die
  | .rowTableSwitch die => below 2048 die
  | .patrolRead _ w facet _ => below 256 w && below 16 facet
  | .probationPhaseEnd die _ => below 2048 die
  | .phase3FacetRepair die _ _ => below 2048 die
  | .gcStep nsid group => nsidOk nsid && below 8 group
  | .keyRotationStep nsid => nsidOk nsid
  | .plnFallingEdge _ => true
  | .plnQualified => true
  | .plnGlitch => true
  | .holdupDrainDone _ => true
  | .holdupSealDone => true
  | .powerLostRelease => true
  | .pwrdisQualified => true
  | .ccShnShutdown fn _ => fnOk fn
  | .shutdownComplete => true
  | .restartScan _ => true
  | .pairBootWaitExpiry => true
  | .imageAreaRelease => true
  | .keepaliveSend => true
  | .keepalive _ _ => true
  | .linkLoss => true
  | .promotionWaitExpiry => true
  | .pairHbInAbsent => true
  | .pairHbInPresent => true
  | .linkTrained port _ _ position _ _ _ _ _ _ => below 4 port && below 4 position
  | .holdingAcknowledgement _ _ _ => true
  | .holdingAckLate _ => true
  | .linkAcknowledgement port _ _ => below 4 port
  | .fastRetrainTimeout port => below 4 port
  | .attachFrame _ _ _ _ _ _ => true
  | .handoverFrame _ _ => true
  | .detachFrame _ _ => true
  | .powerLossNotice port => below 4 port
  | .preserveReport _ group => below 128 group
  | .forkReport _ _ _ => true
  | .forcedResetFrame _ _ => true
  | .pairRootTransfer _ _ => true
  | .keySwitchAsnFrame _ nsid _ _ _ => nsidOk nsid
  | .admissionRequest _ _ c _ _ => ioOk c
  | .ledgerRecords _ _ => true
  | .fetchRequest _ _ _ _ => true
  | .conventionalOrder _ _ nsid _ _ _ => nsidOk nsid
  | .writeDataFrame _ _ _ _ _ _ _ => true
  | .fetchResponse _ _ _ _ _ _ => true
  | .catchingUpDone => true
  | .resyncZoneCopy _ => true
  | .zoneResyncDone => true
  | .keyUpdate port => below 4 port
  | .forwardedCommand _ _ c _ fn _ _ _ _ _ => ioOk c && fnOk fn
  | .memberCompletion position _ status _ _ _ => below 4 position && below 2048 status
  | .cascadeLinkLoss port => below 4 port
  | .memberProbationPass position _ _ _ => below 4 position
  | .memberRemove position => below 4 position
  | .vfEnable numVfs => below 513 numVfs
  | .vfDisable numVfs => below 513 numVfs
  | .virtualizationOnline a lens => admOk a && lensOk lens
  | .virtualizationOffline a lens => admOk a && lensOk lens
  | .virtualizationAssign a lens _ _ => admOk a && lensOk lens
  | .probationChecksPass lens _ _ => lensOk lens
  | .flr r => fnOk r.fn
  | .ccEnClear r => fnOk r.fn
  | .ccEnSet fn => fnOk fn
  | .lockInterface lens _ => lensOk lens
  | .getDeviceInterfaceReport lens => lensOk lens
  | .getDeviceInterfaceState lens => lensOk lens
  | .startInterface lens => lensOk lens
  | .stopInterface lens => lensOk lens
  | .ideIntegrityFailure port lens => below 2 port && lensOk lens
  | .mmioRequest lens m => lensOk lens && below 4096 m.off
  | .writeLogSwap lens => lensOk lens
  | .swapComplete lens => lensOk lens
  | .lensPause lens _ => lensOk lens
  | .cipherMessageGrant rs _ => rs.all fun r => below 528 r.page && decide (1 ≤ r.blocks)
  | .cipherAlarm alarm => below 5 alarm
  | .alarmClearRecover => true
  | .entropyHealthFailure => true
  | .drbgReseed _ => true
  | .laneReturn lane _ => below 16 lane
  | .keyRotationStart nsid => nsidOk nsid
  | .firmwareCommitReplace a slot _ => admOk a && below 8 slot
  | .firmwareCommitReplaceActivate a slot _ => admOk a && below 8 slot
  | .firmwareCommitActivate a slot => admOk a && below 8 slot
  | .firmwareCommitImmediate a => admOk a
  | .raiseMinimum version => below 256 version
  | .negotiateAlgorithms b _ _ _ _ _ => below 8 b
  | .getCertificate b _ => below 8 b
  | .challenge b _ _ => below 8 b
  | .getMeasurements b _ _ _ => below 8 b
  | .keyExchange b _ => below 8 b
  | .setCertificate b _ _ _ _ => below 8 b
  | .vendorDefinedRequest b _ _ _ => below 8 b
  | .levelChangeStart => true
  | .levelChangeDone => true
  | .vddPgRise => true
  | .vddPgTimeout => true
  | .vddPgFall => true
  | .idleTimerExpiry => true
  | .sleepEntry => true
  | .sleepBlockAnswer _ _ => true
  | .sleepAnswerTimeout => true
  | .sleepRetry => true
  | .wakeEvent _ _ => true
  | .setFeaturesPowerManagement a _ => admOk a
  | .apstTransition _ => true
  | .pciD3hot _ => true
  | .managementSleepRequest _ => true
  | .adcPeriod _ _ _ => true
  | .thermalCriticalExit => true
  | .thermalTrip => true
  | .temperatureSample => true
  | .healthSave => true
  | .pcapPRisingEdge _ _ => true
  | .pcapPTimeout => true
  | .pcapPFallback => true
  | .pcapPRestore => true
  | .loopTick => true
  | .loopOverrun eng => below 2 eng
  | .loopInstructionLimit eng => below 2 eng
  | .loopNop eng _ => below 2 eng
  | .lda eng _ => below 2 eng
  | .add eng _ => below 2 eng
  | .sub eng _ => below 2 eng
  | .mpy eng _ => below 2 eng
  | .mac eng _ => below 2 eng
  | .msu eng _ => below 2 eng
  | .sha eng _ => below 2 eng
  | .sts eng _ => below 2 eng
  | .clp eng _ => below 2 eng
  | .min eng _ => below 2 eng
  | .max eng _ => below 2 eng
  | .ldi eng _ => below 2 eng
  | .mov eng _ => below 2 eng
  | .cmp eng _ => below 2 eng
  | .loopBr eng _ => below 2 eng
  | .adi eng _ => below 2 eng
  | .loopEnd eng _ => below 2 eng
  | .loopProgramLoad eng _ => below 2 eng
  | .engineReturn eng => below 2 eng
  | .engineSelfTestDone eng _ => below 2 eng
  | .engineShadowDone eng => below 2 eng
  | .dramRequestGrant ch rs _ => below 8 ch && rs.all fun r => reqOk r.req
  | .agePromotion ch port => below 8 ch && below 16 port
  | .rowClose ch bank => below 8 ch && below 32 bank
  | .dramRefresh ch bank _ => below 8 ch && below 32 bank
  | .mr4Poll ch _ => below 8 ch
  | .selfRefreshEntry ch => below 8 ch
  | .retrainStart => true
  | .retrainPause ch _ _ _ => below 8 ch
  | .fullRetraining ch _ => below 8 ch
  | .scrubRead _ _ _ => true
  | .dramInitBlock _ => true
  | .bufferAllocate pool _ _ => below 6 pool
  | .bufferReturn pool _ _ _ => below 6 pool
  | .freeListRebuildDone pool tier => below 6 pool && below 2 tier
  | .bufferWaitTimeout pool r _ => below 6 pool && reqOk r
  | .powerOn => true
  | .coreBrownOut => true
  | .aonBrownOut => true
  | .perstAssert => true
  | .perstDeassert => true
  | .perstGlitch => true
  | .preResetFlushSeal => true
  | .preResetFlushLimit => true
  | .watchdogExpiry => true
  | .bootTimerExpiry => true
  | .managementReset => true
  | .releaseCountDone straps => below 256 straps
  | .refclkLoss => true
  | .refclkRestore => true
  | .testModeHold _ => true
  | .stage1Loader _ => true
  | .stage2Sealed _ => true
  | .stage3Ftl => true
  | .strapCheck straps => below 256 straps
  | .blockResetFlashChannel i => below 64 i
  | .blockResetCipherLane i => below 16 i
  | .blockResetSoftDecoder i => below 16 i
  | .blockResetPlacementEngine i => below 16 i
  | .blockResetLoopEngine i => below 2 i
  | .blockResetMirrorLink => true
  | .blockResetCascadePort i => below 3 i
  | .blockResetTracePort => true
  | .blockResetLoupe => true
  | .maintenanceRequest _ => true
  | .bootFailureClear => true
  | .logicBistStart => true
  | .logicBistDone _ => true
  | .onlinePassStart => true
  | .memoryBistStep _ => true
  | .deviceSelfTestShort a _ => admOk a
  | .deviceSelfTestExtended a _ => admOk a
  | .loupeTriggerPeriod trigger => below 64 trigger
  | .loupeFlush => true
  | .loupeEmpty => true
  | .loupeResume => true
  | .alertReleaseRead => true
  | .namespaceCreate src _ _ _ _ _ _ _ _ _ => srcOk src
  | .namespaceDelete src nsid => srcOk src && nsidOk nsid
  | .namespaceAttach a nsid _ => admOk a && nsidOk nsid
  | .namespaceDetach a nsid _ => admOk a && nsidOk nsid
  | .formatNvmNoSecureErase src nsid _ => srcOk src && nsidOk nsid
  | .formatNvmUserDataErase src nsid _ => srcOk src && nsidOk nsid
  | .formatNvmCryptoErase src nsid _ => srcOk src && nsidOk nsid
  | .sanitizeBlockErase src => srcOk src
  | .sanitizeCryptoErase src => srcOk src
  | .sanitizeOverwrite a => admOk a
  | .abort a _ _ => admOk a
  | .setFeaturesFdp a _ _ _ => admOk a
  | .admissionLedgerLog a position _ _ _ _ => admOk a && below 4 position
  | .mediaHealthLog a => admOk a
  | .lensContractLog a lens => admOk a && lensOk lens
  | .loupeLog a _ _ _ => admOk a
  | .smartHealthLog a _ => admOk a
  | .changedZoneListLog a nsid _ => admOk a && nsidOk nsid
  | .fdpLogs a _ => admOk a
  | .telemetryLog a _ => admOk a
  | .dictRead who r a => whoOk who && odReqOk r && carrierOk who a
  | .dictReadStaged who r a => whoOk who && odReqOk r && carrierOk who a
  | .dictDescribe who r a => whoOk who && odReqOk r && carrierOk who a
  | .dictWrite q ops => commitOk q && ops.all fun o => dictOpOk o
  | .commit group => group.all fun q => commitOk q
  | .commitDurable who _ => whoOk who
  | .discard who _ => whoOk who
  | .stagingSetExpiry endpoint => below 5 endpoint
  | .dieScriptLoad q _ channels => commitOk q && below (2 ^ 64) channels
  | .dieReturn die => below 2048 die
  | .channelReturn ch => below 64 ch
  | .pairAttach => true
  | .pairDetach => true
  | .handover => true
  | .discardHistoryAndAttach => true
  | .clearPairing => true
  | .setEndpointId binding eid => below 3 binding && below 256 eid
  | .getEndpointId binding => below 3 binding
  | .getMctpVersionSupport binding => below 3 binding
  | .getMessageTypeSupport binding => below 3 binding
  | .getVendorDefinedMessageSupport binding => below 3 binding
  | .nvmeMiMessage binding _ => below 3 binding
  | .setdasa bus static address => below 2 bus && below 128 static && below 128 address
  | .entdaa bus address => below 2 bus && below 128 address
  | .targetResetPattern bus => below 2 bus
  | .smbusSclTimeout bus => below 2 bus
  | .supplyWithinRange supply => below 4 supply
  | .thermalTripRelease => true
  | .fastRetrainDone port => below 4 port
  | .frameCheckFailure port _ => below 4 port
  | .flitCheckFailure port _ => below 4 port
  | .periodicChannelRetraining ch _ _ => below 64 ch
  | .korlaCoreMachineCheck => true
  | .ftlFirmwareAssertion => true
  | .hdrEntry bus => below 2 bus
  | .hdrExitPattern bus => below 2 bus
  | .endSession b => below 8 b
  | .asynchronousEventRequest a => admOk a

end Sys2Proof
end

