-- ==== Sys2Proof/Tests/Slice0.lean ====
section
/-! SUPPORT. Worked cases of the spec, a smoke test of WellFormed, and witnesses for the hypotheses of the statements:
each theorem witness_<...> shows a small state and operands that meet the hypotheses of the clauses it names. -/

namespace Sys2Proof.Tests

open Sys2Proof.Machine

/-- A submission entry of function fn. -/
def io (fn nsid slba nlb : Nat) : IoCmd :=
  { fn := fn, sq := 1, cid := 7, nsid := nsid, slba := slba, nlb := nlb, cross := 5, dptr := 0, cqAddr := 0
    pasid := 0xFFFFFFFF, badField := false, selectAll := false, dspec := none, ilbrt := 0, lbat := 0, lbatm := 0
    piRemap := false, host := 3 }

/-- An admin command of the physical function. -/
def pf : Adm := { fn := 0, cid := 1, dptr := 0, cqAddr := 0 }

/-- A zoned namespace of two zones and a conventional one. -/
def zns : Ns := { nsid := 1, zoned := true, size := 524288, lbaf := 0, parity := 1, pclass := 0, activeQuota := 2
                  openQuota := 2, zones := [0, 1] }
def cns : Ns := { nsid := 2, zoned := false, size := 262144, lbaf := 0, parity := 1, pclass := 0, activeQuota := 0
                  openQuota := 0, poolRows := [0] }

/-- The physical function with both namespaces attached, and a lens online. -/
def fn0 : Fn := { en := true, rdy := true, attached := [1, 2] }
def fn1 : Fn := { fn0 with lens := .online }

/-- A controller in service with both namespaces, the physical function and lens 1. -/
def svc : State := { State.reset with
  rst.life := .service, nss := [zns, cns], host.fns := [(0, fn0), (1, fn1)], host.cfgServed := true }

/-- The address of a select-all action. -/
def allZones (nsid : Nat) : IoCmd := { io 0 nsid 0 1 with selectAll := true }

/-- svc with an erase of zone 0's block on the die of its group's facet 0. -/
def erasing : State := { svc with
  dies := [(facetDie 0 0, { st := .erasing, erase := some (rowBlock svc (facetDie 0 0) (rowOf 0)) })] }

/-- svc with zone 0 in a state, four blocks written. -/
def zoneIn (st : ZState) : State := { svc with zones := [(0, { st := st, wp := 4 })] }

/-- HostReadsAndZoneCommands: a command that is served and finds its zone here, an Empty zone whose blocks it names, a
live completion. -/
theorem witness_reads :
    (Served svc .read (io 0 1 262136 8) zns ∧ Served svc .compare (io 1 2 0 1) cns ∧ Served svc .verify (io 0 1 0 8) zns) ∧
    (zns.zoned = true ∧ zns.extents = [] ∧ zns.pit = 0 ∧ (∀ i < 8, zns.zoneOf (262144 + i) = some 1) ∧
      (zone svc 1).st = .empty ∧ svc.host.cmds = [] ∧ kvWf {} svc.host.fns) ∧
    (Served svc .read (io 0 1 262144 8) zns ∧ Served svc .compare (io 0 1 262144 8) zns ∧
      Served svc .verify (io 0 1 262144 8) zns) ∧
    genOk svc 0 (upCmd svc .read (io 0 1 262144 8)).gen = true ∧
    genOk svc 0 (upCmd svc .compare (io 0 1 262144 8)).gen = true ∧
    genOk svc 0 (upCmd svc .verify (io 0 1 262144 8)).gen = true := by decide

theorem witness_zone_commands :
    (svc.adm.spent = false ∧ pairRole svc ≠ 2 ∧ zns.zoneOf 262144 = some 1 ∧ zns.posOf 262144 = none) ∧
    Served svc .zoneAppend (io 0 1 262144 8) zns ∧ Served svc .write (io 0 1 262144 8) zns ∧
    Served svc .writeZeroes (io 0 1 262144 8) zns ∧ Served svc (.zoneSend .openZ) (io 0 1 262144 1) zns ∧
    Served svc (.zoneSend .closeZ) (io 0 1 262144 1) zns ∧ Served svc (.zoneSend .finishZ) (io 0 1 262144 1) zns ∧
    Served svc (.zoneSend .resetZ) (io 0 1 262144 1) zns ∧ Served svc (.zoneSend .offlineZ) (io 0 1 262144 1) zns ∧
    zoneStep svc 1 = false ∧
    (Served erasing (.zoneSend .offlineZ) (io 0 1 0 1) zns ∧ zns.zoneOf 0 = some 0 ∧ zoneStep erasing 0 = true ∧
      0 < erasing.sched.slotUs) := by decide

/-- Each action of a lone command: its zone's state allows it, and no row of its ring waits for its erase. -/
def allows (s : State) (a : ZoneAct) (z : Nat) : Prop :=
  Served s (.zoneSend a) (io 0 1 (zns.startOf z) 1) zns ∧ sendOutcome s zns z s.adm.nextAsn a = { status := 0 } ∧
    rowHeld s zns (upCmd s (.zoneSend a) (io 0 1 (zns.startOf z) 1)) z = false
theorem witness_zone_actions :
    (Calm svc ∧ svc.adm.preserve = false ∧ kvWf {} svc.zones ∧ zns.zoneOf 262144 = some 1 ∧ 262144 = zns.startOf 1) ∧
    (Calm (zoneIn .closed) ∧ kvWf {} (zoneIn .closed).zones ∧ zns.zoneOf 0 = some 0 ∧ 0 = zns.startOf 0) ∧
    allows svc .openZ 1 ∧ allows (zoneIn .closed) .openZ 0 ∧ allows (zoneIn .implOpen) .closeZ 0 ∧
    (zone (zoneIn .implOpen) 0).st.isOpen = true ∧
    allows { svc with zones := [(0, { st := .explOpen })] } .closeZ 0 ∧ allows (zoneIn .explOpen) .finishZ 0 ∧
    allows (zoneIn .full) .resetZ 0 ∧ allows (zoneIn .readOnly) .offlineZ 0 ∧ zoneStep (zoneIn .readOnly) 0 = false := by
  refine ⟨by decide, by decide, ?_, ?_, ?_, by decide, ?_, ?_, ?_, ?_, by decide⟩ <;> exact ⟨by decide, rfl, by decide⟩

theorem witness_zone_writes :
    writeOutcome svc zns 0 svc.adm.nextAsn .write 0 8 = { status := 0 } ∧
    rowHeld svc zns (upCmd svc .write (io 0 1 0 8)) 0 = false ∧
    writeOutcome svc zns 0 svc.adm.nextAsn .zoneAppend 0 8 = { status := 0 } ∧
    rowHeld svc zns (upCmd svc .zoneAppend (io 0 1 0 8)) 0 = false ∧
    writeOutcome (zoneIn .implOpen) zns 0 1 .writeZeroes 4 8 = { status := 0 } ∧
    Served (zoneIn .implOpen) .writeZeroes (io 0 1 4 8) zns ∧
    rowHeld (zoneIn .implOpen) zns (upCmd (zoneIn .implOpen) .writeZeroes (io 0 1 4 8)) 0 = false := by
  decide +kernel

/-- ConventionalWritesAndFlush, DatasetManagementHints. -/
theorem witness_conventional_commands :
    (cns.zoned = false ∧ svc.adm.preserve = false ∧ pairRole svc = 0) ∧ Served svc .write (io 0 2 262136 8) cns ∧
    Served svc .writeZeroes (io 0 2 0 8) cns ∧
    (Served { svc with adm.preserve := true } .write (io 0 2 0 8) cns ∧
      Served { svc with adm.preserve := true } .writeZeroes (io 0 2 0 8) cns) ∧
    (Served svc .dsm (io 0 2 0 1) cns ∧ ∀ r ∈ [(0, 8), (262136, 8)], r.1 + r.2 ≤ cns.lbas) ∧
    (Served svc .dsm (io 0 1 0 1) zns ∧ genOk svc 0 (upCmd svc .dsm (io 0 1 0 1)).gen = true) ∧
    Served svc .flush (io 0 1 0 1) zns ∧ genOk svc 0 (upCmd svc .flush (io 0 1 0 1)).gen = true ∧
    remotePositions svc zns = [] := by decide

/-- ReportsAndFailedChecks: the reports, and a failed check of a missing namespace, of a range and of a wrong kind. -/
theorem witness_reports_and_checks :
    Served svc .zoneReport (io 0 1 262144 1) zns ∧ Served svc .resvReport (io 0 1 0 1) zns ∧
    Served svc .zoneExtReport (io 0 1 0 1) zns ∧ Served svc .zoneSetExt (io 0 1 0 1) zns ∧
    accepts svc 0 = true ∧ checks svc .read (io 0 9 0 1) = some 0x00B ∧ (checks svc .write (io 0 1 524288 1)).isSome ∧
    (checks svc .zoneAppend (io 0 2 0 1)).isSome ∧ (checks svc (.zoneSend .resetZ) (io 0 2 0 1)).isSome ∧
    (checks svc .flush (io 0 9 0 1)).isSome ∧
    (ns? svc 9 = none ∧ (io 0 9 0 1).badField = false ∧ dspecOk (List.range 64) (io 0 9 0 1) = true) := by decide

/-- ReservationsAreTaken: the zoned namespace without a key, with the key of host 3, and held by it. -/
def keyed : Ns := { zns with resv := { keys := [(3, 9)] } }
def heldNs : Ns := { zns with resv := { keys := [(3, 9)], rtype := 6, holder := some 3 } }
theorem witness_reservations :
    (kvGet 0 3 zns.resv.keys = 0 ∧ Served svc .resvRegister (io 0 1 0 1) zns) ∧
    (kvGet 0 3 keyed.resv.keys = 9 ∧ keyed.resv.rtype = 0 ∧
      Served { svc with nss := [keyed] } .resvAcquire (io 0 1 0 1) keyed) ∧
    (kvGet 0 3 heldNs.resv.keys = 9 ∧ heldNs.resv.holder = some 3 ∧
      Served { svc with nss := [heldNs] } .resvRelease (io 0 1 0 1) heldNs) := by decide

/-- SubmissionFillsSlots, TokensAreRefilled: a queue with an entry rung and both slots free. -/
def marked : State := { svc with host.fns := [(0, { fn0 with ready := [(1, 1)] }), (1, fn1)] }
theorem witness_submission :
    accepts marked 1 = true ∧ kvWf {} marked.host.fns ∧ kvWf 0 (fnc marked 0).ready ∧ fetches marked 0 = true ∧
    fetchTurn (fnc marked 0) 1 = true ∧ writeSlot .write = true ∧ (fnc marked 0).wr = none ∧ writeSlot .read = false ∧
    (fnc marked 0).rd = none := by decide

/-- SmallestTagIsGranted: a read of the physical function and a longer one of lens 1 compete. -/
theorem of_all {α : Type} {o : Option α} {p : α → Bool} (h : o.all p = true) : ∀ x, o = some x → p x = true := by
  rintro x rfl; exact h
def slotOf (fn nlb order : Nat) : Slot := { op := .read, io := io fn 1 0 nlb, gen := 0, order := order }
def compete : State := { svc with
  host.fns := [(0, { fn0 with rd := some (slotOf 0 1 0) }), (1, { fn1 with rd := some (slotOf 1 512 1) })] }
theorem witness_arbiter :
    ∃ sl, (∀ e ∈ (retag compete).host.fns, ∀ o, offered e.2 = some o → sl.tag.getD 0 ≤ o.1.tag.getD 0) ∧
      ((retag compete).host.fns.find? fun e => e.1 == 0).map (fun e => offered e.2) = some (some (sl, false)) ∧
      ∀ e ∈ (retag compete).host.fns, ∀ o, e.1 ≠ 0 → offered e.2 = some o → sl.tag.getD 0 < o.1.tag.getD 0 := by
  refine ⟨{ slotOf 0 1 0 with tag := ((fnc (retag compete) 0).rd.bind Slot.tag), waited := ((fnc (retag compete) 0).rd.map Slot.waited).getD false }, ?_, by decide, ?_⟩
  · have h : ∀ e ∈ (retag compete).host.fns, (offered e.2).all (fun o => decide
        ((((fnc (retag compete) 0).rd.bind Slot.tag).getD 0) ≤ o.1.tag.getD 0)) = true := by decide
    intro e he o ho; simpa using of_all (h e he) o ho
  · have h : ∀ e ∈ (retag compete).host.fns, e.1 ≠ 0 → (offered e.2).all (fun o => decide
        ((((fnc (retag compete) 0).rd.bind Slot.tag).getD 0) < o.1.tag.getD 0)) = true := by decide
    intro e he o hn ho; simpa using of_all (h e he hn) o ho

/-- SequencerTakesOnePick, SequencerTakesEarliestCrossing: two appends at the points of two zones, the later crossing
first in the list; a device record that is due; a window that holds no admission; a held command of ring 0. -/
def pointCmd (id zone cross : Nat) : Cmd :=
  { id := id, op := .zoneAppend, io := { io 0 1 (262144 * zone) 8 with cross := cross }, index := id, zone := zone }
def waiting : State := { svc with host.cmds := [pointCmd 1 1 6, pointCmd 2 0 5] }
theorem witness_sequencer :
    (inService waiting = true ∧ pairRole waiting ≠ 2 ∧ waiting.pair.fenced = false ∧ waiting.adm.spent = false ∧
      waiting.adm.nextAsn < 2 ^ 64 - 1 ∧ waiting.adm.afterClose = none ∧ waiting.adm.due = [] ∧
      holdFull waiting = false) ∧
    seqPick (holdPicks (settleSelectAll waiting)) = some (0, pointCmd 2 0 5, 0) ∧
    seqPick waiting = some (0, pointCmd 2 0 5, 0) ∧
    (∀ e ∈ zonePicks waiting, e = (0, pointCmd 2 0 5) ∨ e.2.held = true ∨ 5 < e.2.io.cross) ∧
    (zonePicks waiting).Nodup ∧
    { waiting with adm.due := [.restartClose 0 1] }.adm.due = .restartClose 0 1 :: [] ∧
    { waiting with adm.due := [.epochRec 5 1] }.adm.due = .epochRec 5 1 :: [] ∧
    holdFull { waiting with adm.holdAll := true } = true ∧
    rowUnerased { svc with rings := [(0, { unerased := [16 * 5 + 2] })] } 0 5 = true ∧
    rowUnerased svc 0 5 = false := by decide +kernel

/-- WriteDataAndCompletion: an admitted write with room, one without (the window is full), and one whose data is held. -/
def writing : Cmd := { id := 1, op := .write, io := io 0 1 0 8, stage := .waitData, asns := [4] }
def arrived : Cmd := { writing with stage := .dataIn, dataHere := true }
theorem witness_write_data :
    (let s := { svc with host.cmds := [writing] }
     cmd? s 1 = some writing ∧ ns? s 1 = some zns ∧ s.ciph.erased = false ∧ zns.pit = 0 ∧ pairRole s = 0 ∧
       overtaken s writing = false ∧ (∀ r ∈ s.host.cmds, 1 ∉ r.waits) ∧ kvWf {} s.zones ∧ kvWf 0 (zone s 0).blocks ∧
       windowRoom s 0 (unitsOf zns.bpu (cmdLba writing) 8).length = true) ∧
    windowRoom { svc with win.used := 1024 * 256 } 0 (unitsOf zns.bpu 0 8).length = false ∧
    windowRoom { svc with win.used := 1024 * 256 - 8 } 0 (unitsOf zns.bpu 0 8).length = true ∧
    (cmd? { svc with host.cmds := [arrived] } 1 = some arrived ∧ joined svc = false ∧ arrived.ranges = [] ∧
      arrived.asns.getLast? = some 4 ∧ zns.ending = none ∧ svc.host.sanitizeStatus ≠ 2 ∧
      svc.power.hold = .running ∧ genOk svc 0 arrived.gen = true) := by decide +kernel

/-- JournalAndCheckpoints: a tail with a record, 1 GiB written, a checkpoint whose end record is durable, one without it,
an unmap due. -/
theorem witness_journal :
    pageTake 4060 [{ lsn := 1, typ := 1, body := [0, 3] }] ≠ [] ∧
    (let s := { svc with jrn.sinceBegin := 2 ^ 30 }
     2 ^ 30 ≤ s.jrn.sinceBegin ∧ s.jrn.running = none) ∧
    svc.jrn.sinceBegin < 2 ^ 30 ∧
    (let s := { svc with jrn.running := some 2, jrn.ckpt := 1, jrn.durable := [{ lsn := 3, typ := 10, body := [1] }] }
     s.jrn.running = some 2 ∧ { lsn := 3, typ := 10, body := [1] } ∈ s.jrn.durable ∧
       [1].head? = some s.jrn.ckpt) ∧
    (let s := { svc with jrn.running := some 2, jrn.ckpt := 1 }
     (s.jrn.durable ++ s.jrn.tail).any (fun r => r.typ == 10 && r.body.head? == some s.jrn.ckpt) = false) ∧
    (let s := { svc with zones := [(1, { unmapDue := true, lastAdm := 3 })] }
     (zone s 1).unmapDue = true ∧ cmd? s 1 = none) := by decide

/-- DieReads: a queued unit with its die free, a read of die 0 whose command waits for another unit, a ladder at its first
and last hard and soft steps, a soft decode. -/
def unit0 : RdUnit := { rid := 1, unit := 0, zone := 0, group := 0, facet := 0, row := 8, page := 0, plane := 0, cw := 0
                        parity := 1, slc := false, cls := 3, noDirect := false }
def direct0 (step : Nat) (left : List Nat) : RdUnit := { unit0 with mode := .direct, step := step, left := left }
def q0 : DReq := { cls := 7, rid := 1, unit := 0, plane := 0, page := 0, member := false, slc := false }
def queued : State := { svc with reads := [unit0] }
def dieReads : State := { svc with
  reads := [direct0 0 []], dies := [(0, { st := .reading, reading := [q0] })]
  host.cmds := [{ id := 1, op := .read, io := io 0 1 0 16, stage := .reading, need := [0, 1] }] }
theorem witness_die_reads :
    (rdUnit? queued 1 0 = some unit0 ∧ unit0.mode = .queued ∧ queued.power.hold = .running ∧ directOk queued unit0 = true ∧
      2 ≤ servedClass queued unit0 ∧ targetShut queued unit0 = false ∧ NoQueue queued ∧
      (die queued (facetDie 0 0)).st = .idle ∧
      canStart queued queued.sched.slotUs (facetDie 0 0) (unitReq queued unit0 false) = true) ∧
    ((die dieReads 0).reading = [q0] ∧ (die dieReads 0).st = .reading ∧ (die dieReads 0).repeated = false ∧
      rdUnit? dieReads 1 0 = some (direct0 0 []) ∧ NoQueue dieReads ∧ kvWf {} dieReads.dies ∧
      (cmd? dieReads 1).map (·.need) = some [0, 1] ∧ 10 < od dieReads 0x4010 0x02 ∧
      kvGet 0 (rowBlock dieReads 0 8) (die dieReads 0).readCount + 1 < od dieReads 0x4010 0x03) ∧
    (∀ step ∈ [0, 1, 7, 8, 10], let s := { svc with reads := [direct0 step []] }
      rdUnit? s 1 0 = some (direct0 step []) ∧ onDie s (direct0 step []) = false ∧
      ladderTurn s (direct0 step []) = true ∧ isContract s (dieGroup (ladderDie (direct0 step []))) = false) ∧
    od svc 0x4010 0x01 = 7 ∧
    (let s := { svc with reads := [direct0 9 [26]] }
     16 ≤ (direct0 9 [26]).left.headD 0 ∧ s.bist.decodersOut.length < 16 ∧
      rotPick s.sched.softPtr (softWaiting s) = some (dieChan (ladderDie (direct0 9 [26])))) := by decide +kernel

/-- DieProgramsAndErases: a staging page of ring 0 on the die of its facet 2; the die while it programs; a block to erase,
its erase, and the erase suspending and suspended. -/
def staging0 : State := { svc with
  rings := [(0, { c := 1, cells := [(0, (0, 0))] })], zones := [(0, { ring := some 0 })], ctxs := [(64, { s := 1 })]
  pins.wpLow := false, sched.slcBudget := 64 }
def job0 : ProgJob := .stage 0 0 0
theorem witness_programs :
    (jobHandle staging0 job0 = staging0 ∧ dieOut staging0 64 = false ∧
      deadBlock staging0 64 (jobRow staging0 64 job0) = false ∧ jobReady staging0 64 job0 = true ∧ NoQueue staging0 ∧
      (die staging0 64).st = .idle ∧ (chan staging0 (dieChan 64)).state = 0 ∧
      canProgram (enqueueWork staging0 64 (.program job0)) 0 64 job0 = true) ∧
    jobReady svc 64 job0 = false ∧
    (let s := { staging0 with dies := [(64, { st := .programming, job := some job0 })] }
     (die s 64).st = .programming ∧ (die s 64).job = some job0) ∧
    (let s := { staging0 with dies := [(64, { st := .programming, job := some .system })] }
     (die s 64).job = some .system ∧ (die s 64).repeated = false ∧ NoQueue s) := by decide +kernel
def erasable0 : State := { svc with pins.wpLow := false, sched.eraseBudget := 16, dies := [(0, { started := [8] })] }
theorem witness_erases :
    (dieOut erasable0 0 = false ∧ 8 ∈ (die erasable0 0).started ∧ 8 ∉ (die erasable0 0).ended ∧ NoQueue erasable0 ∧
      (die erasable0 0).st = .idle ∧ (chan erasable0 (dieChan 0)).state = 0 ∧
      canErase (enqueueWork erasable0 0 (.erase 8)) 0 8 = true) ∧
    (die svc 0).started.contains 8 = false ∧
    ((die erasing 0).st = .erasing ∧ (die erasing 0).erase.isSome ∧ (die erasing 0).repeated = false ∧
      (die erasing 0).eraseRepeated = false ∧ NoQueue erasing ∧ (die erasing 0).suspends < (hdrOf erasing 0).suspends) ∧
    (let s := { svc with dies := [(0, { st := .suspending, erase := some 8 })] }
     (die s 0).st = .suspending ∧ NoQueue s) ∧
    mayResume { svc with dies := [(0, { st := .suspended, erase := some 8 })] } 0 false = true := by decide +kernel

/-- The die script statements: an entry that runs on die 0 with the bus, at the last count that may run, before each word. -/
def running : State := { svc with
  ctxs := [(0, { entry := some 1, count := 65535, stack := [7] })], chans := [(0, { holder := some 0 })] }
def word (op rest : Nat) : Word32 := BitVec.ofNat 32 (op * 2 ^ 26 + rest)
theorem witness_script :
    (∀ op ∈ [0x00, 0x01, 0x02, 0x03, 0x04, 0x05, 0x06, 0x07, 0x08, 0x09, 0x0A, 0x0B, 0x0C, 0x10, 0x11, 0x12, 0x13, 0x14,
      0x15, 0x16, 0x17, 0x18, 0x19, 0x1F], ScriptReady running 0 op (word op 0)) ∧
    (((word 2 0x401).extractLsb' 0 2).toNat + ((word 2 0x401).extractLsb' 8 3).toNat > 4 ∧
      ((word 2 0x400).extractLsb' 0 2).toNat + ((word 2 0x400).extractLsb' 8 3).toNat ≤ 4 ∧
      ScriptReady running 0 2 (word 2 0x401) ∧ ScriptReady running 0 2 (word 2 0x400) ∧ kvWf {} running.chans) ∧
    ((word 5 0).getLsbD 8 = false ∧ (word 5 0x100).getLsbD 8 = true ∧ ScriptReady running 0 5 (word 5 0x100)) ∧
    (∀ f < 7, wFn (word 0x12 (f * 2 ^ 20)) = f ∧ ScriptReady running 0 0x12 (word 0x12 (f * 2 ^ 20)) ∧
      wFn (word 0x13 (f * 2 ^ 20)) = f ∧ ScriptReady running 0 0x13 (word 0x13 (f * 2 ^ 20))) ∧
    (let s := { running with ctxs := [(0, { entry := some 12 })] }
     ScriptReady s 0 0x0C (word 0x0C 0) ∧ (ctx s 0).entry = some 12) ∧ (ctx running 0).entry = some 1 ∧
    ((wByte (word 0x1F 0x7F)).toNat < 0x80 ∧ 0x80 ≤ (wByte (word 0x1F 0x80)).toNat ∧
      ScriptReady running 0 0x1F (word 0x1F 0x7F) ∧ ScriptReady running 0 0x1F (word 0x1F 0x80)) ∧
    (∀ e ∈ [1, 4, 8, 12, 13], ∀ r ∈ [none, some (1, Vector.replicate 16 7)],
      let s := { running with ctxs := [(0, { entry := some e, redo := r })], dies := [(0, { phase := 1 })] }
      ScriptReady s 0 0x1F (word 0x1F 0) ∧ (ctx s 0).entry = some e ∧ (ctx s 0).redo = r ∧ (die s 0).phase = 1 ∧
        (wByte (word 0x1F 0)).toNat = 0) ∧
    (die { running with dies := [(0, { st := .resuming, erase := some 8 })] } 0).st = .resuming := by
  refine ⟨?_, ?_, ?_, ?_, ?_, ?_, ?_, ?_, ?_⟩ <;> decide
theorem witness_script_faults :
    (chan running 0).code = [] ∧ wOp (word 0 0) = 0 ∧ wOp (word 0x12 0) = 0x12 ∧ wFn (word 0x12 0) = 0 ∧
    wOp (word 0x14 0) = 0x14 ∧ wOp (word 0x0D 0) ∉ scriptOps ∧ ScriptReady running 0 0x12 (word 0x12 0x700000) ∧
    wFn (word 0x12 0x700000) = 7 := by
  refine ⟨?_, ?_, ?_, ?_, ?_, ?_, ?_, ?_⟩ <;> decide
theorem witness_script_control :
    (wTarget (word 0x14 2047) < codeLen running 0 ∧ brTaken (ticked running 0) (wFn (word 0x14 2047)) = some true ∧
      brTaken (ticked running 0) 1 = some false ∧ wFn (word 0x14 0x500000) = 5 ∧
      ScriptReady running 0 0x14 (word 0x14 2047) ∧ ScriptReady running 0 0x14 (word 0x14 0x500000)) ∧
    (let s := { running with chans := [(0, { holder := some 0, code := [word 0x14 7] })] }
     ScriptReady s 0 0x14 (word 0x14 7) ∧ wFn (word 0x14 7) = 0 ∧ codeLen s 0 ≤ wTarget (word 0x14 7)) ∧
    (bstTaken (ctx running 0) 0 true = true ∧ bstTaken (ctx running 0) 0x40 true = false) ∧
    ((ctx running 0).stack.length < 4 ∧ (ctx running 0).stack = [7]) ∧
    (let s := { running with ctxs := [(0, { entry := some 1, stack := [1, 2, 3, 4] })] }
     ScriptReady s 0 0x16 (word 0x16 0) ∧ 4 ≤ (ctx s 0).stack.length) ∧
    (let s := { running with ctxs := [(0, { entry := some 1 })] }
     ScriptReady s 0 0x17 (word 0x17 0) ∧ (ctx s 0).stack = []) ∧
    (let s := { running with ctxs := [(0, { entry := some 1, count := 65536 })] }
     (ctx s 0).entry.isSome = true ∧ (ctx s 0).waiting = false ∧ (chan s 0).holder = some 0 ∧ 65536 ≤ (ctx s 0).count ∧
       dieBusy s 0 = true ∧ dieBusy svc 0 = false) ∧
    (let w := { svc with ctxs := [(0, { entry := some 1, waiting := true })] }
     let e := { w with chans := [(0, { entry := [0, 0, 0, 0, 0, 0, 0, 0, 0, 0, 0, 0, 0, 0, 0, 9] })] }
     kvWf {} w.ctxs ∧ (ctx w 0).waiting = true ∧ (chan w 0).entry.getD 15 0xFFFF = 0xFFFF ∧
       (ctx e 0).waiting = true ∧ (chan e 0).entry.getD 15 0xFFFF ≠ 0xFFFF ∧ (die w 0).repeated = false ∧
       (die { w with dies := [(0, { repeated := true })] } 0).repeated = true) := by
  refine ⟨?_, ?_, ?_, ?_, ?_, ?_, ?_, ?_⟩ <;> decide

/-- SlotsFramesAndScriptSwaps: a slot in the frame and its last one; a loaded image of mode 1 and rate 4,800 on a quiet
channel, one of another rate, and one on a channel with a running die. -/
def image1 : Nat := 2 ^ 192 * 2 ^ 192 * (1 + 4800 * 65536)
def image2 : Nat := 2 ^ 192 * 2 ^ 192 * (1 + 2400 * 65536)
theorem witness_script_swap :
    (svc.sched.slot < 15 ∧ NoQueue svc ∧ 15 ≤ { svc with sched.slot := 15 }.sched.slot) ∧
    (let s := { svc with chans := [(0, { pending := some image1 })] }
     (chan s 0).pending = some image1 ∧ chanQuiet s 0 = true ∧
       (scriptHdr image1 (chan s 0).hdr).mode = (chan s 0).hdr.mode ∧
       (scriptHdr image1 (chan s 0).hdr).rate = (chan s 0).hdr.rate ∧
       (scriptHdr image2 (chan s 0).hdr).rate ≠ (chan s 0).hdr.rate) ∧
    chanQuiet { erasing with chans := [(0, { pending := some image1 })] } 0 = false := by decide +kernel

/-- RewritesPatrolAndProbation: a rewrite at each step, a switch that waits, a folded facet, the probation phases. -/
def rew (step : Nat) (spare : Option Nat) : Rewrite :=
  { block := 8, row := 8, zone := 0, facet := 0, urgent := false, cause := 0, step := step, spare := spare }
def withRew (r : Rewrite) : State := { svc with pins.wpLow := false, sched.eraseBudget := 16, sched.slcBudget := 64
                                                sched.qlcBudget := 64, dies := [(0, { rewrites := [r] })] }
theorem witness_rewrites :
    (∀ r ∈ [rew 0 none, rew 1 (some 4100), rew 2 (some 4100), rew 3 (some 4100), rew 4 (some 4100)],
      currentRewrite (die (withRew r) 0) = some r ∧ (withRew r).power.hold = .running ∧ dieOut (withRew r) 0 = false) ∧
    ((rew 0 none).cause ≠ 2 ∧ (spareBlock (withRew (rew 0 none)) 0).isSome = true ∧
      (stepErase (withRew (rew 0 none)) 0).isSome = true) ∧
    (let s := odSet (withRew { rew 0 none with cause := 2 }) 0x4010 0x05 0 10000
     spares s 0 ≤ od s 0x4010 0x05) ∧
    (let s := { withRew (rew 1 (some 4100)) with zones := [(0, { folds := [(0, { done := [0] })] })] }
     (rewriteParts s 0 (rew 1 (some 4100))).find? (fun w => decide (0 ≤ w)) = some 0 ∧
       (stepProgram s 0 1 (rewriteQlc s (rew 1 (some 4100))) (rewriteSingle s (rew 1 (some 4100)))).isSome = true) ∧
    (∀ w ∈ rewriteParts svc 0 (rew 1 (some 4100)), w < 0) ∧
    ((die (withRew (rew 2 (some 4100))) 0).reading = [] ∧
      ((die (withRew (rew 2 (some 4100))) 0).rowMap.map Prod.fst).Pairwise (· < ·)) ∧
    (stepErase (withRew (rew 4 (some 4100))) 0).isSome = true := by decide +kernel
theorem witness_patrol :
    (let s := { svc with dies := [(0, { switching := [rew 2 (some 4100)] })] }
     (die s 0).switching = [rew 2 (some 4100)] ∧ (rew 2 (some 4100)).spare = some 4100) ∧
    (let s := { svc with zones := [(0, { folds := [(0, { done := [0] })] })] }
     (kvGet {} 0 (zone s 0).folds).done.contains 0 = true ∧ dieOut s (facetDie (groupOf 0) 0) = false ∧
       shareLeft s (facetDie (groupOf 0) 0) 5 false = true ∧ kvWf 0 s.health.patrol ∧ 8 ≤ rowOf 0 ∧
       rowOf 0 < 8 + zoneRows s) ∧
    (∀ p ∈ [1, 2, 3], let s := { svc with dies := [(0, { service := 2, phase := p, cleanFrames := 2 })] }
      kvWf {} s.dies ∧ (die s 0).phase = p) ∧
    (let s := { svc with dies := [(0, { service := 2, phase := 3, cleanFrames := 2 })] }
     facetsLeft s 0 = []) ∧
    (let s := { svc with dies := [(0, { service := 2, phase := 3 })], zones := [(0, { folds := [(0, { done := [0] })] })] }
     (die s 0).phase = 3 ∧ groupOf 0 = dieGroup 0 ∧ (zone s 0).eraseLeft.contains (dieFacet 0) = false ∧
       facetNext s 0 = some 0 ∧ shareLeft s 0 5 false = true ∧ absentOn s 0 (dieFacet 0) = [] ∧
       (zone s 0).folds.all (fun e => !e.2.absent.contains (dieFacet 0)) = true ∧ 0 < od s 0x4010 0x02) := by
  decide +kernel

/-- BackgroundCopies: a full pool row with one unit mapped and with none, a rotation with only a conventional unit left. -/
def gcNs (units : Kv UnitSt) : Ns := { cns with units := units, fill := [(0, cns.rowUnits)] }
def rotNs : Ns := { cns with
  gen := 2, units := [(3, { loc := .pool 3, keyGen := 1 })]
  rot := some { oldGen := 1, newGen := 2, oldSalt := 0, switchAsn := 1, left := [], pages := [] } }
theorem witness_copies :
    (let n := { gcNs [(3, { loc := .pool 3 })] with poolRows := [0, 8], handles := [(512, 9)] }
     let s := { svc with nss := [n], pins.wpLow := false, sched.qlcBudget := 64, sched.slcBudget := 64 }
     ns? s 2 = some n ∧ s.power.hold = .running ∧ n.zoned = false ∧ gcVictim n 0 = some 0 ∧ rowUnitsMapped n 0 = [3] ∧
       (moveProgram s n 512).isSome = true ∧ (kvGet {} 3 n.units).loc = .pool 3 ∧
       kvGet 0 512 (ensureHandle s n 512).handles = 8 + 1 ∧ kvWf {} n.units ∧ kvWf 0 n.fill) ∧
    (gcVictim (gcNs []) 0 = some 0 ∧ rowUnitsMapped (gcNs []) 0 = []) ∧
    (let n := { rotNs with poolRows := [0, 8], handles := [(512, 9)] }
     let e : UnitSt := { loc := .pool 3, keyGen := 1 }
     let s := { svc with nss := [n], pins.wpLow := false, sched.qlcBudget := 64, sched.slcBudget := 64 }
     ns? s 2 = some n ∧ (oldZones s n 1).filter (rotatable s) = [] ∧ oldUnit n 1 = some (3, e) ∧
       (moveProgram s n (512 + e.handle / 64)).isSome = true ∧ e.loc = .pool 3 ∧
       kvGet 0 (512 + e.handle / 64) (ensureHandle s n (512 + e.handle / 64)).handles = 8 + 1 ∧ kvWf {} n.units) ∧
    (let n := { rotNs with units := [] }
     let s := { svc with nss := [n] }
     oldUnit n 1 = none ∧ oldZones s n 1 = [] ∧ ∀ e ∈ n.units, e.2.keyGen ≠ 1) ∧
    (rotationBusy svc 1 = false ∧ zns.gen < 255 ∧ pairRole svc = 0 ∧
      rotationBusy { svc with nss := [{ zns with gen := 255 }] } 1 = false) := by
  refine ⟨?_, ?_, ?_, ?_, ?_⟩ <;> decide +kernel

/-- BackgroundCopies: a rotation with a folded zone of the old generation. -/
def foldedZone : Zone :=
  { st := .full, keyGen := 1, folds := (List.range 256).map fun w => (w, { committed := true }) }
theorem witness_rotation_zone :
    let n := { zns with gen := 2, rot := some { oldGen := 1, newGen := 2, oldSalt := 0, switchAsn := 1, left := [0], pages := [] } }
    let s := { svc with nss := [n], zones := [(0, foldedZone)], pins.wpLow := false, sched.eraseBudget := 64, sched.slot := 15
                        sched.qlcBudget := 8192, sched.slcBudget := 8192 }
    ns? s 1 = some n ∧ s.power.hold = .running ∧ n.rot.isSome = true ∧
      ((oldZones s n 1).filter (rotatable s)).min? = some 0 ∧
      (∀ d ∈ groupDies (groupOf 0), (die s d).service = 0 → od s 0x4010 0x05 < spares s d) ∧
      (relocateGrants s 0).isSome = true ∧ kvWf {} s.zones := by
  refine ⟨?_, ?_, ?_, ?_, ?_, ?_, ?_⟩ <;> decide +kernel

/-- A hold-up image that is not sealed. -/
def image : Image := { seq := 1, area := 0, nextAsn := 1, sealedHead := 0, lsn := 1, epoch := 0, units := [], conv := []
                       convSeq := 1, sealed := false }

/-- PowerLossAndHoldUp: PLN# low while running, the lost state, hold-up unarmed and armed, a drained image, a sealed one. -/
theorem witness_power_loss :
    (let s := { svc with power.plnLow := true, power.armed := true }
     s.power.plnLow = true ∧ s.power.hold = .running ∧ s.power.armed = true) ∧ svc.power.armed = false ∧
    { svc with power.hold := .lost }.power.hold = .lost ∧
    (let s := { svc with power.hold := .holdup }
     programming s = false ∧ s.power.hold = .holdup) ∧
    (let s := { svc with power.hold := .flush, power.images := [image], power.imageSeq := 1 }
     s.power.hold = .flush ∧ image ∈ s.power.images ∧ image.seq = s.power.imageSeq ∧ image.sealed = false) ∧
    (let s := { svc with power.hold := .flush, power.images := [{ image with sealed := true }], power.imageSeq := 1 }
     s.power.hold = .flush ∧ ∀ i ∈ s.power.images, i.seq = s.power.imageSeq → i.sealed = true) ∧
    programming { svc with dies := [(0, { st := .programming })] } = true ∧
    { svc with power.hold := .written }.power.hold = .written := by
  refine ⟨?_, ?_, ?_, ?_, ?_, ?_, ?_, ?_⟩ <;> decide

/-- ShutdownAndRestartScan. -/
theorem witness_shutdown :
    (kvWf {} svc.host.fns ∧ inService svc = true ∧ (fnc svc 0).en = true) ∧
    (let s := { svc with power.shutdown := 1 }
     s.power.shutdown = 1 ∧ drained s = true) ∧
    drained { svc with host.cmds := [writing] } = false ∧
    (let s := { svc with power.inUse := true }
     s.power.inUse = true ∧ s.power.reload = [] ∧ s.power.hold = .running ∧ s.rst.life = .service) := by
  refine ⟨?_, ?_, ?_, ?_⟩ <;> decide
theorem witness_scan :
    (∀ m ∈ [true, false], let s := { State.reset with rst.life := .stage3, rst.maintain := m }
      s.rst.life = .stage3 ∧ s.rst.scanStep = 0 ∧ s.rst.unclean = false ∧ (s.dict.od.map Prod.fst).Pairwise (· < ·) ∧
        s.rst.maintain = m ∧ bootSel s ≠ 1 ∧ pairRole s = 0) ∧
    (let s := odSet { State.reset with rst.life := .stage3 } 0x5000 0x01 0 1
     s.rst.life = .stage3 ∧ s.rst.scanStep = 0 ∧ s.rst.unclean = false ∧ (s.dict.od.map Prod.fst).Pairwise (· < ·) ∧
       s.rst.maintain = false ∧ bootSel s ≠ 1 ∧ pairRole s ≠ 0) ∧ svc.rst.life ≠ .stage3 := by
  refine ⟨?_, ?_, ?_⟩ <;> decide

/-- A twin of pair role r in phase p, its link up and in session. -/
def twin (r p : Nat) : State :=
  let s := odSet (odSet svc 0x5000 0x01 0 r) 0x5000 0x03 0 p
  { s with pair.linkUp := true, pair.session := true, pair.rxSeq := 4, pair.txSeq := 9 }
/-- A frame of the current epoch with the next sequence number, an old one, and one of an old epoch. -/
def hdr : FrameHdr := { epoch := 0, seq := 5 }

/-- MirrorLinkHealth. -/
theorem witness_link_health :
    (svc.pair.linkUp = false ∧ svc.pair.session = false ∧ svc.pair.missed < 10 ∧ svc.pair.hbIn = false) ∧
    ((twin 1 4).pair.linkUp = true ∧ (twin 1 4).pair.session = true ∧ (twin 1 4).casc.members = []) ∧
    (let s := { twin 1 4 with pair.missed := 10 }
     s.pair.linkUp = true ∧ 10 ≤ s.pair.missed) ∧
    (let s := { twin 2 4 with pair.waiting := true }
     s.pair.waiting = true ∧ s.pair.hbIn = false ∧ s.pair.bootWait = false) ∧
    (let s := { svc with pair.bootWait := true, pair.hbInWait := true }
     s.pair.bootWait = true ∧ s.pair.fenced = false ∧ s.pair.linkUp = false ∧ s.pair.hbInWait = true ∧ pairRole s ≠ 2 ∧
       pairRole (odSet s 0x5000 0x01 0 2) = 2) ∧
    ((twin 1 4).host.sanitizeStatus ≠ 2 ∧ { twin 1 4 with pair.retraining := true }.pair.retraining = true) ∧
    (let s := { odSet (twin 1 4) 0x5000 0x04 0 (Config.serial + 1) with pair.txSeq := 2 ^ 32 }
     s.pair.keyUpdates < Nat.max s.pair.txSeq s.pair.rxSeq / 2 ^ 32) ∧
    Nat.max (twin 1 4).pair.txSeq (twin 1 4).pair.rxSeq < 2 ^ 32 ∧
    (mayAttach svc = true ∧ svc.rst.logicFailed.testBit 29 = false ∧ casPos svc = 0 ∧ od svc 0x5000 0x05 = 0 ∧
      { svc with pair.detached := true }.pair.detached = true) := by
  refine ⟨?_, ?_, ?_, ?_, ?_, ?_, ?_, ?_, ?_⟩ <;> decide
theorem witness_key_update_serial :
    Config.serial < od { odSet (twin 1 4) 0x5000 0x04 0 (Config.serial + 1) with pair.txSeq := 2 ^ 32 } 0x5000 0x04 := by
  have h : od { odSet (twin 1 4) 0x5000 0x04 0 (Config.serial + 1) with pair.txSeq := 2 ^ 32 } 0x5000 0x04 =
      Config.serial + 1 :=
    kvGet_put_self _ _ _ _ (by decide : kvWf (odDflt 0x5000 0x04 0) (twin 1 4).dict.od)
  omega

/-- StaleFramesAreDropped, PairControlFrames. -/
theorem witness_frames :
    (let s := odSet (twin 1 4) 0x5000 0x02 0 3
     s.pair.linkUp = true ∧ s.pair.session = true ∧ hdr.epoch < pairEpoch s) ∧
    (pairEpoch (twin 1 4) ≤ hdr.epoch ∧ 4 ≤ (twin 1 4).pair.rxSeq) ∧ svc.pair.session = false ∧
    (∀ r ∈ [0, 1, 2], ∀ p ∈ [1, 4], Received (twin r p) hdr ∧ pairRole (twin r p) = r ∧ pairPhase (twin r p) = p ∧
      hdr.epoch = pairEpoch (twin r p)) ∧
    ((twin 1 1).adm.preserve = false ∧ (twin 1 1).adm.due.contains (.preserve 3) = false ∧
      ns? (twin 2 4) 1 = some zns ∧ joined (twin 1 4) = true) ∧
    ((twin 1 1).pair.promoted = false ∧ (twin 1 1).pair.newTwin = false ∧ (twin 1 1).adm.floor ≤ Nat.min 0 0 + 1 ∧
      (twin 1 1).adm.recs = [] ∧ (twin 1 2).pair.detaching = false ∧ (twin 1 2).pair.handing = false ∧
      Received (twin 1 2) hdr ∧ pairPhase (twin 1 2) = 2 ∧ (twin 2 4).pair.switches = [] ∧
      (twin 2 4).adm.nextAsn < 5 ∧ 1 ≤ (twin 2 4).adm.nextAsn) ∧
    (let k := { arrived with asns := [4] }
     let s := { twin 1 4 with host.cmds := [k] }
     k ∈ s.host.cmds ∧ 4 ∈ k.asns ∧ k.acked = false ∧ pairRole s = 1 ∧ joined s = true) := by
  refine ⟨?_, ?_, ?_, ?_, ?_, ?_, ?_⟩ <;> decide

/-- PairDataFramesAndResync. -/
def ordering : Cmd := { writing with stage := .order }
theorem witness_data_frames :
    (Received (twin 1 2) hdr ∧ pairRole (twin 1 2) = 1 ∧ 2 ≤ pairPhase (twin 1 2) ∧ ns? (twin 1 2) 1 = some zns) ∧
    (Received (twin 2 2) hdr ∧ pairRole (twin 2 2) = 2 ∧ 2 ≤ pairPhase (twin 2 2) ∧ (twin 2 2).adm.nextAsn < 2 ∧
      (twin 2 2).pair.handing = false ∧ (twin 2 2).pair.detaching = false ∧
      od (twin 2 2) 0x5000 0x08 ≤ (twin 2 2).adm.nextAsn) ∧
    (let s := { twin 2 4 with host.cmds := [ordering] }
     Received s hdr ∧ pairRole s = 2 ∧
       s.host.cmds.find? (fun k => k.id == 1 && k.stage == .order) = some ordering) ∧
    (Machine.SramPath.bad ⟨.uncorrectable .other, .clean⟩ = true ∧
      (let s := { twin 1 4 with reads := [{ unit0 with mode := .twin }] }
       rdUnit? s 1 0 = some { unit0 with mode := .twin }) ∧
      (let k := { writing with op := .read, stage := .forwarded }
       let s := { twin 1 4 with host.cmds := [k] }
       rdUnit? s 1 0 = none ∧ cmd? s 1 = some k ∧ k.stage = .forwarded) ∧
      (let k := { writing with op := .read, stage := .reading }
       let s := { twin 1 4 with host.cmds := [k] }
       rdUnit? s 1 0 = none ∧ cmd? s 1 = some k ∧ k.stage ≠ .forwarded ∧ otherGen s 0 0 9 = true) ∧
      nsOfZone (twin 1 4) 0 = some zns) ∧
    (let s := { twin 2 4 with host.cmds := [writing] }
     casPos s = 0 ∧ dataCmd s 4 0 0 = some writing ∧ ns? s writing.io.nsid = some zns) ∧
    (let s := { twin 1 3 with zones := [(5, { marked := some 0 }), (9, { marked := some 3 })] }
     pairPhase s = 3 ∧ s.pair.linkUp = true ∧ (markedZones s).min? = some 5 ∧ pairRole s = 1) ∧
    (let s := { twin 2 3 with zones := [(0, { marked := some 0, units := [(2, {})] })] }
     pairPhase s = 3 ∧ s.pair.linkUp = true ∧ (markedZones s).min? = some 0 ∧ pairRole s = 2) ∧
    (let s := { twin 1 3 with pair.regions := [(2, 0)] }
     pairPhase s = 3 ∧ s.pair.linkUp = true ∧ markedZones s = [] ∧ s.pair.regions = (2, 0) :: []) ∧
    (pairRole (twin 2 3) = 2 ∧ pairPhase (twin 2 3) = 3 ∧ markedZones (twin 2 3) = [] ∧ (twin 2 3).pair.regions = []) := by
  refine ⟨?_, ?_, ?_, ?_, ?_, ?_, ?_, ?_, ?_⟩ <;> decide +kernel
theorem witness_lacking_units :
    (let s := { twin 2 3 with zones := [(0, { marked := some 0, units := [(2, { pending := true })] })] }
     pendingUnits s 0 ≠ []) ∧ pendingUnits { twin 2 3 with zones := [(0, { marked := some 0 })] } 0 = [] := by decide

/-- CascadeMembers: a member with its link to the master, a master with a forwarded command, a member on probation. -/
def forwarded : Cmd := { id := 1, op := .zoneAppend, io := io 0 9 0 8, stage := .forwarded }
theorem witness_cascade :
    (svc.pair.linkUp = false ∧ (twin 1 4).pair.linkUp = true) ∧
    (let s := { svc with rst.straps := 2, casc.members := [(1, { linkUp := true, rxSeq := 4 })] }
     casPos s ≠ 0 ∧ (member s 1).linkUp = true ∧ (member s 1).rxSeq < hdr.seq ∧ inService s = true ∧
       ns? s 1 = some zns ∧ zns.zoned = true) ∧
    (let k := { forwarded with op := .write }
     let s := { svc with casc.members := [(1, { linkUp := true, sent := [(6, 1)] })], host.cmds := [k] }
     kvWf {} s.casc.members ∧ (member s 1).sent = [(6, 1)] ∧ (member s 1).sent.find? (fun e => e.1 == 7) = none ∧
       cmd? s 1 = some k ∧ k.op = .write ∧ k.stage = .forwarded ∧ k.io.selectAll = false ∧ k.status = 0 ∧
       ns? s k.io.nsid = none ∧ ∀ e ∈ s.casc.members, e.1 ≠ 1 → ∀ y ∈ e.2.sent, y.2 ≠ k.id) ∧
    (let s := { odSet svc 0x5110 0x01 1 1 with casc.members := [(1, { linkUp := true })] }
     casPos s = 0 ∧ od s 0x5110 0x01 1 = 1 ∧ (member s 1).linkUp = true) := by
  refine ⟨?_, ?_, ?_, ?_⟩ <;> decide

/-- LensLifeCycle: lens 1 offline with resources, online, on probation, and above NumVFs. -/
def lensIn (l : LensSt) : State := { svc with
  host.fns := [(0, fn0), (1, { fn1 with lens := l, vq := 2, vi := 2 })], host.numVfs := 1 }
theorem witness_lenses :
    kvWf {} svc.host.fns ∧ AdminServed (lensIn .offline) pf ∧
    (∀ e ∈ (lensIn .disabled).host.fns, e.1 ≤ 0 ∨ e.2.lens = .disabled) ∧
    ((lensIn .online).host.fns.map (·.1)).filter (fun m => decide (0 < m) && (fnc (lensIn .online) m).lens != .disabled) =
      [1] ∧
    (let s := lensIn .offline
     tdLocked (fnc s 1) = false ∧ (fnc s 1).lens = .offline ∧ (fnc s 1).vq ≠ 0 ∧ (fnc s 1).vi ≠ 0 ∧
       od (odSet s 0x6210 0x02 1 1) 0x6210 0x02 1 ≠ 0 ∧ 256 ≤ s.host.freeVq + (fnc s 1).vq ∧
       257 ≤ s.host.freeVi + (fnc s 1).vi) ∧
    (AdminServed (lensIn .online) pf ∧ (fnc (lensIn .online) 1).lens = .online) ∧
    (let s := lensIn .probation
     (fnc s 1).lens = .probation ∧ (fnc s 1).genWait = none ∧ (∀ k ∈ s.host.cmds, k.origin = 0 → k.io.fn ≠ 1) ∧
       (∀ g ∈ s.host.granted, g.io.fn ≠ 1) ∧ probationCheck s 1 0 = 0) := by
  refine ⟨?_, ?_, ?_, ?_, ?_, ?_, ?_⟩ <;> decide

/-- ControllerResetsAndWriteLog. -/
theorem witness_controllers :
    ((fnc (lensIn .online) 1).lens = .online ∧ tdLocked (fnc (lensIn .online) 1) = false ∧
      (fnc (lensIn .online) 1).en = true ∧ (fnc svc 0).en = true) ∧
    tdLocked { fn1 with tdisp := .run } = true ∧
    (let s := { svc with host.fns := [(1, { lens := .online })] }
     (fnc s 0).en = false ∧ (fnc s 1).en = false ∧ (fnc s 1).lens = .online ∧ s.power.shutdown ≠ 2) ∧
    (let s := odSet svc 0x6300 0x01 1 1
     od s 0x6300 0x01 1 = 1 ∧ (fnc s 1).swapping = false) ∧ od svc 0x6300 0x01 1 ≠ 1 ∧
    (∀ b ∈ [0, 1], let s := { svc with host.fns := [(1, { fn1 with swapping := true, logActive := b })] }
      (fnc s 1).swapping = true ∧ (fnc s 1).logActive = b) := by
  refine ⟨?_, ?_, ?_, ?_, ?_, ?_⟩ <;> decide

/-- DeviceInterfaces: the states of R369. -/
theorem witness_tdisp :
    ∀ t ∈ [Tdisp.unlocked, .locked, .run, .error],
      let s := { svc with ciph.sessions := [3], host.fns := [(1, { fn1 with tdisp := t, lens := .offline })] }
      s.rst.life = .service ∧ 3 ∈ s.ciph.sessions ∧ (fnc s 1).lens ≠ .disabled ∧ (fnc s 1).lens = .offline ∧
        (fnc s 1).tdisp = t ∧ od s 0x6300 0x01 1 ≠ 1 := by decide

/-- A message of a link page, and one of lens 1's page under the key of the zoned namespace. -/
def linkReq (page : Nat) : CipherReq := { page := page, id := 0, blocks := 4, decrypt := true, nsid := 0, gen := 0, kind := 0x10 }
def hostReq (gen : Nat) : CipherReq := { page := 1, id := 0, blocks := 256, decrypt := true, nsid := 1, gen := gen, kind := 0 }
theorem witness_cipher :
    (∀ p ∈ [513, 520], cipherPick (runLanes svc 1) [linkReq p] = some (linkReq p, false) ∧ 512 < p ∧ p ≤ 520) ∧
    (let s := { svc with ciph.root := some 9, ciph.cache := [(1, [(1, zns.gen)])] }
     cipherPick (runLanes s 1) [hostReq zns.gen] = some (hostReq zns.gen, false) ∧ s.ciph.root.isSome = true ∧
       holdsKey (runLanes s 1) (hostReq zns.gen) = true) ∧
    (let s := { svc with ciph.root := some 9 }
     cipherPick (runLanes s 1) [hostReq zns.gen] = some (hostReq zns.gen, false) ∧ mayDerive (runLanes s 1) (hostReq zns.gen) = true ∧
       holdsKey (runLanes s 1) (hostReq zns.gen) = false ∧ cipherPick (runLanes s 1) [hostReq 77] = some (hostReq 77, false) ∧
       holdsKey (runLanes s 1) (hostReq 77) = false ∧ mayDerive (runLanes s 1) (hostReq 77) = false) ∧
    (cipherPick (runLanes svc 1) [hostReq zns.gen] = some (hostReq zns.gen, false) ∧ svc.ciph.root = none) ∧
    cipherPick (runLanes svc 1) [] = none ∧ 3 ∈ { svc with ciph.badLanes := [3] }.ciph.badLanes ∧
    (lanesUp svc).find? (fun l => (Machine.lane svc l).run.isNone) = some 0 := by
  refine ⟨?_, ?_, ?_, ?_, ?_, ?_, ?_⟩ <;> decide
theorem witness_alarm :
    (svc.rst.life = .service ∧ pairRole (alarmLenses (alarmWork (eraseKeys svc))) = 0) ∧
    (let s := { twin 1 4 with pair.ana := 1, ciph.erased := true }
     s.rst.life = .service ∧ pairRole s ≠ 0 ∧ s.pair.ana ≠ 3) ∧
    (let s := { twin 1 4 with pair.ana := 3, ciph.erased := true }
     pairRole s ≠ 0 ∧ s.ciph.erased = true ∧ s.pair.linkUp = true ∧ s.pair.ana = 3) ∧ pairRole svc = 0 := by
  refine ⟨?_, ?_, ?_, ?_⟩ <;> decide

/-- FirmwareCommits: an image at the highest version, slot 0 for the inactive slot, and a stored image. -/
def newImage : ImageFacts :=
  { formatOk := true, signatureOk := true, keySlot := 0, secVersion := 63, digest := 1, asksRaise := false }
theorem witness_firmware :
    AdminServed svc pf ∧ fwSlotIndex svc 0 = some 1 ∧ fwSlotIndex svc 2 = some 1 ∧ imageStatus svc newImage = none ∧
    (imageStatus svc { newImage with formatOk := false }).isSome = true ∧ storedStatus svc 1 = none ∧
    (storedStatus { svc with ciph.otpMin := 9 } 1).isSome = true ∧ svc.ciph.otpMin < 63 := by
  refine ⟨?_, ?_, ?_, ?_, ?_, ?_, ?_, ?_⟩ <;> decide

/-- SpdmAnswers: a session on the DOE mailbox, a chain in slot 1, a boot record. -/
def bootRec : BootRec := { flags := 0, sequence := 5, causes := 1, seconds := 0, secVersion := 0, epoch := 0, previous := 0
                           ms := [], signature := 0 }
def attested : State := { svc with ciph.slot1 := some 77, ciph.sessions := [3, 4, 5], ciph.records := [bootRec] }
theorem witness_spdm :
    spdmUp attested = true ∧ certChain attested 1 = some 77 ∧ attested.ciph.drbgOk = true ∧
    sessionsFull attested 0 = false ∧ (∀ b ∈ [3, 4, 5], b ∈ attested.ciph.sessions) ∧ recordOf attested 5 = some bootRec := by
  refine ⟨?_, ?_, ?_, ?_, ?_, ?_⟩ <;> decide

/-- LevelChangesAndPowerCap: a level to go to, each step of the change, the measurement's three conditions. -/
theorem witness_levels :
    (let s := { svc with pwr.level := 2 }
     s.pwr.step = .idle ∧ levelChoice s ≠ s.pwr.level ∧ s.pwr.sleep = 0) ∧
    levelChoice svc = svc.pwr.level ∧
    (∀ p ∈ [PStep.voltage, .bias], { svc with pwr.step := p }.pwr.step = p) ∧
    (svc.pwr.pcapCond = 0 ∧ { svc with pwr.pcapCond := 1 }.pwr.pcapGood = 0 ∧
      16 ≤ { svc with pwr.pcapCond := 2, pwr.pcapGood := 16 }.pwr.pcapGood ∧ svc.pwr.pcapGood < 16) := by
  refine ⟨?_, ?_, ?_, ?_⟩ <;> decide

/-- SleepAndWake: an idle device, a request of each level, an entry, and each sleep state. -/
theorem witness_sleep :
    (od (odSet svc 0x8010 0x04 0 5) 0x8010 0x04 ≠ 0 ∧ hostBusy svc = false ∧ dieActive svc = false ∧
      backgroundRuns svc = false) ∧
    (AdminServed svc pf ∧ svc.pwr.ps < 3) ∧ (∀ l ≤ 3, sleepRefused { svc with host.d3hot := true } l = none) ∧
    (sleepRefused { svc with host.cmds := [writing] } 1).isSome = true ∧
    (let s := { svc with pwr.idleReq := 1, pwr.retryDue := true }
     hostBusy s = false ∧ dieActive s = false ∧ s.pwr.sleep < sleepAim s ∧ s.pwr.entering = none ∧
       s.power.hold = .running ∧ s.rst.life = .service ∧ sleepAim s ≠ 3 ∧ s.pwr.retryDue = true) ∧
    (∀ h ∈ [0, 2], let s := { odSet svc 0x8010 0x03 0 3 with pwr.mgmtReq := 3, host.d3hot := true, power.shutdown := h }
      hostBusy s = false ∧ dieActive s = false ∧ s.pwr.sleep < 3 ∧ s.pwr.entering = none ∧ sleepAim s = 3) ∧
    (let s := { svc with pwr.idleReq := 1, host.cmds := [writing] }
     hostBusy s = true ∧ sleepAim { s with pwr.idleReq := 0 } ≤ s.pwr.sleep) ∧
    (let s := { svc with pwr.entering := some 1, pwr.asked := 1 }
     s.pwr.entering = some 1 ∧ mustRefuse s 1 = false ∧ (nextBlock 1 1).isSome = true ∧ neverRefuses s 1 = false) ∧
    (let s := { svc with pwr.entering := some 3, pwr.asked := 9, host.d3hot := true }
     mustRefuse s 9 = false ∧ nextBlock 3 9 = none) ∧
    (∀ l ∈ [1, 2, 3], { svc with pwr.sleep := l }.pwr.sleep = l ∧ svc.rst.rtcStopped = false) ∧
    (wakesFrom 1 1 = true ∧ wakesFrom 5 2 = true ∧ wakesFrom 4 3 = true ∧ wakesFrom 1 2 = false ∧ wakesFrom 2 3 = true) := by
  refine ⟨?_, ?_, ?_, ?_, ?_, ?_, ?_, ?_, ?_, ?_, ?_⟩ <;> decide

/-- MeasurementsAndHeat: limits met and passed by 1 m°C. -/
theorem witness_heat :
    (let c := milliC (od svc 0x8300 0x02)
     { svc with pwr.composite := c - 3000 }.pwr.composite + 3000 ≤ milliC (od svc 0x8300 0x02) ∧
       milliC (od svc 0x8300 0x02) < { svc with pwr.composite := c - 2999 }.pwr.composite + 3000) ∧
    pastTrip { svc with pwr.dieMax := milliC (od svc 0x8300 0x03) } 0 = false ∧
    pastTrip { svc with pwr.dieMax := milliC (od svc 0x8300 0x03) + 1 } 0 = true ∧
    [(25000 : Int), 31000].max? = some 31000 := by
  refine ⟨?_, ?_, ?_, ?_⟩ <;> decide

/-- LoopInstructions and the shift of OpenResultsAreFree: engine 0 before each word, at the last count that may run. -/
def engined (e : Engine) : State := { svc with loop.e0 := { e with running := true, count := 4095 } }
def lword (op rest : Nat) : Word32 := BitVec.ofNat 32 (op * 2 ^ 27 + rest)
theorem witness_loop :
    (∀ op ≤ 0x10, LoopReady (engined {}) 0 op (lword op 0)) ∧ (∀ p ∈ [2, 3], LoopReady (engined { phase := p }) 0 0x1F (lword 0x1F 0)) ∧
    (∀ p ∈ [(0xF0, -16), (0xFF, -1), (0, 0), (15, 15), (0xEF, -17), (16, 16)],
      lwXs (lword 7 p.1) = p.2 ∧ LoopReady (engined {}) 0 7 (lword 7 p.1)) ∧
    (lwM (lword 8 (0x20 * 2 ^ 16)) = 0x20 ∧ lwM (lword 8 (0x1F * 2 ^ 16)) < 0x20 ∧
      ∀ op ∈ [0x08, 0x0A, 0x0B, 0x0C, 0x0D, 0x10], LoopReady (engined {}) 0 op (lword op (0x20 * 2 ^ 16))) ∧
    (LoopReady (engined {}) 0 0x0D (lword 0x0D (0x1F * 2 ^ 16))) ∧
    (loopCond (eng (engined {}) 0) 0 (lwN (lword 0x0F 255)) = some true ∧ lwX (lword 0x0F 255) < loopLen (eng (engined {}) 0) ∧
      loopLen (eng (engined { code := [0] }) 0) ≤ lwX (lword 0x0F 1) ∧
      loopCond (eng (engined {}) 0) 0 (lwN (lword 0x0F (1 * 2 ^ 8))) = some false) := by
  refine ⟨?_, ?_, ?_, ?_, ?_, ?_⟩ <;> decide

/-- LoopControl: a fixed set-point, the phases of a returned engine; an image is acceptable once its key and its signature
are accepted. -/
theorem witness_loop_control :
    loopUp State.reset = false ∧
    (let s := { svc with loop.mode := 0 }
     loopUp s = true ∧ s.loop.mode = 0 ∧ (eng s 0).running = false ∧ (eng s 1).running = false ∧
       s.loop.e1.image = none) ∧
    (∀ p ∈ [2, 3], let s := { svc with loop.mode := 1, loop.e0.phase := p }
      loopUp s = true ∧ s.loop.mode = 1 ∧ (eng s 0).running = false ∧ (eng s 1).running = false ∧ (eng s 0).image = none ∧
        (eng s 1).image = none ∧ (eng s 0).phase = p) ∧
    (let s := { svc with loop.e0.running := true, loop.e0.count := 4096 }
     (eng s 0).running = true ∧ 4096 ≤ (eng s 0).count) ∧ loopImageOk svc 0 0 = false ∧
    (∀ p ∈ [4, 1], (eng { svc with loop.e1.phase := p } 1).phase = p) ∧
    (∀ c ∈ [1023, 1024], let s := { svc with loop.e1.phase := 2, loop.e1.shadow := c }
      (eng s 1).phase = 2 ∧ (eng s 1).shadow = c) := by
  refine ⟨?_, ?_, ?_, ?_, ?_, ?_, ?_⟩ <;> decide

/-- DramWriteReadsBack, DramReadsAndUpkeep: a request at the last codeword of the data space and one past it, in a block
that is initialised and in one that is not. -/
def lastCw : Nat := dramCapacity svc - 64
def dreq (a : Nat) (w : Option (List Byte)) : DramReq := { req := { cls := 1, port := 2, id := 3 }, address := a, write := w }
theorem witness_dram :
    (kvWf 0 svc.dram.mem ∧ (dchan svc 0).state < 2) ∧
    (∀ a ∈ [0, lastCw, lastCw + 64], ∀ w ∈ [none, some (List.replicate 64 7)],
      dramPick (dchan svc (dramLoc 1 a).chan) [dreq a w] = some (dreq a w, 1) ∧ a % 64 = 0 ∧
        (dramLoc svc.dram.ranks a).chan = (dramLoc 1 a).chan) ∧
    (lastCw < dramCapacity svc ∧ dramCapacity svc ≤ lastCw + 64) ∧
    (blockReady svc (lastCw / 65536) = false ∧
      blockReady { svc with dram.initOther := [lastCw / 65536] } (lastCw / 65536) = true) ∧
    ((dchan svc 0).promoted.contains 3 = false ∧ od (odSet svc 0x9000 0x05 0 1) 0x9000 0x05 ≠ 0 ∧
      (dchan svc 0).retrain = false ∧ svc.power.hold = .running ∧ (dchan svc 0).state = 0) := by
  refine ⟨?_, ?_, ?_, ?_, ?_⟩ <;> decide

/-- DramRetraining: a channel that is due, in each pause, and one that is lost. -/
theorem witness_retraining :
    kvWf {} svc.dram.chans ∧
    (∀ p ≤ 2, let s := { svc with dram.chans := [(0, { retrain := true, pauses := p })] }
      (dchan s 0).retrain = true ∧ (dchan s 0).state ≠ 3 ∧ s.power.hold = .running ∧ (dchan s 0).pauses = p ∧
        (dchan s 0).again = false) ∧
    (dchan { svc with dram.chans := [(0, { state := 3 })] } 0).state = 3 := by
  refine ⟨?_, ?_, ?_⟩ <;> decide

/-- BufferPools: a pool with two buffers, one out; a request of class 0 that waits. -/
def pool1 : Pool := { sram := { base := 4096, count := 2, fresh := 1, allocated := [(0, 2)] }
                      waiting := [{ cls := 0, port := 2, id := 3 }] }
def pooled : State := { svc with pools := [(1, pool1)] }
theorem witness_pools :
    poolPick (pool (poolWait pooled 1 []) 1) (pool (poolWait pooled 1 []) 1).waiting =
      some { cls := 0, port := 2, id := 3 } ∧
    poolPick (pool (poolWait svc 1 []) 1) (pool (poolWait svc 1 []) 1).waiting = none ∧
    (bufferAt (pool pooled 1) 1 4096 = some (0, 0) ∧ kvGet 0 0 ((pool pooled 1).tier 0).allocated ≠ 0 ∧
      ((pool pooled 1).tier 0).toRemove = []) ∧ bufferAt (pool pooled 1) 1 4095 = none ∧
    (((pool { svc with pools := [(1, { sram.rebuilding := true })] } 1).tier 0).rebuilding = true ∧
      ((pool svc 1).tier 0).rebuilding = false) ∧
    ((pool pooled 1).waiting.contains { cls := 0, port := 2, id := 3 } = true ∧
      (pool svc 1).waiting.contains { cls := 0, port := 2, id := 3 } = false) := by
  refine ⟨?_, ?_, ?_, ?_, ?_, ?_⟩ <;> decide

/-- ManagementLinks. -/
theorem witness_management :
    mctpUp svc 2 = true ∧ mctpUp { svc with pins.i3cOn := true } 0 = true ∧ reaches svc (Requester.mgmt 2) = true ∧
    kvWf 0 svc.mgmt.addrs ∧ 0x61 ≠ staticAddress svc ∧ (svc.host.cfgServed = true ∧ State.reset.host.cfgServed = false) ∧
    ((chan svc 0).state = 0 ∧ svc.rst.life = .service) ∧
    (let s := { svc with chans := [(0, { state := 2 })] }
     (chan s 0).state = 2 ∧ chanQuiet s 0 = true) := by
  refine ⟨?_, ?_, ?_, ?_, ?_, ?_, ?_, ?_⟩ <;> decide

/-- ResetSources, ResetsEnd: the device in service with hold-up armed and not, held sources, a flush, a release, straps. -/
theorem witness_resets :
    (svc.rst.life ≠ .inReset ∧ Nat.land svc.rst.asserted 7 = 0 ∧ svc.power.hold = .running ∧ svc.power.armed = false ∧
      svc.rst.life = .service ∧ { svc with power.armed := true }.power.armed = true) ∧
    (svc.rst.recordDurable = false ∧ { svc with rst.recordDurable := true }.rst.recordDurable = true) ∧
    (svc.rst.cause.testBit 8 = false ∧ { svc with rst.life := .maintenance }.rst.life = .maintenance) ∧
    ((8 : Nat).testBit 3 = true ∧ (2 : Nat).testBit 1 = true ∧ (128 : Nat).testBit 7 = true ∧ (0 : Nat).testBit 3 = false) ∧
    (let s := { svc with power.hold := .flush, power.imageSeq := 1, power.images := [image] }
     s.power.hold = .flush ∧ flushWritten s = true) ∧
    (let s := { svc with rst.life := .inReset }
     s.rst.life = .inReset ∧ s.rst.asserted = 0 ∧ s.rst.testHold = false) ∧
    ((List.range 8).filter fun j => (128 : Nat).testBit j != svc.rst.straps.testBit j && !(od svc 0xB000 0x07).testBit j) =
      [7] := by
  refine ⟨?_, ?_, ?_, ?_, ?_, ?_, ?_⟩ <;> decide

/-- BootStages. -/
def facts : BootFacts :=
  { stage1Valid := true, ftlValid0 := true, ftlValid1 := false, ftlSecVersion0 := 0, ftlSecVersion1 := 0
    dramConfigOk := true, dramRate := 10667, dramRanks := 1, dramDensity := 32, needsRfm := false, quadMv := []
    pages := [], noScript := [], row0Valid := true, crystalOk := true, qspiQuad := true, badFzq := [], badDzq := []
    spareBytes := 4160, silent := [], stage1Digest := 0, ftlDigest := 0 }
theorem witness_boot :
    (State.reset.rst.life = .stage0 ∧ State.reset.rst.logicFailed = 0 ∧ State.reset.rst.bootFailures < 3 ∧
      State.reset.ciph.alarmResets < 3) ∧ slotBooted (readSlots State.reset facts) = some 0 ∧
    3 ≤ { State.reset with rst.bootFailures := 3 }.rst.bootFailures ∧
    (∀ l ∈ [Life.stage1, .stage2, .halt 1], { State.reset with rst.life := l }.rst.life = l) := by
  refine ⟨?_, ?_, ?_, ?_⟩ <;> decide

/-- BlockResetsAndSelfTest: each block idle and not, at its first and last number; a pass that runs at the first and the
last step of a decoder and of the rest. -/
theorem witness_blocks :
    (∀ i ∈ [0, 63], chanIdle svc i = true) ∧ chanIdle erasing 0 = false ∧
    (∀ i ∈ [0, 1], ∀ p ∈ [0, 4, 3], (eng { svc with loop.e0.phase := p, loop.e1.phase := p } i).phase = p) ∧
    ({ svc with pair.detached := true }.pair.detached = true ∧ pairPhase (twin 1 4) ≠ 0) ∧
    (∀ p ∈ [3, 2], od (odSet svc 0x5110 0x01 3 p) 0x5110 0x01 3 = p) ∧
    (let s := { svc with rst.life := .maintenance, rst.logicRunning := true }
     s.rst.life = .maintenance ∧ s.rst.logicRunning = true ∧ s.power.armed = false ∧ s.power.hold = .running) ∧
    (∀ n ∈ [96, 111, 126], let s := { svc with bist.running := true, bist.next := n }
      s.bist.running = true ∧ s.power.hold = .running ∧ 96 ≤ s.bist.next ∧ s.bist.next < 127) ∧
    (AdminServed svc pf ∧ svc.bist.selfTest = 0 ∧ svc.bist.running = false) ∧
    (15 ∈ { svc with ciph.badLanes := [15] }.ciph.badLanes ∧ 0 ∉ svc.ciph.badLanes ∧ svc.loupe.flushing = false) := by
  refine ⟨?_, ?_, ?_, ?_, ?_, ?_, ?_, ?_, ?_⟩ <;> decide
theorem witness_bist_signature (n : Nat) : ∃ sig, sig ≠ Config.goldenMemory n := ⟨Config.goldenMemory n + 1, by omega⟩

/-- LoupeRuns, FrozenLoupeKeepsSeverity7: an enabled periodic trigger; a frozen buffer with room and a full one. -/
theorem witness_loupe :
    (let s := odSet (odSet svc 0xA300 0x01 63 1) 0xA300 0x08 63 1
     od s 0xA300 0x01 63 = 1 ∧ od s 0xA300 0x08 63 ≠ 0 ∧ s.rst.life ≠ .inReset ∧ s.loupe.frozen = false ∧
       s.loupe.live.length < 2048) ∧ od svc 0xA300 0x01 0 ≠ 1 ∧
    (let s := { svc with loupe.frozen := true, loupe.live := [{ seq := 1, subject := 0, rule := 1, sev := 7 }] }
     s.loupe.frozen = true ∧ ∃ e ∈ s.loupe.live, e.sev ≤ 7) ∧
    { svc with loupe.flushing := true }.loupe.flushing = true := by
  refine ⟨?_, ?_, ⟨rfl, _, List.mem_singleton_self _, by decide⟩, ?_⟩ <;> decide

/-- svc with a prism table whose class 0 names prism group 2 alone. -/
def tabled : State := odSet svc 0x2210 0x01 0 (2 ^ 256 * 4)

/-- NamespacesComeAndGo: a create of a zoned namespace, an end of each kind with nothing in flight, attaches. -/
def endReq (d e k : Bool) (l : Nat) : NsEnd :=
  { cmd := 0, delete := d, lbaf := l, pit := 0, erase := e, newKey := k, salt := none }
theorem witness_namespaces :
    AdminServed svc pf ∧ pairRole svc = 0 ∧
    (let p := planCreate tabled (CreateReq.sized ⟨true, 262144, 0, 0, 1, 0, 1, 1, []⟩) true []
     p.1 = 0 ∧ ∀ e ∈ p.2.2, e.2.2 = 0) ∧
    { svc with adm.preserve := true }.adm.preserve = true ∧
    (ns? svc 1 = some zns ∧ ns? svc 9 = none ∧ svc.host.cmds = [] ∧ svc.pair.asked = [] ∧ zns.extents = [] ∧
      partsOut svc svc.host.nextId = false ∧
      (∀ d : Bool, ∀ b : Bool, ∀ k : Bool, ∀ l ≤ 4, endStatus svc zns (endReq d b k l) = 0)) ∧
    (attachStatus svc 3 [0] 0 = 0 ∧ detachStatus svc 1 0 = 0 ∧ attachStatus svc 3 [0, 1] 1 = 0 ∧ detachStatus svc 1 1 = 0) ∧
    { svc with nss := [] }.nss = [] := by
  refine ⟨?_, ?_, ?_, ?_, ?_, ?_, ?_⟩ <;> decide +kernel

/-- SanitizeAbortEventsAndLogs. -/
theorem witness_admin :
    AdminServed svc pf ∧ (∀ e : Bool, sanitizeRefused { svc with nss := [] } e = 0) ∧
    ((fnc svc 0).rd = none ∧ (fnc svc 0).wr = none ∧ svc.host.granted = [] ∧ svc.host.cmds = []) ∧
    ((fnc compete 0).rd = some (slotOf 0 1 0) ∧ (slotOf 0 1 0).io.sq = 1 ∧ (slotOf 0 1 0).io.cid = 7) ∧
    ((fnc { svc with host.fns := [(0, { fn0 with events := [(2, 5)] })] } 0).events = [(2, 5)] ∧ (fnc svc 0).events = []) ∧
    (svc.adm.floor ≤ 1 ∧ pairRole svc = 0 ∧ ∀ n ∈ svc.nss, n.extents = []) ∧
    ((fnc { svc with host.fns := [(0, { fn0 with aers := [(3, 0)] })] } 0).aers = [(3, 0)]) := by
  refine ⟨?_, ?_, ?_, ?_, ?_, ?_, ?_⟩ <;> decide

/-- DictionaryAndCommits: an element that every management endpoint reads and writes; a staged set; a commit. -/
def odq (obj elem inst : Nat) : OdReq := { obj := obj, elem := elem, inst := inst, target := 0, offset := 0, length := 0 }
theorem witness_dictionary :
    reaches svc (.mgmt 2) = true ∧
    ((odFind 0x9000 0x05).map (fun e => (mayRead (.mgmt 2) e 0, readPiece e (odq 0x9000 0x05 0))) = some (true, some (0, 4)) ∧
      odAddressIn svc 0x9000 0x05 0 = 0 ∧ readServed svc (.mgmt 2) 0x9000 = true) ∧
    (odFind 0x8010 0x02).map (fun e => mayRead .pf e 0) = some false ∧
    listBytes [.write (odq 0x9000 0x05 0) 1] ≤ 16384 ∧ accepts svc 0 = true := by
  refine ⟨?_, ?_, ?_, ?_, ?_⟩ <;> decide +kernel

/-- ReturnsAndPairControls. -/
theorem witness_returns :
    (∀ c ∈ [0, 3], let s := { svc with dies := [(0, { service := 1, phase := 0 })], chans := [(0, { state := c })] }
      s.rst.life = .service ∧ dieReturnStatus s 0 = 0 ∧ (die s 0).service = 1 ∧ (chan s (dieChan 0)).state = c ∧
        channelReturnStatus s 0 = 0) ∧
    (dieReturnStatus { svc with dies := [(0, { service := 1, phase := 2 })] } 0 ≠ 0 ∧
      channelReturnStatus { svc with dies := [(0, { service := 1, phase := 2 })] } 0 ≠ 0) ∧
    (pairPhase svc = 0 ∧ pairPhase (twin 1 4) ≠ 0 ∧ pairRole (twin 1 4) = 1 ∧ pairPhase (twin 1 4) = 4 ∧
      (twin 1 4).pair.handing = false ∧ pairRole (twin 2 4) = 2) ∧
    (let s := { odSet svc 0x5000 0x0B 0 1 with pair.fenced := true, pair.promoted := true }
     s.pair.fenced = true ∧ s.pair.promoted = true ∧ od s 0x5000 0x0B = 1 ∧ s.pair.linkUp = false) ∧
    (let s := { svc with pair.detached := true }
     s.pair.detached = true ∧ s.pair.bootWait = false) := by
  refine ⟨?_, ?_, ?_, ?_, ?_⟩ <;> decide

/-- Every command runs, DramStaysCanonical: a step of a state with a canonical DRAM. -/
theorem witness_step : kvWf 0 svc.dram.mem ∧ ∃ t, step { svc with pending := [.tokenRefill] } = .next t :=
  ⟨by decide, _, rfl⟩

/-- The commits: an empty set, an unsecured commit where security is required, a set of one saved value, a set answering. -/
def asks : CommitReq := { who := .mgmt 2, secured := false, a := none, twinSpares := 0 }
def saving : State := (stageWrite svc (.mgmt 2) { odq 0x9000 0x05 0 with length := 4 } 100 false).1
def outstanding : Answering :=
  { q := asks, status := 0, superseded := [], saved := [], waiting := [], epoch := 0, forwarded := false, count := 0
    rest := [] }
set_option maxRecDepth 20000 in
theorem witness_commits :
    ((commitOne svc asks).2.contract = 0 ∧ isPending (commitOne svc asks).2 = false ∧
      (commitOne svc asks).2.reset = false ∧ (commitOne svc asks).2.q = asks ∧ (staging svc (.mgmt 2)).entries = [] ∧
      mayCommit svc asks = true) ∧
    ((commitOne saving asks).2.contract = 0 ∧ (commitOne saving asks).2.status = 0 ∧
      isPending (commitOne saving asks).2 = true ∧ (commitOne saving asks).2.reset = false) ∧
    mayCommit (odSet svc 0xF030 0x03 0 1) asks = false ∧
    (mayAct svc (.mgmt 2) false = true ∧ mayAct (odSet svc 0xF030 0x03 0 1) (.mgmt 2) false = false) ∧
    (staging { svc with dict.sets := [{ who := .mgmt 2, answering := [outstanding] }] } (.mgmt 2)).answering =
      [outstanding] := by
  refine ⟨⟨?_, ?_, ?_, ?_, ?_, ?_⟩, ⟨?_, ?_, ?_, ?_⟩, ?_, ⟨?_, ?_⟩, ?_⟩ <;> decide +kernel
/-- The state a command leads to. -/
def after (c : Instr) (s : State) : State :=
  match exec c s with
  | .next t => t
  | _ => s

/-! WellFormed: for each check, a term that it refuses. -/

theorem test_wf_accepts : Instr.wf (.read (io 512 4096 0 1)) = true ∧ Instr.wf (.aluAdd 2047 0) = true := by decide
theorem test_wf_function : Instr.wf (.flr ⟨513, false⟩) = false ∧ Instr.wf (.read (io 513 1 0 1)) = false := by decide
theorem test_wf_no_block : Instr.wf (.read (io 0 1 0 0)) = false := by decide
theorem test_wf_queue : Instr.wf (.write { io 0 1 0 1 with sq := 8192 }) = false := by decide
theorem test_wf_lens : Instr.wf (.startInterface 0) = false ∧ Instr.wf (.startInterface 513) = false := by decide
theorem test_wf_nsid : Instr.wf (.keyRotationStart 0) = false ∧ Instr.wf (.keyRotationStart 4097) = false := by decide
theorem test_wf_die : Instr.wf (.nop 2048 0) = false ∧ Instr.wf (.dieEraseIssue 0 8192) = false := by decide
theorem test_wf_status : Instr.wf (.dieProgramReady 0 256 true) = false := by decide
theorem test_wf_channel : Instr.wf (.channelReturn 64) = false ∧ Instr.wf (.retrainPause 8 false 0 true) = false := by decide
theorem test_wf_port : Instr.wf (.fastRetrainDone 4) = false ∧ Instr.wf (.agePromotion 0 16) = false := by decide
theorem test_wf_engine : Instr.wf (.add 2 0) = false := by decide
theorem test_wf_lane : Instr.wf (.laneReturn 16 true) = false := by decide
theorem test_wf_group : Instr.wf (.gcStep 1 8) = false ∧ Instr.wf (.admissionHoldRelease 0 8192) = false := by decide
theorem test_wf_facet : Instr.wf (.patrolRead 0 0 16 .bad) = false ∧ Instr.wf (.patrolRead 0 256 0 .bad) = false := by decide
theorem test_wf_page : Instr.wf (.cipherMessageGrant [⟨528, 0, 1, false, 0, 0, 0⟩] 0) = false ∧
    Instr.wf (.cipherMessageGrant [⟨0, 0, 0, false, 0, 0, 0⟩] 0) = false := by decide
theorem test_wf_admin : Instr.wf (.mediaHealthLog { pf with fn := 513 }) = false := by decide
theorem test_wf_slot : Instr.wf (.firmwareCommitActivate pf 8) = false ∧ Instr.wf (.raiseMinimum 256) = false := by decide
theorem test_wf_source : Instr.wf (.sanitizeCryptoErase (.lead 0 none [2 ^ 64])) = false ∧
    Instr.wf (.sanitizeCryptoErase (.master 0 0 0 0)) = false := by decide
theorem test_wf_binding : Instr.wf (.endSession 8) = false ∧ Instr.wf (.getEndpointId 3) = false := by decide
theorem test_wf_address : Instr.wf (.setdasa 0 128 0) = false ∧ Instr.wf (.entdaa 2 0) = false := by decide
theorem test_wf_supply : Instr.wf (.supplyWithinRange 4) = false ∧ Instr.wf (.releaseCountDone 256) = false := by decide
theorem test_wf_pool : Instr.wf (.bufferWaitTimeout 6 ⟨0, 0, 0⟩ 0) = false ∧
    Instr.wf (.bufferWaitTimeout 0 ⟨4, 0, 0⟩ 0) = false ∧ Instr.wf (.bufferWaitTimeout 0 ⟨0, 16, 0⟩ 0) = false := by decide
theorem test_wf_requester : Instr.wf (.discard (.mgmt 5) false) = false ∧ Instr.wf (.discard (.hostRelay 0) true) = false := by decide
theorem test_wf_request : Instr.wf (.dictRead .pf ⟨65536, 0, 0, 0, 0, 0⟩ (some pf)) = false := by decide
theorem test_wf_carrier : Instr.wf (.dictRead .pf ⟨0, 0, 0, 0, 0, 0⟩ none) = false ∧
    Instr.wf (.dictRead (.lens 2) ⟨0, 0, 0, 0, 0, 0⟩ (some pf)) = false := by decide
theorem test_wf_commit : Instr.wf (.commit [⟨.lens 0, false, some pf, 0, none⟩]) = false := by decide
theorem test_wf_list : Instr.wf (.dictWrite ⟨.pf, false, some pf, 0, none⟩ [.write ⟨0, 256, 0, 0, 0, 0⟩ 0]) = false := by decide
theorem test_wf_position : Instr.wf (.memberCompletion 4 0 0 0 0 ⟨0, []⟩) = false ∧
    Instr.wf (.admissionLedgerLog pf 4 false false ⟨0, 64⟩ none) = false := by decide

/-! Worked cases of the spec. -/

/-- The worked case after R129: a unit of zone 263,171. -/
theorem test_prism_map :
    (let l := prism 263171 1 100000
     (l.chan, l.row, l.page, l.plane, l.cw)) = (48, 2064, 416, 2, 2) := by decide
/-- The worked case after R135: cell 2,000,000 of ring 1 of group 3. -/
theorem test_ring_cell :
    (let l := ringLoc {} 25 2000000
     (l.row, l.page, l.plane, l.cw, l.facet)) = (4034, 224, 2, 1, 0) := by decide
/-- The worked case after R163: T = 128 and S = 64. -/
theorem test_zone_count : zoneCount (odSet (odSet {} 0x2200 0x01 0 128) 0x2200 0x02 0 64) = 498688 := by decide
/-- The worked case after R384: block 3 of the key of namespace 7, generation 2. -/
theorem test_key_block : (List.range 64).map (fun i => bytesAt i 1 (deriveBlock (.namespaceKey 7 2 0x1122334455667788) 3)) =
    [0x03, 0, 0, 0, 0x42, 0x5A, 0x4B, 0x44, 0x01, 0, 0x07, 0, 0, 0, 0x02, 0,
     0x88, 0x77, 0x66, 0x55, 0x44, 0x33, 0x22, 0x11] ++ List.replicate 37 0 ++ [0x02, 0, 0] := by decide +kernel
/-- The worked case after R264: 2,243 mJ at 1 GiB, and the largest window. -/
theorem test_energy : energyReq {} 1024 = 2243 ∧ largestWindow {} = 1088 := by decide
/-- The worked case after R497. -/
theorem test_dram_location :
    (let l := dramLoc 1 0x123456840
     (l.chan, l.bank, l.row, l.crow, l.cb)) = (5, 10, 10485, 10493, 264) := by decide
/-- The generator polynomial of R498. -/
theorem test_generator : generator = [1, 255, 11, 81, 54, 239, 173, 200, 24] := by decide
/-- R207: 0xFFFFFFFF + 1 is 0 with Z set and N clear; 0 − 1 has N set. -/
theorem test_alu_wraps :
    (let s := after (.aluiAdd 0 (word 0x13 1)) { running with ctxs := [(0, { entry := some 1, v := Vector.replicate 16 (-1) })] }
     ((ctx s 0).v[(0 : Fin 16)], (ctx s 0).z, (ctx s 0).n)) = (0, true, false) ∧
    (let s := after (.aluiSubtract 0 (word 0x13 (1 * 2 ^ 20 + 1))) running
     ((ctx s 0).v[(0 : Fin 16)], (ctx s 0).z, (ctx s 0).n)) = (-1, false, true) := by decide
/-- R207: a shift right by 33 shifts by 1; movh keeps the lower half. -/
theorem test_alu_shift :
    (let s := after (.aluiShiftRight 0 (word 0x13 (6 * 2 ^ 20 + 33)))
       { running with ctxs := [(0, { entry := some 1, v := Vector.replicate 16 8 })] }
     (ctx s 0).v[(0 : Fin 16)]) = 4 ∧
    (let s := after (.movh 0 (word 0x11 0xABCD)) { running with ctxs := [(0, { entry := some 1, v := Vector.replicate 16 8 })] }
     (ctx s 0).v[(0 : Fin 16)]) = 0xABCD0008 := by decide
/-- R445: the accumulator saturates to 40 bits and the event is counted. -/
theorem test_mac_saturates :
    (let s := after (.mac 0 (lword 5 (0x20 * 2 ^ 16 + 0x20 * 2 ^ 8))) (engined { a0 := 2 ^ 39 - 1, d := [(0x20, 5)] })
     ((eng s 0).a0, od s 0x8210 0x07)) = (2 ^ 39 - 1, 1) := by decide
/-- R447: sts rounds to nearest with ties upward, below zero too. -/
theorem test_sts_rounds :
    kvGet 0 0x20 (eng (after (.sts 0 (lword 8 (0x20 * 2 ^ 16))) (engined { a0 := -(2 ^ 14) })) 0).d = 0 ∧
    kvGet 0 0x20 (eng (after (.sts 0 (lword 8 (0x20 * 2 ^ 16))) (engined { a0 := 2 ^ 14 })) 0).d = 1 := by decide
/-- R497: the block past the data space faults. -/
theorem test_dram_beyond :
    (match exec (.dramInitBlock (dramCapacity svc / 65536)) svc with
     | .fault f => some f
     | _ => none) = some (.noSuchAddress (dramCapacity svc)) := by decide
/-- R539, R540: PERST# during a core brown-out adds its bit to the cause. -/
theorem test_reset_cause : (after .perstAssert (after .coreBrownOut svc)).rst.cause = 0x0100000B := by decide +kernel
/-- R76, R65: a read of an empty zone completes with zeros. -/
theorem test_read_empty : (after (.read (io 0 1 0 2)) svc).host.cq.map (fun c => (c.cid, c.status, c.payload)) =
    [(7, 0, .blocks [0, 0])] := by decide +kernel
/-- R602: the LEDs show their defaults once stage 3 has applied them, and LED 0 a fault. -/
theorem test_leds : let s := { State.reset with pins.ioApplied := true }
    (List.range 4).map (ledShows s) = [0, 3, 0, 0] ∧ ledShows { s with pins.faultAt := some 0 } 0 = 1 ∧
    ledShows State.reset 1 = 0 ∧ gpioDrives s 17 = some true := by decide +kernel
/-- R56: a read past the last block fails with LBA Out of Range. -/
theorem test_read_range : (after (.read (io 0 1 524288 1)) svc).host.cq.map (fun c => (c.cid, c.status)) = [(7, 0x080)] := by
  decide +kernel
/-- The worked case after R76's section on appends (R70): A of 32 blocks goes first, B of 64 fails with Zone Boundary Error. -/
theorem test_two_appends :
    (let c (id fn sq nlb index : Nat) : Cmd :=
       { id := id, op := .zoneAppend, io := { io fn 1 0 nlb with sq := sq }, index := index, zone := 0 }
     let s := { svc with
       nss := [{ zns with parity := 0 }], zones := [(0, { st := .implOpen, wp := 245700 })], adm.zonePtr := [(0, 10)]
       host.cmds := [c 1 3 5 32 24581, c 2 0 2 64 2] }
     (after .asnSequencerPick (after .asnSequencerPick s)).adm.recs.map (fun l => (l.r.asn, l.r.status, l.r.lba, l.r.wpAfter))) =
    [(1, 0, 245700, 245732), (2, 0x1B8, 0, 245732)] := by
  decide +kernel

/-- LoopControl: an image of one instruction and one constant for engine 0 is acceptable where its key and its signature
are accepted (both are opaque). -/
def loopBlock : Nat := 1 + crc32c 22 1 * 2 ^ 176
def loopImage : Nat :=
  0x504F4F4C + 2 ^ 32 + 2 ^ 48 + 2 ^ 96 + loopBlock * ((2 ^ 256) ^ 6 * 2 ^ 160)
theorem witness_loop_image (h1 : Config.sha384 96 0 = Config.keySlotDigest 0)
    (h2 : ∀ d, Config.ecdsaVerify 0 0 d = true) : loopImageOk svc 0 loopImage = true := by
  have k : ∀ d, keyAccepts svc 0 0 0 0 d = true := by
    intro d
    have e : od svc 0x3200 0x04 % 2 = 0 ∧ od svc 0x3200 0x05 = 0 := by decide
    simp [keyAccepts, h1, h2, e]
  have a : bytesAt 7 1 loopImage = 0 ∧ bytesAt 8 4 loopImage = 0 ∧ bytesAt (16 + 4 * imgN loopImage) 96 loopImage = 0 ∧
      bytesAt (16 + 4 * imgN loopImage + 96) 96 loopImage = 0 := by decide +kernel
  simp only [loopImageOk, a, k, Bool.and_true]
  decide +kernel


end Sys2Proof.Tests
end

namespace Sys2Proof.Machine

open Sys2Proof

/-! TDISP (R369 to R371): what each request does in the session of the DOE mailbox. The hypothesis served is
tdRequest_served: the device is in service, the session exists and the lens is not disabled. -/

section
variable {s : State} {lens : Nat} (served : ∀ f, tdRequest s lens f = f s)
include served

/-- An unlocked lens that has no write log is locked, with the report of that moment. -/
theorem lockInterface_locks (unlocked : (fnc s lens).tdisp = .unlocked) (noLog : od s 0x6300 0x01 lens ≠ 1) :
    ∃ report, Does (.lockInterface lens true) s
      (tdAnswer (useFree (setFn s lens { fnc s lens with tdisp := .locked, report := report })) 0x03 [lens]) := by
  refine ⟨[(fnc s lens).vq, (fnc s lens).vi, lens, freeVal s] ++ (fnc s lens).attached, ?_⟩
  show execLockInterface lens true s = _
  simp [execLockInterface, served, unlocked, noLog]

theorem lockInterface_refused (notUnlocked : (fnc s lens).tdisp ≠ .unlocked) :
    Does (.lockInterface lens true) s (tdError s lens) := by
  show execLockInterface lens true s = _
  simp [execLockInterface, served, notUnlocked]

theorem getReport_answers (locked : tdLocked (fnc s lens) = true) :
    Does (.getDeviceInterfaceReport lens) s (tdAnswer s 0x04 (fnc s lens).report) := by
  show execGetDeviceInterfaceReport lens s = _
  simp only [execGetDeviceInterfaceReport, served, locked, if_true]

theorem getState_answers : Does (.getDeviceInterfaceState lens) s (tdAnswer s 0x05 [(fnc s lens).tdisp.code]) := by
  show execGetDeviceInterfaceState lens s = _
  rw [execGetDeviceInterfaceState, served]

theorem startInterface_starts (locked : (fnc s lens).tdisp = .locked) : Does (.startInterface lens) s
    (tdAnswer (setFn s lens { fnc s lens with tdisp := .run }) 0x06 [lens]) := by
  show execStartInterface lens s = _
  simp only [execStartInterface, served, if_pos locked]

theorem startInterface_refused (notLocked : (fnc s lens).tdisp ≠ .locked) :
    Does (.startInterface lens) s (tdError s lens) := by
  show execStartInterface lens s = _
  simp only [execStartInterface, served, if_neg notLocked]

/-- A stopped lens is unlocked and Offline; one that is neither online nor on probation has no work to end. -/
theorem stopInterface_idle (notUnlocked : (fnc s lens).tdisp ≠ .unlocked)
    (idle : ¬ ((fnc s lens).lens = .online ∨ (fnc s lens).lens = .probation)) : Does (.stopInterface lens) s
    (tdAnswer (setFn s lens { fnc s lens with tdisp := .unlocked, lens := .offline, report := [] }) 0x07 [lens]) := by
  show execStopInterface lens s = _
  simp only [execStopInterface, served, if_neg notUnlocked, if_neg idle]

/-- A lens at work leaves for Offline (R345) before it is unlocked. -/
theorem stopInterface_working (notUnlocked : (fnc s lens).tdisp ≠ .unlocked)
    (working : (fnc s lens).lens = .online ∨ (fnc s lens).lens = .probation) : Does (.stopInterface lens) s
    (let t := lensTo s lens .offline
     tdAnswer (setFn t lens { fnc t lens with tdisp := .unlocked, lens := .offline, report := [] }) 0x07 [lens]) := by
  show execStopInterface lens s = _
  simp only [execStopInterface, served, if_neg notUnlocked, if_pos working]

end

/-! Integrity failures and MMIO requests (R8, R371). -/

section
variable {s : State} {lens : Nat}

/-- The lens's TDISP state is that before the count in OD 0x1020:03. -/
theorem ideIntegrityFailure_locked (port : Nat) (locked : tdLocked (fnc s lens) = true) :
    Does (.ideIntegrityFailure port lens) s (resetCloseFree (toError (odBump s 0x1020 0x03 port) lens) lens) := by
  show execIdeIntegrityFailure port lens s = _
  simp only [execIdeIntegrityFailure, odBump_fnc, locked, if_true]

theorem ideIntegrityFailure_notLocked (port : Nat) (notLocked : tdLocked (fnc s lens) = false) :
    Does (.ideIntegrityFailure port lens) s (odBump s 0x1020 0x03 port) := by
  show execIdeIntegrityFailure port lens s = _
  simp [execIdeIntegrityFailure, notLocked]

theorem writeReg_writable (off w : Nat) (h : regMask off ≠ 0) : writeReg s lens off w =
    setFn s lens { fnc s lens with regs := kvPut 0 off (Nat.land w (regMask off)) (fnc s lens).regs } := if_neg h

theorem writeReg_readOnly (off w : Nat) (h : regMask off = 0) : writeReg s lens off w = s := if_pos h

/-- The model's test of R371 for an unsupported request. -/
theorem mmioUnsupported_iff {f : Fn} {tBit : Bool} :
    (f.tdisp == .error || (f.tdisp == .run && !tBit)) = true ↔ f.tdisp = .error ∨ (f.tdisp = .run ∧ tBit = false) := by
  simp

/-- A request that the lens answers passes that test. -/
theorem mmioSupported {f : Fn} {tBit : Bool} (fine : f.tdisp ≠ .error) (mayPass : f.tdisp ≠ .run ∨ tBit = true) :
    (f.tdisp == .error || (f.tdisp == .run && !tBit)) = false := by
  rw [← Bool.not_eq_true, mmioUnsupported_iff]
  rintro (e | ⟨r, t⟩)
  · exact fine e
  · exact mayPass.elim (· r) (by simp [t])

theorem mmioRequest_unsupported (tBit : Bool) (off : Nat) (w : Option Nat)
    (closed : (fnc s lens).tdisp = .error ∨ ((fnc s lens).tdisp = .run ∧ tBit = false)) :
    Does (.mmioRequest lens ⟨tBit, off, w⟩) s (spdmOut s 8 1 [lens]) := by
  show execMmioRequest lens ⟨tBit, off, w⟩ s = _
  cases w <;> simp [execMmioRequest, mmioUnsupported_iff.2 closed, spdmOut]

theorem mmioRequest_reads (tBit : Bool) (off : Nat) (fine : (fnc s lens).tdisp ≠ .error)
    (mayPass : (fnc s lens).tdisp ≠ .run ∨ tBit = true) :
    Does (.mmioRequest lens ⟨tBit, off, none⟩) s (spdmOut s 8 0 [lens, readReg s lens off]) := by
  show execMmioRequest lens ⟨tBit, off, none⟩ s = _
  simp [execMmioRequest, mmioSupported fine mayPass, spdmOut]

theorem mmioRequest_writes (tBit : Bool) (off w : Nat) (fine : (fnc s lens).tdisp ≠ .error)
    (mayPass : (fnc s lens).tdisp ≠ .run ∨ tBit = true) :
    Does (.mmioRequest lens ⟨tBit, off, some w⟩) s (spdmOut (writeReg s lens off w) 8 0 [lens]) := by
  show execMmioRequest lens ⟨tBit, off, some w⟩ s = _
  simp [execMmioRequest, mmioSupported fine mayPass, spdmOut]

end

/-- Settles O33: every request has the effect that its state of R369 and its register's mask give it. -/
theorem deviceInterfaces : Obligations.DeviceInterfaces := by
  unfold Obligations.DeviceInterfaces
  intro s lens life session there
  have served := tdRequest_served life session there
  refine ⟨lockInterface_locks served, lockInterface_refused served, getReport_answers served, getState_answers served,
    startInterface_starts served, startInterface_refused served, fun h => ⟨?_, stopInterface_working served h⟩,
    ideIntegrityFailure_locked, ideIntegrityFailure_notLocked, mmioRequest_unsupported, ?_⟩
  · intro notOnline notProbation
    exact stopInterface_idle served h (not_or.2 ⟨notOnline, notProbation⟩)
  · intro tBit off fine mayPass
    refine ⟨mmioRequest_reads tBit off fine mayPass, fun w => ?_⟩
    have writes := mmioRequest_writes tBit off w fine mayPass
    constructor
    · intro writable
      rwa [writeReg_writable off w writable] at writes
    · intro readOnly
      rwa [writeReg_readOnly off w readOnly] at writes

/-! The role of the pair is at 0x5000:01, below every counter of the host interface (objects 0x6220 and 0x6300), so that
an answer to the host leaves it as it is. -/

theorem pairRole_odBump {s : State} {o e i n : Nat} (h : 0x5001 ≤ o) : pairRole (odBump s o e i n) = pairRole s :=
  od_odSet_ne _ _ _ _ _ _ _ _ (by unfold odKey; omega)

theorem pairRole_dmaWrite (s : State) (n p a len : Nat) : pairRole (dmaWrite s n p a len) = pairRole s := by
  unfold dmaWrite
  split
  · rfl
  · dsimp only
    split
    · exact pairRole_odBump (by decide)
    · split
      · exact pairRole_odBump (by decide)
      · rfl

theorem pairRole_post (s : State) (n sq cid gen st d0 d1 : Nat) (p : Payload) (a b c d : Nat) :
    pairRole (post s n sq cid gen st d0 d1 p a b c d) = pairRole s := by
  unfold post
  split
  · rfl
  · split
    · exact (pairRole_dmaWrite ..).trans (pairRole_dmaWrite ..)
    · split
      · rfl
      · dsimp only
        split
        · exact pairRole_odBump (by decide)
        · exact (pairRole_odBump (by decide)).trans (pairRole_odBump (by decide))

theorem pairRole_adminDone (s : State) (a : Adm) (st d : Nat) (p : Payload) (b : Nat) :
    pairRole (adminDone s a st d p b) = pairRole s := pairRole_post ..

/-- An accepted command finds the hold-up sequence not begun. -/
theorem hold_of_adminServed {s : State} {a : Adm} (h : AdminServed s a) : s.power.hold = .running := by
  obtain ⟨accepted, _⟩ := h
  simp only [accepts, inService, Bool.and_eq_true, beq_iff_eq] at accepted
  obtain ⟨⟨⟨⟨⟨⟨_, running⟩, _⟩, _⟩, _⟩, _⟩, _⟩ := accepted
  exact running

/-! Sanitize (R3, R398, R402). -/

/-- A sanitize that no member of a cascade takes part in answers and begins. -/
theorem sanitize_begins {s : State} {a : Adm} {erase : Bool} (served : AdminServed s a) (alone : pairRole s = 0)
    (here : ∀ n ∈ s.nss, n.extents = []) (fine : sanitizeRefused s erase = 0) :
    sanitize (.host a) erase s = beginSanitize (adminDone s a 0) erase := by
  have noneFar : ([1, 2, 3].filter fun p => s.nss.any fun n => n.extents.any fun e =>
      e.2.2 == p && p != casPos s) = [] := by
    refine List.filter_eq_nil_iff.2 fun p _ => ?_
    simp only [List.any_eq_true, not_exists, not_and]
    intro n hn
    simp [here n hn]
  simp only [sanitize, withAdmin_served served, alone, fine, stOk, noneFar]
  rfl

/-- A sanitize with no command in the device takes effect at once. -/
theorem settleSanitize_ends {s : State} (pending : s.ciph.pendingRoot.isSome = true)
    (busy : s.host.sanitizeStatus = 2) (running : s.power.hold = .running) (empty : s.host.cmds = []) :
    settleSanitize s = sanitizeEnd [] s := by
  refine if_neg ?_
  simp [empty, running, busy, ← Option.not_isSome, pending]

/-- The state of a sanitize that has drawn its root and waits for the commands that hold ASNs. -/
def sanitizePending (s : State) (erase : Bool) : State :=
  { useDraw s with ciph.pendingRoot := some (draw s % 2 ^ 256), ciph.pendingErase := erase, host.sanitizeStatus := 2 }

theorem beginSanitize_empty (s : State) (erase : Bool) (empty : s.host.cmds = []) :
    beginSanitize s erase = settleSanitize (sanitizePending s erase) := by
  have none : (sanitizePending s erase).host.cmds = [] := empty
  show settleSanitize (((sanitizePending s erase).host.cmds.filter _).foldl _ (sanitizePending s erase)) = _
  rw [none, List.filter_nil, List.foldl_nil]

/-- The new root takes the place of the old one, and no derived key is left. -/
theorem beginSanitize_ends (s : State) (erase : Bool) (alone : pairRole s = 0) (running : s.power.hold = .running)
    (empty : s.host.cmds = []) : let t := beginSanitize s erase
    t.host.sanitizeStatus = 1 ∧ t.ciph.root = some (draw s % 2 ^ 256) ∧ t.ciph.stored = some (draw s % 2 ^ 256) ∧
      t.ciph.pendingRoot = none ∧ t.ciph.cache = [] ∧ t.ciph.erased = false := by
  have ends : beginSanitize s erase = sanitizeEnd [] (sanitizePending s erase) :=
    (beginSanitize_empty s erase empty).trans (settleSanitize_ends rfl rfl running empty)
  rw [ends]
  exact sanitizeEnd_says _ alone

/-! Abort (R59) and Asynchronous Event Request (R85) of the physical function. -/

section
variable {s : State} {a : Adm} (served : AdminServed s a)
include served

/-- A command that is nowhere in the device is not found: Dword 0 is 1. -/
theorem abort_unknown {sq cid : Nat} (io : 0 < sq) (rd : (fnc s 0).rd = none) (wr : (fnc s 0).wr = none)
    (granted : s.host.granted = []) (empty : s.host.cmds = []) :
    Does (.abort a sq cid) s (adminDone s a 0 1) := by
  show execAbort a sq cid s = _
  have notAdmin : ¬ sq = 0 := by omega
  simp [execAbort, withAdmin_served served, served.2, notAdmin, rd, wr, granted, empty, stOk]

/-- The command in the read slot ends there. -/
theorem abort_readSlot {sq cid : Nat} {x : Slot} (io : 0 < sq) (rd : (fnc s 0).rd = some x) (fn : x.io.fn = 0)
    (queue : x.io.sq = sq) (name : x.io.cid = cid) : let t := setFn s 0 { fnc s 0 with rd := none }
    Does (.abort a sq cid) s
      (adminDone (post t 0 sq cid (curGen t 0) 0x007 0 0 .none 0xFFFFFFFF 0 0 x.io.cqAddr) a 0) := by
  show execAbort a sq cid s = _
  have notAdmin : ¬ sq = 0 := by omega
  simp [execAbort, withAdmin_served served, served.2, notAdmin, rd, fn, queue, name, slotAddr, stOk, stAbort]

/-- The oldest asynchronous event request ends by its identifier. -/
theorem abort_eventRequest {cid cqAddr : Nat} {rest : List (Nat × Nat)}
    (aers : (fnc s 0).aers = (cid, cqAddr) :: rest) :
    let t := setFn s 0 { fnc s 0 with aers := (fnc s 0).aers.filter fun x => x.1 != cid }
    Does (.abort a 0 cid) s
      (adminDone (post t 0 0 cid (curGen t 0) 0x007 0 0 .none 0xFFFFFFFF 0 0 cqAddr) a 0) := by
  show execAbort a 0 cid s = _
  simp [execAbort, withAdmin_served served, served.2, aers, stOk, stAbort]

theorem eventRequest_answered {t i : Nat} {rest : List (Nat × Nat)} (events : (fnc s 0).events = (t, i) :: rest) :
    Does (.asynchronousEventRequest a) s (adminDone (setFn s 0 { fnc s 0 with events := rest }) a 0 (t + i * 256)) := by
  show execAsynchronousEventRequest a s = _
  simp only [execAsynchronousEventRequest, withAdmin_served served, served.2, events, stOk]

theorem eventRequest_held (events : (fnc s 0).events = []) : Does (.asynchronousEventRequest a) s
    (setFn s 0 { fnc s 0 with aers := (fnc s 0).aers ++ [(a.cid, a.cqAddr)] }) := by
  show execAsynchronousEventRequest a s = _
  simp only [execAsynchronousEventRequest, withAdmin_served served, served.2, events]

/-! Log pages (R64, R79, R86, R101 to R103, R248, R358, R566) of the physical function. -/

/-- A page of the PF alone completes with what it holds. -/
theorem pfLog_served (st : Nat) (p : Payload) (b : Nat) : pfLog s a st p b = adminDone s a st 0 p b := by
  simp [pfLog, withAdmin_served served, served.2]

/-- The device's own ledger is read from the slot that the offset names. -/
theorem ledgerLog_reads {remap byIndex : Bool} {offset length : Nat} (whole : length % 64 = 0)
    (aligned : byIndex = true ∨ offset % 64 = 0) (short : length ≤ 2097152) :
    let p := ledgerPage s 0 (fnc s 0).attached remap (if byIndex then offset else offset / 64) (length / 64)
    Does (.admissionLedgerLog a 0 remap byIndex ⟨offset, length⟩ none) s (adminDone s a p.1 0 p.2 length) := by
  show execAdmissionLedgerLog a 0 remap byIndex ⟨offset, length⟩ none s = _
  have inRange : ¬ (length % 64 ≠ 0 ∨ (!byIndex) = true ∧ offset % 64 ≠ 0 ∨ 2097152 < length) := by
    rcases aligned with h | h <;> simp [h] <;> omega
  simp only [execAdmissionLedgerLog, withAdmin_served served, served.2, if_neg inRange, ne_eq, not_true, false_and,
    if_false]

theorem ledgerLog_partSlot {remap : Bool} {position offset length : Nat} (part : length % 64 ≠ 0) :
    Does (.admissionLedgerLog a position remap false ⟨offset, length⟩ none) s (adminDone s a 0x002) := by
  show execAdmissionLedgerLog a position remap false ⟨offset, length⟩ none s = _
  simp [execAdmissionLedgerLog, withAdmin_served served, part, stField]

theorem smartLog_retains : Does (.smartHealthLog a true) s (adminDone s a 0 0 (.words (smartPage s 0)) 512) := by
  show execSmartHealthLog a true s = _
  simp [execSmartHealthLog, withAdmin_served served, served.2, dropEvents, stOk]

theorem smartLog_drops : let t := dropEvents s 0 1 false
    Does (.smartHealthLog a false) s
      (adminDone (setFn t 0 { fnc t 0 with reliability := false }) a 0 0 (.words (smartPage s 0)) 512) := by
  show execSmartHealthLog a false s = _
  simp [execSmartHealthLog, withAdmin_served served, served.2, stOk]

theorem changedZones_retains (nsid : Nat) : let l := ((fnc s 0).changed.filter fun e => e.1 == nsid).map (·.2)
    Does (.changedZoneListLog a nsid true) s (adminDone s a 0 0 (.words (l.length :: l)) 4096) := by
  show execChangedZoneListLog a nsid true s = _
  simp [execChangedZoneListLog, withAdmin_served served, served.2, stOk]

theorem changedZones_drops (nsid : Nat) : let l := ((fnc s 0).changed.filter fun e => e.1 == nsid).map (·.2)
    Does (.changedZoneListLog a nsid false) s (adminDone (dropEvents (setFn s 0 { fnc s 0 with
      changed := (fnc s 0).changed.filter fun e => e.1 != nsid }) 0 2 false) a 0 0 (.words (l.length :: l)) 4096) := by
  show execChangedZoneListLog a nsid false s = _
  simp [execChangedZoneListLog, withAdmin_served served, served.2, stOk]

theorem fdpLog_page {which : Nat} {l : List Nat} (page : fdpPage s which = some l) :
    Does (.fdpLogs a which) s (adminDone s a 0 0 (.words l)) := by
  show execFdpLogs a which s = _
  simp only [execFdpLogs, withAdmin_served served, page, stOk]

theorem fdpLog_noPage {which : Nat} (beyond : 4 ≤ which) : Does (.fdpLogs a which) s (adminDone s a 0x002) := by
  show execFdpLogs a which s = _
  have noPage : fdpPage s which = none := by
    obtain ⟨k, rfl⟩ := Nat.exists_eq_add_of_le' beyond
    rfl
  simp only [execFdpLogs, withAdmin_served served, noPage, stField]

end

/-- A page of ASN records that are still kept: as many slots as asked for, and the physical function sees each sealed
record in its slot whole. -/
theorem ledgerPage_records {s : State} {attached : List Nat} {first count slot : Nat} (kept : s.adm.floor ≤ first)
    (inPage : slot < count) :
    ∃ l, ledgerPage s 0 attached false first count = (0, .slots l) ∧ l.length = count ∧
      ∀ r, s.adm.recs.find? (fun x => x.r.asn == first + slot && decide (first + slot ≤ sealedHead s)) = some r →
        l[slot]? = some (recImage r.r) := by
  simp only [ledgerPage, Bool.false_eq_true, if_false, if_neg (Nat.not_lt.2 kept), stOk]
  refine ⟨_, rfl, by simp, fun r found => ?_⟩
  simp [List.getElem?_map, List.getElem?_range inPage, found, seenRec]

/-- Settles O54: each command by the lemma of its case; the old root goes where the sanitize ends at once. -/
theorem sanitizeAbortEventsAndLogs : Obligations.SanitizeAbortEventsAndLogs := by
  unfold Obligations.SanitizeAbortEventsAndLogs
  refine ⟨fun s a served => ⟨fun alone here => ⟨?_, ?_, ?_⟩, ?_, ?_, ?_, ?_, ?_, ?_⟩,
    fun s a served => ⟨?_, ?_, ?_, ?_, ?_, ?_, ?_, ?_, ?_, ?_, ?_, ?_, ?_⟩⟩
  · exact fun fine => congrArg _ (sanitize_begins served alone here fine)
  · exact fun fine => congrArg _ (sanitize_begins served alone here fine)
  · intro empty erase
    obtain ⟨free, cmds, power⟩ := adminDone_says s a 0
    have sameDraw : draw (adminDone s a 0) = draw s := congrArg Config.drbg free
    rw [← sameDraw]
    exact beginSanitize_ends _ erase ((pairRole_adminDone ..).trans alone)
      ((congrArg _ power).trans (hold_of_adminServed served)) (cmds.trans empty)
  · show execSanitizeOverwrite a s = _
    rw [execSanitizeOverwrite, withAdmin_served served, stField]
  · exact fun sq cid => abort_unknown served
  · exact fun sq cid x => abort_readSlot served
  · exact fun cid cqAddr rest => abort_eventRequest served
  · exact fun t i rest => eventRequest_answered served
  · exact eventRequest_held served
  · intro remap offset length whole aligned short
    exact ⟨ledgerLog_reads served whole (.inr aligned) short, ledgerLog_reads served whole (.inl rfl) short⟩
  · exact fun first count slot => ledgerPage_records
  · exact fun position remap offset length => ledgerLog_partSlot served
  · exact congrArg _ (pfLog_served served ..)
  · intro lens
    show execLensContractLog a lens s = _
    simp only [execLensContractLog, withAdmin_served served, served.2, if_true, stOk]
  · exact fun source offset length => congrArg _ (pfLog_served served ..)
  · exact smartLog_retains served
  · exact smartLog_drops served
  · exact fun nsid => ⟨changedZones_retains served nsid, changedZones_drops served nsid⟩
  · exact fdpLog_page served rfl
  · exact fdpLog_page served rfl
  · exact fun which => fdpLog_noPage served
  · exact fun hostInitiated => congrArg _ (pfLog_served served ..)

/-! Create (R49, R50, R78, R80, R156 to R160). -/

theorem tellFollower_alone {s : State} (alone : pairRole s = 0) (body : List Nat) : tellFollower s body = s :=
  if_neg (by simp [alone])

/-- A planned create that stays on this device adds the namespace and answers with its identifier. -/
theorem createNs_here {s : State} {c : CreateReq} {a : Adm} {zero : Bool} {free zs : List Nat}
    {es : List (Nat × Nat × Nat)} (alone : pairRole s = 0) (plan : planCreate s c zero free = (0, zs, es))
    (here : ∀ e ∈ es, e.2.2 = 0) : createNs s c zero free (some a) =
      adminDone (addNs s c (freeNsid s) zs [] []) a 0 (freeNsid s) := by
  have noneFar : (es.filter fun e => e.2.2 != 0) = [] := List.filter_eq_nil_iff.2 fun e he => by simp [here e he]
  have stillAlone : pairRole (addNs s c (freeNsid s) zs [] []) = 0 := by
    rw [pairRole, od, (addNs_says s c (freeNsid s) zs).1]
    exact alone
  simp only [createNs, plan, noneFar, stOk, List.isEmpty_nil, ne_eq, not_true_eq_false, if_false, if_true]
  split
  · rw [tellFollower_alone stillAlone]
  · rfl

theorem planCreate_preserve {s : State} (preserve : s.adm.preserve = true) (c : CreateReq) (zero : Bool)
    (free : List Nat) : planCreate s c zero free = (0x0C6, [], []) := if_pos preserve

theorem createNs_preserve {s : State} (preserve : s.adm.preserve = true) (c : CreateReq) (zero : Bool)
    (free : List Nat) (a : Adm) : createNs s c zero free (some a) = adminDone s a 0x0C6 := by
  simp [createNs, planCreate_preserve preserve, stOk]

section
variable {s : State} {a : Adm} (served : AdminServed s a)
include served

theorem namespaceCreate_alone (alone : pairRole s = 0) (zoned : Bool) (size l p parity pclass actives opens : Nat)
    (handles : List Nat) (zero : Bool) (free : List Nat) :
    Does (.namespaceCreate (.host a) zoned size ⟨l, p⟩ parity ⟨pclass, handles⟩ actives opens zero free) s
      (createNs s (.sized ⟨zoned, size, l, p, parity, pclass, actives, opens, handles⟩) zero free (some a)) := by
  show execNamespaceCreate (.host a) zoned size ⟨l, p⟩ parity ⟨pclass, handles⟩ actives opens zero free s = _
  simp [execNamespaceCreate, withAdmin_served served, alone]

/-! Format NVM and deletion (R84, R401, R607). -/

/-- An end that is not refused begins with the command held in the device. -/
theorem endNs_begins {nsid : Nat} {n : Ns} {e : NsEnd} (alone : pairRole s = 0) (found : ns? s nsid = some n)
    (fine : endStatus s n e = 0) :
    let code := if e.delete then codeDelete else codeFormat
    let held := admCmd s a code nsid .ending
    endNs (.host a) nsid e s = beginEnd held.1 n e (some held.2)
      [code, nsid, e.lbaf, e.pit, if e.erase then 1 else 0, if e.newKey then 1 else 0] := by
  simp [endNs, withAdmin_served served, found, alone, fine, stOk]

theorem endNs_unknown {nsid : Nat} (missing : ns? s nsid = none) (e : NsEnd) :
    endNs (.host a) nsid e s = adminDone s a 0x00B := by
  simp only [endNs, withAdmin_served served, missing, stNamespace]

end

/-- What an end leaves of its namespace: nothing, or one of the new format, with the old salt or with generation 1 of a
new key. -/
def EndLeaves (t : State) (n : Ns) (e : NsEnd) : Prop :=
  (e.delete = true → ns? t n.nsid = none) ∧
  (e.delete = false → ∃ m, ns? t n.nsid = some m ∧ m.lbaf = e.lbaf ∧ m.pit = e.pit ∧ m.ending = none ∧
    (e.newKey = false → m.salt = n.salt) ∧ (e.newKey = true → m.gen = 1 ∧ m.rot = none))

/-- The effect of an end, which touches neither the commands nor the members. -/
theorem endEffect_says {s : State} {n : Ns} {e : NsEnd} (found : ns? s n.nsid = some n) (drawn : e.salt = none) :
    let t := if e.delete then freeNs s n else formatNs s n e
    EndLeaves t n e ∧ t.host.cmds = s.host.cmds ∧ t.casc = s.casc := by
  cases kind : e.delete
  case true =>
    obtain ⟨cmds, casc, _, gone⟩ := freeNs_says s n
    exact ⟨⟨fun _ => gone, by simp [kind]⟩, cmds, casc⟩
  case false =>
    obtain ⟨⟨cmds, casc, _⟩, formatted⟩ := formatNs_says s n n e found drawn
    exact ⟨⟨by simp [kind], fun _ => formatted⟩, cmds, casc⟩

/-- The last command of the device leaves none behind, and the namespaces as they are. -/
theorem endCmd_last {s : State} {k : Cmd} (own : k.origin = 0) (only : s.host.cmds = [k]) (p : Payload) :
    (endCmd s k p).host.cmds = [] ∧ (endCmd s k p).nss = s.nss := by
  obtain ⟨t, q, ⟨f, d, rfl⟩, ends⟩ := endCmd_writes s k p own
  rw [ends]
  refine ⟨?_, rfl⟩
  show s.host.cmds.filter (fun c => c.id != k.id) = []
  simp [only]

/-- The end of a namespace whose command is the only one in the device, with no part elsewhere, is done at once. -/
theorem settleNs_ends {s : State} {n : Ns} {e : NsEnd} {k : Cmd} (found : ns? s n.nsid = some n)
    (ending : n.ending = some e) (drawn : e.salt = none) (running : s.power.hold = .running)
    (only : s.host.cmds = [k]) (own : k.origin = 0) (noAsn : k.asns = []) (names : e.cmd = k.id)
    (whole : partsOut s k.id = false) :
    EndLeaves (settleNs s n.nsid) n e ∧ (settleNs s n.nsid).host.cmds = [] := by
  obtain ⟨leaves, cmds, casc⟩ := endEffect_says found drawn
  have ready : ¬ (s.power.hold ≠ .running ∨
      (s.host.cmds.any fun k => k.io.nsid == n.nsid && !k.asns.isEmpty) = true) := by simp [running, only, noAsn]
  simp only [settleNs, found, ending, if_neg ready]
  generalize (if e.delete then freeNs s n else formatNs s n e) = t at leaves cmds casc ⊢
  have mine : cmd? t e.cmd = some k := by simp [cmd?, cmds, only, names]
  have parts : partsOut t k.id = false := by rw [partsOut, casc]; exact whole
  obtain ⟨noneLeft, nss⟩ := endCmd_last own (cmds.trans only) .none
  simp only [mine, parts, Bool.false_eq_true, if_false]
  refine ⟨?_, noneLeft⟩
  simpa only [EndLeaves, ns?, nss] using leaves

/-- The namespace once a command has begun its end. -/
def ended (n : Ns) (e : NsEnd) (k : Cmd) : Ns := { n with ending := some { e with cmd := k.id } }

/-- With no other command in the device and no extent on a member, nothing is ended early and nothing is forwarded. -/
theorem beginEnd_settles {s : State} {n : Ns} {e : NsEnd} {k : Cmd} (body : List Nat) (only : s.host.cmds = [k])
    (notAtPoint : k.stage ≠ .point) (noneAsked : s.pair.asked = []) (here : n.extents = []) :
    beginEnd s n e (some k) body = settleNs (setNs s (ended n e k)) n.nsid := by
  have noWaiter : ((setNs s (ended n e k)).host.cmds.filter fun c =>
      c.io.nsid == n.nsid && waitsForPoint (setNs s (ended n e k)) c) = [] := by
    have notWaiting : waitsForPoint (setNs s (ended n e k)) k = false := by
      simp [waitsForPoint, notAtPoint, noneAsked]
    simp [only, notWaiting]
  have noRemote : remotePositions (setNs s (ended n e k)) n = [] := by simp [remotePositions, here]
  unfold ended at noWaiter noRemote ⊢
  simp only [beginEnd, Option.map_some, Option.getD_some, noWaiter, noRemote, List.foldl_nil, ite_self]

section
variable {s : State} {a : Adm} {nsid : Nat} {n : Ns} {e : NsEnd} (served : AdminServed s a) (alone : pairRole s = 0)
  (found : ns? s nsid = some n) (drawn : e.salt = none) (empty : s.host.cmds = []) (noneAsked : s.pair.asked = [])
  (here : n.extents = []) (whole : partsOut s s.host.nextId = false)
include served alone found drawn empty noneAsked here whole

/-- An end with nothing else in the device is done at once. -/
theorem endNs_ends (fine : endStatus s n e = 0) :
    EndLeaves (endNs (.host a) nsid e s) n e ∧ (endNs (.host a) nsid e s).host.cmds = [] := by
  obtain rfl := ns?_nsid found
  rw [endNs_begins served alone found fine]
  generalize (if e.delete then codeDelete else codeFormat) = code
  have only : (admCmd s a code n.nsid .ending).1.host.cmds = [(admCmd s a code n.nsid .ending).2] :=
    congrArg (· ++ [_]) empty
  rw [beginEnd_settles _ only (show Stage.ending ≠ .point by decide) noneAsked here]
  have running : s.power.hold = .running := hold_of_adminServed served
  exact settleNs_ends (n := ended n e (admCmd s a code n.nsid .ending).2)
    (e := { e with cmd := (admCmd s a code n.nsid .ending).2.id })
    (ns_setNs _ _ n found) rfl drawn running only rfl rfl rfl whole

theorem endNs_deletes (kind : e.delete = true) (fine : endStatus s n e = 0) : let t := endNs (.host a) nsid e s
    ns? t nsid = none ∧ t.host.cmds = [] := by
  obtain ⟨⟨gone, _⟩, noneLeft⟩ := endNs_ends served alone found drawn empty noneAsked here whole fine
  obtain rfl := ns?_nsid found
  exact ⟨gone kind, noneLeft⟩

theorem endNs_formats (kind : e.delete = false) (sameKey : e.newKey = false) (fine : endStatus s n e = 0) :
    let t := endNs (.host a) nsid e s
    ∃ m, ns? t nsid = some m ∧ m.lbaf = e.lbaf ∧ m.pit = e.pit ∧ m.ending = none ∧ m.salt = n.salt ∧
      t.host.cmds = [] := by
  obtain ⟨⟨_, formatted⟩, noneLeft⟩ := endNs_ends served alone found drawn empty noneAsked here whole fine
  obtain ⟨m, now, lbaf, pit, ending, salt, _⟩ := formatted kind
  obtain rfl := ns?_nsid found
  exact ⟨m, now, lbaf, pit, ending, salt sameKey, noneLeft⟩

theorem endNs_rekeys (kind : e.delete = false) (newKey : e.newKey = true) (fine : endStatus s n e = 0) :
    let t := endNs (.host a) nsid e s
    ∃ m, ns? t nsid = some m ∧ m.lbaf = e.lbaf ∧ m.pit = e.pit ∧ m.ending = none ∧ m.gen = 1 ∧ m.rot = none ∧
      t.host.cmds = [] := by
  obtain ⟨⟨_, formatted⟩, noneLeft⟩ := endNs_ends served alone found drawn empty noneAsked here whole fine
  obtain ⟨m, now, lbaf, pit, ending, _, key⟩ := formatted kind
  obtain ⟨gen, rot⟩ := key newKey
  obtain rfl := ns?_nsid found
  exact ⟨m, now, lbaf, pit, ending, gen, rot, noneLeft⟩

end

/-! Attachment (R342, R343, R353, R354) and Set Features FDP (R79, R81). -/

theorem firstRefused_none {status : Nat → Nat} {fns : List Nat} (fine : ∀ f ∈ fns, status f = 0) :
    firstRefused status fns = none := by
  have noRefusal : (fns.find? fun f => status f != stOk) = none :=
    List.find?_eq_none.2 fun f hf => by simp [fine f hf, stOk]
  rw [firstRefused, noRefusal, Option.map_none]

theorem firstRefused_one {status : Nat → Nat} {f : Nat} (refused : status f ≠ 0) :
    firstRefused status [f] = some (f, status f) := by
  simp [firstRefused, stOk, refused]

theorem attachStatus_noController {s : State} {nsid f : Nat} (beyond : 512 < f) (fns : List Nat) :
    attachStatus s nsid fns f = 0x11C := if_pos beyond

theorem detachStatus_noController {s : State} {nsid f : Nat} (beyond : 512 < f) :
    detachStatus s nsid f = 0x11C := if_pos beyond

section
variable {s : State} {a : Adm} (served : AdminServed s a)
include served

theorem attach_done {nsid : Nat} {n : Ns} {fns : List Nat} (found : ns? s nsid = some n)
    (fine : ∀ f ∈ fns, attachStatus s nsid fns f = 0) : Does (.namespaceAttach a nsid fns) s
      (adminDone (lensContractEvents (attachAll s nsid fns)) a 0) := by
  show execNamespaceAttach a nsid fns s = _
  simp [execNamespaceAttach, withAdmin_served served, found, firstRefused_none fine, stOk]

theorem detach_done {nsid : Nat} {n : Ns} {fns : List Nat} (found : ns? s nsid = some n)
    (fine : ∀ f ∈ fns, detachStatus s nsid f = 0) : Does (.namespaceDetach a nsid fns) s
      (adminDone (lensContractEvents (fns.foldl (fun s f =>
        setFn s f { fnc s f with attached := (fnc s f).attached.filter fun x => x != nsid }) s)) a 0) := by
  show execNamespaceDetach a nsid fns s = _
  simp [execNamespaceDetach, withAdmin_served served, found, firstRefused_none fine, stOk]

theorem attach_noController {nsid f : Nat} {n : Ns} (found : ns? s nsid = some n) (beyond : 512 < f) :
    Does (.namespaceAttach a nsid [f]) s (adminDone s a 0x11C) := by
  show execNamespaceAttach a nsid [f] s = _
  have refused := attachStatus_noController (s := s) (nsid := nsid) beyond [f]
  have first := firstRefused_one (status := attachStatus s nsid [f]) (f := f) (by simp [refused])
  simp [execNamespaceAttach, withAdmin_served served, found, first, refused, stAttachLimit]

theorem detach_noController {nsid f : Nat} {n : Ns} (found : ns? s nsid = some n) (beyond : 512 < f) :
    Does (.namespaceDetach a nsid [f]) s (adminDone s a 0x11C) := by
  show execNamespaceDetach a nsid [f] s = _
  have refused := detachStatus_noController (s := s) (nsid := nsid) beyond
  have first := firstRefused_one (status := detachStatus s nsid) (f := f) (by simp [refused])
  simp [execNamespaceDetach, withAdmin_served served, found, first, refused]

theorem fdp_switches (enable : Bool) (noNs : s.nss = []) : Does (.setFeaturesFdp a 1 enable none) s
    (adminDone { s with host.fdp := enable } a 0) := by
  show execSetFeaturesFdp a 1 enable none s = _
  simp [execSetFeaturesFdp, withAdmin_served served, noNs, stOk]

theorem fdp_enablesEvents (enable : Bool) (h types : Nat) : Does (.setFeaturesFdp a 1 enable (some (h, types))) s
    (adminDone { s with host.fdpEnabled := kvPut 0 h types s.host.fdpEnabled } a 0) := by
  show execSetFeaturesFdp a 1 enable (some (h, types)) s = _
  simp [execSetFeaturesFdp, withAdmin_served served, stOk]

theorem fdp_noGroup {group : Nat} (enable : Bool) (events : Option (Nat × Nat)) (other : group ≠ 1) :
    Does (.setFeaturesFdp a group enable events) s (adminDone s a 0x002) := by
  show execSetFeaturesFdp a group enable events s = _
  simp only [execSetFeaturesFdp, withAdmin_served served, if_pos other, stField]

end

/-- A create adds the namespace of its request, with its rows as zones or as pool rows. -/
theorem addNs_request (s : State) (zoned : Bool) (size l p parity pclass actives opens nsid : Nat)
    (handles zs : List Nat) : let c := CreateReq.sized ⟨zoned, size, l, p, parity, pclass, actives, opens, handles⟩
    ∃ m, (addNs s c nsid zs [] []).nss = s.nss ++ [m] ∧ m.nsid = nsid ∧ m.zoned = zoned ∧ m.size = c.size ∧
      m.lbaf = l ∧ m.pit = p ∧ m.parity = parity ∧ m.pclass = pclass ∧ m.gen = 1 ∧
      m.zones = (if zoned then zs else []) ∧ m.poolRows = (if zoned then [] else zs) := by
  intro c
  obtain ⟨_, added⟩ := addNs_says s c nsid zs
  obtain ⟨sameZoned, sameLbaf, samePit, sameParity, sameClass⟩ :=
    sized_says zoned size l p parity pclass actives opens handles
  rwa [sameZoned, sameLbaf, samePit, sameParity, sameClass] at added

/-- Settles O53: creates, ends, attachments and the FDP switch each by the lemma of its case. -/
theorem namespacesComeAndGo : Obligations.NamespacesComeAndGo := by
  unfold Obligations.NamespacesComeAndGo
  intro s a nsid lbaf pit n served alone
  refine ⟨?_, ?_, fun found => ⟨?_, ?_, ?_, ?_, ?_⟩, fun missing => ⟨?_, ?_⟩, fun fns => attach_done served,
    fun fns => detach_done served,
    fun f found beyond => ⟨attach_noController served found beyond, detach_noController served found beyond⟩, ?_,
    fdp_enablesEvents served, fun group enable events => fdp_noGroup served enable events⟩
  · intro zoned size l p parity pclass actives opens handles zero free zs es c plan here
    exact ⟨(namespaceCreate_alone served alone ..).trans (congrArg _ (createNs_here alone plan here)),
      addNs_request ..⟩
  · intro preserve zoned size l p parity pclass actives opens handles zero free
    exact (namespaceCreate_alone served alone ..).trans (congrArg _ (createNs_preserve preserve ..))
  · exact fun fine => congrArg _ (endNs_begins served alone found fine)
  · exact fun fine => congrArg _ (endNs_begins served alone found fine)
  · exact fun fine => congrArg _ (endNs_begins served alone found fine)
  · exact fun fine => congrArg _ (endNs_begins served alone found fine)
  · intro empty noneAsked here whole
    refine ⟨fun fine => ⟨_, rfl, ?_⟩, fun fine => ?_, fun fine => ?_, fun fine => ?_⟩
    · exact endNs_deletes served alone found rfl empty noneAsked here whole rfl fine
    · obtain ⟨m, left⟩ := endNs_formats served alone found rfl empty noneAsked here whole rfl rfl fine
      exact ⟨_, m, rfl, left⟩
    · obtain ⟨m, left⟩ := endNs_rekeys served alone found rfl empty noneAsked here whole rfl rfl fine
      exact ⟨_, m, rfl, left⟩
    · obtain ⟨m, left⟩ := endNs_rekeys served alone found rfl empty noneAsked here whole rfl rfl fine
      exact ⟨_, m, rfl, left⟩
  · exact congrArg _ (endNs_unknown served missing _)
  · exact congrArg _ (endNs_unknown served missing _)
  · rintro group enable noNs rfl
    exact fdp_switches served enable noNs

end Sys2Proof.Machine

namespace Sys2Proof.Machine

open Sys2Proof

/-! The choice of the ASN sequencer among the picks (R45). -/

/-- What the sequencer's choice is: an earliest one of the picks that are not held, and the pointer it leaves. -/
theorem seqPick_some {s : State} {z : Nat} {k : Cmd} {ptr : Nat} (picked : seqPick s = some (z, k, ptr)) :
    let free := (zonePicks s).filter fun e => !e.2.held
    let first := free.filter fun e => e.2.io.cross == k.io.cross
    (z, k) ∈ free ∧ (∀ e ∈ free, k.io.cross ≤ e.2.io.cross) ∧ (first.length = 1 → ptr = s.adm.seqPtr) := by
  intro free first
  unfold seqPick at picked
  dsimp only at picked
  split at picked
  next => cases picked
  next t earliest =>
    obtain ⟨_, least⟩ := List.min?_eq_some_iff.1 earliest
    split at picked
    next => cases picked
    next i _ =>
      split at picked
      next x found =>
        obtain ⟨rfl, rfl, rfl⟩ := picked
        obtain ⟨here, atT⟩ := List.mem_filter.1 (List.mem_of_find?_eq_some found)
        obtain rfl : x.2.io.cross = t := by simpa using atT
        exact ⟨here, fun e he => least _ (List.mem_map_of_mem he), fun one => if_pos one⟩
      next => cases picked

/-- A list without repeats whose members are all one value has that value only. -/
theorem length_eq_one_of_nodup {α : Type} {a : α} {l : List α} (nodup : l.Nodup) (here : a ∈ l)
    (only : ∀ b ∈ l, b = a) : l.length = 1 := by
  have same : l = List.replicate l.length a := List.eq_replicate_iff.2 ⟨rfl, only⟩
  have atMost : l.length ≤ 1 := List.nodup_replicate.1 (same ▸ nodup)
  have atLeast := List.length_pos_of_mem here
  omega

/-- Settles O10: the choice is an earliest crossing, and where it is the only one the pointer stays. -/
theorem sequencerTakesEarliestCrossing : Obligations.SequencerTakesEarliestCrossing := by
  unfold Obligations.SequencerTakesEarliestCrossing
  intro s z k ptr picked
  obtain ⟨free, least, pointer⟩ := seqPick_some picked
  obtain ⟨here, notHeld⟩ := List.mem_filter.1 free
  refine ⟨here, by simpa using notHeld, fun e he h => least e (by simp [he, h]), fun others nodup => pointer ?_⟩
  refine length_eq_one_of_nodup (a := (z, k)) ((nodup.filter _).filter _) (List.mem_filter.2 ⟨free, by simp⟩) fun e he => ?_
  simp only [List.mem_filter, Bool.not_eq_true', beq_iff_eq] at he
  obtain ⟨⟨among, free⟩, same⟩ := he
  rcases others e among with rfl | held | later
  · rfl
  · simp [free] at held
  · omega

/-! The slot of the ASN sequencer (R45) and the end of a hold (R139). -/

@[simp] theorem withUndo_host (f : State → State) (s : State) : (withUndo f s).host = (f s).host := rfl
@[simp] theorem withUndo_zones (f : State → State) (s : State) : (withUndo f s).zones = (f s).zones := rfl
@[simp] theorem withUndo_nextAsn (f : State → State) (s : State) :
    (withUndo f s).adm.nextAsn = (f s).adm.nextAsn := rfl

/-- An epoch record takes the next ASN and leaves the host and the zones alone. -/
theorem takeDue_epochRec (s : State) (digest epoch : Nat) : Recd s (takeDue s (.epochRec digest epoch)) 1 :=
  addRecord_says ..

section
variable {s : State} (service : inService s = true) (lead : pairRole s ≠ 2) (unfenced : s.pair.fenced = false)
  (unspent : s.adm.spent = false) (notLast : s.adm.nextAsn ≠ 18446744073709551615)
  (noClose : s.adm.afterClose = none)
include service lead unfenced unspent notLast noClose

theorem sequencer_takesDue {d : Due} {rest : List Due} (due : s.adm.due = d :: rest) :
    Does .asnSequencerPick s (withUndo (fun s => takeDue { s with adm.due := rest } d) s) := by
  refine congrArg _ (withUndo_congr _ _ s ?_)
  simp [service, lead, unfenced, unspent, notLast, noClose, due]

theorem sequencer_holds (noDue : s.adm.due = []) (full : holdFull s = true) :
    Does .asnSequencerPick s (withUndo id s) := by
  refine congrArg _ (withUndo_congr _ _ s ?_)
  simp [service, lead, unfenced, unspent, notLast, noClose, noDue, full]

theorem sequencer_takesPick {z ptr : Nat} {k : Cmd} (noDue : s.adm.due = []) (room : holdFull s = false)
    (picked : seqPick (holdPicks (settleSelectAll s)) = some (z, k, ptr)) :
    Does .asnSequencerPick s (withUndo (fun s =>
      admitPick { holdPicks (settleSelectAll s) with adm.seqPtr := ptr } z k) s) := by
  refine congrArg _ (withUndo_congr _ _ s ?_)
  simp [service, lead, unfenced, unspent, notLast, noClose, noDue, room, picked]

end

theorem holdRelease_waits {s : State} {r row : Nat} (unerased : rowUnerased s r row = true) :
    Does (.admissionHoldRelease r row) s s := congrArg _ (if_pos unerased)

/-- A command that the erase of a row of ring r releases. -/
def releasedBy (s : State) (r : Nat) (k : Cmd) : Cmd :=
  if k.held ∧ groupOf (actsOn s k) = r / 8 then { k with held := false } else k

theorem holdRelease_releases {s : State} {r row : Nat} (erased : rowUnerased s r row = false) :
    Does (.admissionHoldRelease r row) s { s with host.cmds := s.host.cmds.map (releasedBy s r) } :=
  congrArg _ (if_neg (by simp [erased]))

theorem releasedBy_held {s : State} {r : Nat} {k : Cmd} (held : (releasedBy s r k).held = true) :
    groupOf (actsOn s (releasedBy s r k)) ≠ r / 8 := by
  unfold releasedBy at held ⊢
  split at held
  next => cases held
  next kept =>
    rw [if_neg kept]
    exact fun same => kept ⟨held, same⟩

theorem releasedBy_other {s : State} {r : Nat} {k : Cmd}
    (other : k.held = false ∨ groupOf (actsOn s k) ≠ r / 8) : releasedBy s r k = k := by
  refine if_neg ?_
  rintro ⟨held, same⟩
  exact other.elim (by simp [held]) (· same)

/-- Settles O9: each kind of slot by its lemma, and the release by what it does to one command. -/
theorem sequencerTakesOnePick : Obligations.SequencerTakesOnePick := by
  unfold Obligations.SequencerTakesOnePick
  refine ⟨fun s service lead unfenced unspent more noClose => ?_, fun s r row => ⟨holdRelease_waits, fun erased => ?_⟩⟩
  · have notLast : s.adm.nextAsn ≠ 18446744073709551615 := by omega
    refine ⟨fun d rest => sequencer_takesDue service lead unfenced unspent notLast noClose, fun digest epoch rest due => ?_,
      fun z k ptr => sequencer_takesPick service lead unfenced unspent notLast noClose, fun noDue full => ?_⟩
    · obtain ⟨_, host, _, next, zones⟩ := takeDue_epochRec { s with adm.due := rest } digest epoch
      refine ⟨_, sequencer_takesDue service lead unfenced unspent notLast noClose due, ?_⟩
      rw [withUndo_nextAsn, withUndo_zones, withUndo_host]
      exact ⟨next, zones, host⟩
    · exact ⟨_, sequencer_holds service lead unfenced unspent notLast noClose noDue full, rfl, rfl, rfl⟩
  · refine ⟨_, holdRelease_releases erased, rfl, List.length_map _, fun k here held => ?_, fun k here other => ?_⟩
    · obtain ⟨_, _, rfl⟩ := List.mem_map.1 here
      exact releasedBy_held held
    · exact List.mem_map.2 ⟨k, here, releasedBy_other other⟩

/-! The front of the queue and the idle step (R36, R42, log entry 8). -/

theorem returnToggles_out (s : State) : ∀ e ∈ (returnToggles s).toggles, e.2.out = false := by
  intro e he
  obtain ⟨inMap, _⟩ := List.mem_filter.1 he
  obtain ⟨_, _, rfl⟩ := List.mem_map.1 inMap
  rfl

theorem returnToggles_none {s : State} (noToggle : s.toggles = []) : returnToggles s = s := by
  have same : (returnToggles s).toggles = s.toggles := by rw [returnToggles, noToggle]; rfl
  exact congrArg (fun m => { s with toggles := m }) same

@[simp] theorem txGrant_toggles (s : State) : (txGrant s).toggles = s.toggles := by
  unfold txGrant
  split <;> rfl

theorem txGrant_none {s : State} (noFrame : s.pair.txq = []) : txGrant s = s := by
  have noPick : (if s.pair.linkUp then txPick s else none) = none := by simp [txPick, noFrame]
  rw [txGrant, noPick]

theorem step_front {c : Instr} {rest : List Instr} {s : State} (front : s.pending = c :: rest) :
    step s = exec c { s with pending := rest } := by rw [step, front]

theorem step_idle {s : State} (empty : s.pending = []) : step s = .next (txGrant (returnToggles s)) := by
  rw [step, empty, idle]

/-- Settles O57: the front command runs, and the idle step returns the toggles and grants a frame. -/
theorem stepRunsTheFrontCommand : Obligations.StepRunsTheFrontCommand := by
  unfold Obligations.StepRunsTheFrontCommand
  refine ⟨fun c rest s front => step_front front, fun s empty => ⟨step_idle empty, ?_⟩, fun s empty noFrame noToggle => ?_⟩
  · rw [txGrant_toggles]
    exact returnToggles_out s
  · rw [step_idle empty, returnToggles_none noToggle, txGrant_none noFrame]

/-! Journal pages, checkpoints and the unmap of a reset zone (R28, R272). -/

theorem pageTake_append_drop (room : Nat) (l : List JRec) :
    pageTake room l ++ l.drop (pageTake room l).length = l := by
  induction l generalizing room with
  | nil => rfl
  | cons r t ih =>
    rw [pageTake]
    split
    · simp [ih]
    · rfl

theorem journalPage_programs {s : State} (records : pageTake 4060 s.jrn.tail ≠ []) : ∃ t, Does .journalPageProgram s t ∧
    t.jrn.tail = s.jrn.tail.drop (pageTake 4060 s.jrn.tail).length ∧ t.jrn.tail2 = t.jrn.tail ∧
    t.jrn.durable = s.jrn.durable ++ pageTake 4060 s.jrn.tail ∧ t.jrn.pageSeq = s.jrn.pageSeq + 1 ∧
    t.jrn.sinceBegin = s.jrn.sinceBegin + 4096 ∧ t.jrn.pages.length = s.jrn.pages.length + 1 ∧
    t.power.clean = ((pageTake 4060 s.jrn.tail).getLast?.any fun r => r.typ == 14) := by
  refine ⟨_, congrArg Host.Outcome.next (if_neg records), ?_⟩
  dsimp only
  rw [(onDurables_say _ _).1, (onDurables_say _ _).2]
  simp

theorem checkpoint_waits {s : State} (less : s.jrn.sinceBegin < 2 ^ 30) : Does .checkpointBegin s s :=
  congrArg _ (if_pos (.inl less))

theorem checkpoint_begins {s : State} (enough : 2 ^ 30 ≤ s.jrn.sinceBegin) (idle : s.jrn.running = none) :
    ∃ t, Does .checkpointBegin s t ∧ t.jrn.ckpt = s.jrn.ckpt + 1 ∧ t.jrn.running = some s.jrn.nextLsn ∧
      t.jrn.sinceBegin = 0 := by
  have begins : ¬(s.jrn.sinceBegin < 2 ^ 30 ∨ s.jrn.running.isSome) :=
    not_or.2 ⟨Nat.not_lt.2 enough, by simp [idle]⟩
  exact ⟨_, congrArg Host.Outcome.next (if_neg begins), rfl, rfl, rfl⟩

theorem checkpoint_appendsEnd {s : State} {b : Nat} (running : s.jrn.running = some b)
    (noEnd : (s.jrn.durable ++ s.jrn.tail).any (fun r => r.typ == 10 && r.body.head? == some s.jrn.ckpt) = false) :
    ∃ t r, Does .checkpointEnd s t ∧ t.jrn.tail = s.jrn.tail ++ [r] ∧ r.typ = 10 ∧
      r.body.head? = some s.jrn.ckpt := by
  rw [List.any_append, Bool.or_eq_false_iff] at noEnd
  obtain ⟨notDurable, notInTail⟩ := noEnd
  have appends : Does .checkpointEnd s (useFree (journal s 10 [s.jrn.ckpt, freeVal s, freeVal (useFree s)])) := by
    show execCheckpointEnd s = _
    simp [execCheckpointEnd, running, notDurable, notInTail]
  exact ⟨_, _, appends, rfl, rfl, rfl⟩

theorem checkpoint_frees {s : State} {b : Nat} {r : JRec} (running : s.jrn.running = some b) (here : r ∈ s.jrn.durable)
    (kind : r.typ = 10) (this : r.body.head? = some s.jrn.ckpt) :
    Does .checkpointEnd s { s with
      jrn.durable := s.jrn.durable.filter fun r => decide (b ≤ r.lsn), jrn.beginLsn := b, jrn.running := none
      jrn.pages := s.jrn.pages.filter fun p => decide (b < p.2.1 + p.2.2.1) } := by
  have durable : s.jrn.durable.any (fun r => r.typ == 10 && r.body.head? == some s.jrn.ckpt) = true :=
    List.any_eq_true.2 ⟨r, here, by simp [kind, this]⟩
  show execCheckpointEnd s = _
  simp [execCheckpointEnd, running, durable]

theorem resetUnmap_journalled {s : State} {id z : Nat} (due : (zone s z).unmapDue = true) (ended : cmd? s id = none) :
    Does (.resetStepUnmap id z) s (setZone (journal s 1 [z, (zone s z).unmapAsn]) z
      { zone (journal s 1 [z, (zone s z).unmapAsn]) z with unmapDue := false }) := by
  show execResetStepUnmap id z s = _
  simp [execResetStepUnmap, due, ended]

/-- Settles O13: each step of the journal by its lemma. -/
theorem journalAndCheckpoints : Obligations.JournalAndCheckpoints := by
  unfold Obligations.JournalAndCheckpoints
  exact ⟨fun s => ⟨journalPage_programs, pageTake_append_drop _ _, checkpoint_waits, checkpoint_begins,
    fun b => checkpoint_appendsEnd, fun b r => checkpoint_frees⟩, fun s id z => resetUnmap_journalled⟩

/-! The frames of the twin that ask, order, record and acknowledge (R31, R32, R299, R309, R313, R322). -/

/-- A ledger record of the lead at a follower: the next ASN's is applied and answered, one below it is final, and one
above it waits (R31, R320). -/
def takeRecord (s : State) (r : LedgerRec) : State :=
  if r.asn = s.adm.nextAsn then
    let t := dueSwitches (withUndo (fun s => applyRecord s r) s)
    let zs := match ns? t r.nsid with | some n => n.startOf r.zone | none => 0
    afterRecord t r (decide (r.rtype ≤ 2) &&
      ((zone t r.zone).st.code != r.stateAfter || wpShown zs (zone t r.zone) != r.wpAfter))
  else if r.asn < s.adm.nextAsn then takeFinal s r
  else s

section
variable {s : State} {r : LedgerRec}

theorem takeRecord_above (above : s.adm.nextAsn < r.asn) : takeRecord s r = s := by
  rw [takeRecord, if_neg (by omega), if_neg (by omega)]

theorem takeRecord_below (below : r.asn < s.adm.nextAsn) : takeRecord s r = takeFinal s r := by
  rw [takeRecord, if_neg (by omega), if_pos below]

end

/-- What a holding acknowledgement of these ASNs does to a command (R32, R312). -/
def ackBy (asns : List Nat) (k : Cmd) : Cmd :=
  let mine := match k.convSeq with
    | some q => asns.contains (2 ^ 63 + q)
    | none => match k.asns.getLast? with
      | some a => asns.contains a
      | none => false
  if mine then { k with acked := true } else k

theorem ackBy_asn {asns : List Nat} {k : Cmd} {a : Nat} (zoned : k.convSeq = none) (last : k.asns.getLast? = some a)
    (held : a ∈ asns) : ackBy asns k = { k with acked := true } := by
  simp [ackBy, zoned, last, held]

theorem ackBy_convSeq {asns : List Nat} {k : Cmd} {q : Nat} (conv : k.convSeq = some q) (held : 2 ^ 63 + q ∈ asns) :
    ackBy asns k = { k with acked := true } := by
  simpa [ackBy, conv] using fun h => absurd held h

section
variable {s : State} {h : FrameHdr} (received : Received s h)
include received

theorem admissionRequest_waits {op : IoOp} {c : IoCmd} {index g : Nat} {n : Ns} (lead : pairRole s = 1)
    (catching : 2 ≤ pairPhase s) (found : ns? s c.nsid = some n) : Does (.admissionRequest h op c index g) s
      (holdCmd { (passCrossing (taken s h) 1 c).1 with host.nextId := s.host.nextId + 1 }
        { id := s.host.nextId, op := op, io := (passCrossing s 1 c).2, gen := g, index := index + 2 ^ 23, origin := 1
          zone := (n.zoneOf c.slba).getD 0, zonesLeft := if c.selectAll then n.zones else [] }) := by
  have here : ns? (taken s h) c.nsid = some n := found
  have atLead : ¬(pairRole s ≠ 1 ∨ pairPhase s < 2) := by omega
  refine congrArg Host.Outcome.next ((receive_taken received _).trans ((if_neg atLead).trans ?_))
  rw [here]
  rfl

theorem conventionalOrder_lead {id nsid lba blocks : Nat} (lead : pairRole s = 1) :
    Does (.conventionalOrder h id nsid lba blocks 0) s
      (sendFrame { taken s h with win.convSeq := s.win.convSeq + 1
                                  win.convOrder := s.win.convOrder ++ [(s.win.convSeq, nsid, lba, blocks)] } 0 0x13
        [id, nsid, lba, blocks, s.win.convSeq]) :=
  congrArg Host.Outcome.next ((receive_taken received _).trans (if_pos lead))

theorem conventionalOrder_follower {id nsid lba blocks seq : Nat} {k : Cmd} (follower : pairRole s = 2)
    (asked : s.host.cmds.find? (fun k => k.id == id && k.stage == .order) = some k) :
    Does (.conventionalOrder h id nsid lba blocks seq) s
      (setCmd { taken s h with win.convSeq := Nat.max s.win.convSeq (seq + 1)
                               win.convOrder := s.win.convOrder ++ [(seq, nsid, lba, blocks)] }
        { k with stage := .waitData, convSeq := some seq }) := by
  have notLead : ¬pairRole s = 1 := by omega
  refine congrArg Host.Outcome.next ((receive_taken received _).trans ((if_neg notLead).trans ?_))
  dsimp only [taken]
  rw [asked]

theorem ledgerRecords_taken {rs : List LedgerRec} (follower : pairRole s = 2) (catching : 2 ≤ pairPhase s) :
    Does (.ledgerRecords h rs) s (settleAsked (rs.foldl takeRecord (taken s h))) := by
  have atFollower : ¬(pairRole s ≠ 2 ∨ pairPhase s < 2) := by omega
  exact congrArg Host.Outcome.next ((receive_taken received _).trans (if_neg atFollower))

theorem holdingAcknowledgement_marks {asns : List Nat} (noHandover : s.pair.handing = false)
    (noSeparation : s.pair.detaching = false) : Does (.holdingAcknowledgement h asns []) s
      { taken s h with host.cmds := s.host.cmds.map (ackBy asns) } := by
  let t : State := { taken s h with host.cmds := s.host.cmds.map (ackBy asns) }
  have settles (applied : Nat) : trySeparate (tryHandover t applied) = t := by
    rw [tryHandover_idle t applied noHandover, trySeparate_idle t noSeparation]
  refine congrArg Host.Outcome.next ((receive_taken received _).trans ?_)
  simp only [ne_eq, not_true_eq_false, and_false, if_false]
  exact settles _

theorem fetchRequest_answered {zone unit count : Nat} : Does (.fetchRequest h zone unit count) s
    ((List.range count).foldl (fun s i => sendUnit s 0 zone (unit + i)) (taken s h)) :=
  congrArg Host.Outcome.next (receive_taken received _)

end

/-! Data frames of the twin (R301, R313, R321, R322, R400). -/

theorem clean_notBad : ¬SramPath.bad ⟨.clean, .clean⟩ = true := by decide

/-- A write data frame to the master, or to a lone device, comes over the Mirror link. -/
theorem writeDataFrame_overLink {s : State} (master : casPos s = 0) :
    ¬(casPos s ≠ 0 ∧ (member s 1).linkUp ∧ !s.pair.linkUp) := fun overCascade => overCascade.1 master

section
variable {s : State} {h : FrameHdr} (received : Received s h) {rid zone unit g : Nat} {content : List Nat}
include received

theorem fetchResponse_overLink :
    ¬(casPos s = 0 ∧ (cmd? s rid).any (fun k => k.stage == .forwarded) ∧ !s.pair.linkUp) := by
  simp [received.1]

theorem fetchResponse_badPath {path : SramPath} (bad : SramPath.bad path = true) :
    Does (.fetchResponse h rid zone unit ⟨content, path⟩ g) s
      (sendFrame (sramPath (taken s h) path) 0 0x12 [rid, zone, unit]) :=
  congrArg Host.Outcome.next ((if_neg (fetchResponse_overLink received)).trans
    ((receive_taken received _).trans (if_pos bad)))

theorem fetchResponse_twinRead {r : RdUnit} (asked : rid ≠ 0) (reads : rdUnit? s rid unit = some r)
    (fromTwin : r.mode = .twin) : Does (.fetchResponse h rid zone unit ⟨content, .clean, .clean⟩ g) s
      (twinAnswer (taken s h) r (if otherGen s zone unit g then [] else content)) := by
  have reads' : rdUnit? (taken s h) rid unit = some r := reads
  refine congrArg Host.Outcome.next ((if_neg (fetchResponse_overLink received)).trans
    ((receive_taken received _).trans ((if_neg clean_notBad).trans ((if_pos asked).trans ?_))))
  dsimp only [sramPath]
  rw [reads']
  exact if_pos fromTwin

theorem fetchResponse_command {k : Cmd} (asked : rid ≠ 0) (noUnit : rdUnit? s rid unit = none)
    (found : cmd? s rid = some k) : Does (.fetchResponse h rid zone unit ⟨content, .clean, .clean⟩ g) s
      (if k.stage ≠ .forwarded ∧ otherGen s zone unit g then keyDiffers (taken s h) k
        else fillRead (taken s h) k unit content) := by
  have noUnit' : rdUnit? (taken s h) rid unit = none := noUnit
  have found' : cmd? (taken s h) rid = some k := found
  refine congrArg Host.Outcome.next ((if_neg (fetchResponse_overLink received)).trans
    ((receive_taken received _).trans ((if_neg clean_notBad).trans ((if_pos asked).trans ?_))))
  dsimp only [sramPath]
  rw [noUnit', found']
  rfl

theorem fetchResponse_placesZoneUnit {n : Ns} (carries : content ≠ []) (ofNs : nsOfZone s zone = some n) :
    Does (.fetchResponse h 0 zone unit ⟨content, .clean, .clean⟩ g) s
      (placeZoneUnit (odBump (taken s h) 0x5020 0x02 0 4096) zone unit g content) := by
  have zoned : (nsOfZone s zone).isSome = true := by rw [ofNs]; rfl
  exact congrArg Host.Outcome.next ((if_neg (fetchResponse_overLink received)).trans
    ((receive_taken received _).trans ((if_neg clean_notBad).trans ((if_neg (by simp)).trans
      ((if_neg carries).trans (if_pos zoned))))))

theorem writeDataFrame_conventional {asn check : Nat} (master : casPos s = 0) (carries : content ≠ [])
    (conventional : 2 ^ 63 ≤ asn) : Does (.writeDataFrame h asn zone unit check ⟨content, .clean, .clean⟩ true) s
      (let t := placeConvUnit (taken s h) zone unit (asn - 2 ^ 63) content
       sendFrame { t with win.convOrder := t.win.convOrder.filter fun e => e.1 != asn - 2 ^ 63 } 0 0x02 [asn]) :=
  congrArg Host.Outcome.next ((if_neg (writeDataFrame_overLink master)).trans ((receive_taken received _).trans
    ((if_neg carries).trans (if_pos conventional))))

theorem writeDataFrame_zoned {asn check : Nat} {last : Bool} {k : Cmd} {n : Ns} (master : casPos s = 0)
    (carries : content ≠ []) (zoned : asn < 2 ^ 63) (found : dataCmd s asn zone unit = some k)
    (ofNs : ns? s k.io.nsid = some n) :
    Does (.writeDataFrame h asn zone unit check ⟨content, .clean, .clean⟩ last) s
      (if last then trySeparate (dataComplete (placeCmdBlocks (taken s h) n k unit content) k asn check)
        else placeCmdBlocks (taken s h) n k unit content) := by
  have found' : dataCmd (taken s h) asn zone unit = some k := found
  have ofNs' : ns? (taken s h) k.io.nsid = some n := ofNs
  refine congrArg Host.Outcome.next ((if_neg (writeDataFrame_overLink master)).trans
    ((receive_taken received _).trans ((if_neg carries).trans ((if_neg (Nat.not_le.2 zoned)).trans ?_))))
  rw [found']
  dsimp only
  rw [ofNs']

end

/-! The resync (R314, R317, R321, R323). -/

section
variable {s : State} {z : Nat}

theorem catchingUp_joins (follower : pairRole s = 2) (catching : pairPhase s = 2)
    (live : od s 0x5000 0x08 ≤ s.adm.nextAsn) : Does .catchingUpDone s (setAna (setPhase s 3) 2) :=
  congrArg Host.Outcome.next (if_pos ⟨follower, catching, live⟩)

theorem resync_inStep (follower : pairRole s = 2) (copying : pairPhase s = 3) (noZone : markedZones s = [])
    (noRegion : s.pair.regions = []) : Does .zoneResyncDone s (loupe (setAna (setPhase s 4) 1) 317 0x50 2 []) :=
  congrArg Host.Outcome.next (if_pos ⟨follower, copying, noZone, noRegion⟩)

theorem resyncCopy_otherPhase (other : pairPhase s ≠ 3) : Does (.resyncZoneCopy z) s s :=
  congrArg Host.Outcome.next (if_pos (.inl other))

section
variable (copying : pairPhase s = 3) (linked : s.pair.linkUp = true)
include copying linked

theorem resync_copies : ¬(pairPhase s ≠ 3 ∨ !s.pair.linkUp) := by simp [copying, linked]

theorem resyncCopy_leadZone (lowest : (markedZones s).min? = some z) (lead : pairRole s = 1) :
    Does (.resyncZoneCopy z) s
      (setZone ((((zone s z).units.map (·.1)).filter fun u => decide ((zone s z).marked.getD 0 ≤ u)).foldl
        (fun s u => odBump (sendUnit s 0 z u) 0x5020 0x02 0 4096) s) z { zone s z with marked := none }) := by
  refine congrArg Host.Outcome.next ((if_neg (resync_copies copying linked)).trans ((if_pos lowest).trans ?_))
  simp only [lead, if_true]

theorem resyncCopy_followerZone (lowest : (markedZones s).min? = some z) (follower : pairRole s = 2) :
    Does (.resyncZoneCopy z) s
      (if pendingUnits s z = [] then setZone s z { zone s z with marked := none }
        else (pendingUnits s z).foldl (fun s u => sendFrame s 0 0x12 [0, z, u]) s) := by
  have notLead : ¬pairRole s = 1 := by omega
  refine congrArg Host.Outcome.next ((if_neg (resync_copies copying linked)).trans ((if_pos lowest).trans ?_))
  simp only [notLead, if_false]

theorem resyncCopy_region {nsid r : Nat} {rest : List (Nat × Nat)} (noZone : markedZones s = [])
    (regions : s.pair.regions = (nsid, r) :: rest) : Does (.resyncZoneCopy z) s
      (if pairRole s = 1 then
        (regionUnits r).foldl (fun s u => odBump (sendUnit s 0 nsid u) 0x5020 0x02 0 4096)
          { s with pair.regions := rest }
       else (regionUnits r).foldl (fun s u => sendFrame s 0 0x12 [0, nsid, u]) { s with pair.regions := rest }) := by
  have noLowest : ¬(markedZones s).min? = some z := by simp [noZone]
  refine congrArg Host.Outcome.next ((if_neg (resync_copies copying linked)).trans ((if_neg noLowest).trans ?_))
  rw [regions]
  exact if_neg (not_not.2 noZone)

end
end

/-- Settles O29: each frame and each step of the resync by its lemma. -/
theorem pairDataFramesAndResync : Obligations.PairDataFramesAndResync := by
  unfold Obligations.PairDataFramesAndResync
  refine ⟨fun s h received => ?_, fun s z => ?_⟩
  · refine ⟨fun op c index g n => admissionRequest_waits received, fun id nsid lba blocks => conventionalOrder_lead received,
      fun id nsid lba blocks seq k => conventionalOrder_follower received, fun r follower catching => ?_,
      fun l noHandover noSeparation => ?_, fun zone unit count => fetchRequest_answered received,
      fun rid zone unit content g => ⟨fun path => fetchResponse_badPath received, fun r => fetchResponse_twinRead received,
        fun k asked noUnit found stage => ?_, fun k asked noUnit found stage other => ?_,
        fun carries n => fetchResponse_placesZoneUnit received carries⟩,
      fun asn zone unit check content master carries => ⟨writeDataFrame_conventional received master carries,
        fun k n zoned found ofNs => ⟨writeDataFrame_zoned (last := false) received master carries zoned found ofNs,
          writeDataFrame_zoned (last := true) received master carries zoned found ofNs⟩⟩⟩
    · have one : Does (.ledgerRecords h [r]) s (settleAsked (takeRecord (taken s h) r)) :=
        ledgerRecords_taken received follower catching
      refine ⟨fun above => ?_, fun below => ?_, fun next => ?_⟩
      · rwa [takeRecord_above (s := taken s h) above] at one
      · rwa [takeRecord_below (s := taken s h) below] at one
      · rw [takeRecord, if_pos next] at one
        exact one
    · refine ⟨_, holdingAcknowledgement_marks received noHandover noSeparation, List.length_map _, rfl,
        fun k here a zoned last held => ?_, fun k here q conv held => ?_⟩
      · exact List.mem_map.2 ⟨k, here, ackBy_asn zoned last held⟩
      · exact List.mem_map.2 ⟨k, here, ackBy_convSeq conv held⟩
    · have command := fetchResponse_command (g := g) (zone := zone) (content := content) received asked noUnit found
      rwa [if_neg fun differs => differs.1 stage] at command
    · have command := fetchResponse_command (g := g) (zone := zone) (content := content) received asked noUnit found
      rwa [if_pos ⟨stage, other⟩] at command
  · refine ⟨catchingUp_joins, fun copying linked lowest => ⟨resyncCopy_leadZone copying linked lowest,
      fun follower lacks => ?_, fun follower lacks => ?_⟩, fun nsid r rest copying linked noZone regions =>
      ⟨fun lead => ?_, fun follower => ?_⟩, resyncCopy_otherPhase, resync_inStep⟩
    · have copy := resyncCopy_followerZone copying linked lowest follower
      rwa [if_neg lacks] at copy
    · have copy := resyncCopy_followerZone copying linked lowest follower
      rwa [if_pos lacks] at copy
    · have copy := resyncCopy_region (z := z) copying linked noZone regions
      rwa [if_pos lead] at copy
    · have copy := resyncCopy_region (z := z) copying linked noZone regions
      rwa [if_neg (by omega)] at copy

/-! The data of an admitted zoned write without protection information (R14, R23, R48). -/

theorem Ns.cut_cut (n : Ns) (v : Nat) : n.cut (n.cut v) = n.cut v := Nat.mod_mod _ _

/-- Block i of a transfer as it is stored. -/
theorem Ns.stored_get (n : Ns) (data metadata : List Nat) {count i : Nat} (h : i < count) :
    (n.toStored (n.extendAll count data metadata))[i]? =
      some (n.flip (n.cut (n.extend (data.getD i 0) (metadata.getD i 0)))) := by
  rw [Ns.toStored, List.getElem?_map, n.extendAll_get count data metadata i h, Option.map_some, Ns.cut_cut]

@[simp] theorem Ns.stored_length (n : Ns) (count : Nat) (data metadata : List Nat) :
    (n.toStored (n.extendAll count data metadata)).length = count := by simp [Ns.toStored]

theorem remapped_noPi {n : Ns} (noPi : n.pit = 0) (c : IoCmd) (append : Bool) (lba : Nat) (l : List Nat) :
    remapped n c append lba l = l := by simp [remapped, noPi]

theorem piFails_noPi {n : Ns} (noPi : n.pit = 0) (c : IoCmd) (l : List Nat) : piFails n c l = none := if_pos (.inl noPi)

section
variable {s : State} {id : Nat} {k : Cmd} {n : Ns} (found : cmd? s id = some k) (ofNs : ns? s k.io.nsid = some n)
  (waits : k.stage = .waitData) (notHere : k.dataHere = false) (own : k.origin = 0)
  (writes : k.op = .write ∨ k.op = .zoneAppend) (rooted : s.ciph.erased = false) (zoned : n.zoned = true)
include found ofNs waits notHere own rooted

theorem writeDataFetch_noRoom (data metadata : List Nat) (staging fifo : PathRes)
    (full : windowRoom s k.io.fn (unitsOf n.bpu (cmdLba k) k.io.nlb).length = false) :
    Does (.writeDataFetch id data metadata staging fifo) s s := by
  show execWriteDataFetch id data metadata staging fifo s = _
  simp [execWriteDataFetch, found, ofNs, waits, notHere, own, rooted, full]

include writes zoned

theorem writeDataFetch_arrives (noPi : n.pit = 0) (data metadata : List Nat) (staging fifo : PathRes)
    (room : windowRoom s k.io.fn (unitsOf n.bpu (cmdLba k) k.io.nlb).length = true) :
    let stored := n.toStored (n.extendAll k.io.nlb data metadata)
    Does (.writeDataFetch id data metadata staging fifo) s
      (sramPath (dataArrived s n k stored stored none) ⟨staging, fifo⟩) := by
  have hasData : zeroData k.op = false := by rcases writes with w | w <;> rw [w] <;> rfl
  show execWriteDataFetch id data metadata staging fifo s = _
  simp [execWriteDataFetch, found, ofNs, waits, notHere, own, rooted, room, zoned, hasData, remapped_noPi noPi,
    piFails_noPi noPi, piStatus]

end

theorem setZone_sameBlocks {s : State} (wf : kvWf {} s.zones) {z : Nat} {v : Zone} (y : Nat)
    (same : v.blocks = (zone s z).blocks) : (zone (setZone s z v) y).blocks = (zone s y).blocks := by
  by_cases here : y = z
  · subst here
    rw [zone_setZone s y v wf, same]
  · exact congrArg Zone.blocks (kvGet_put_other _ _ _ _ _ wf here)

/-- Storing units in the window leaves the commands, the dictionary and every zone's blocks alone. -/
def HoldsBlocks (s t : State) : Prop :=
  t.host.cmds = s.host.cmds ∧ t.dict = s.dict ∧ kvWf {} t.zones ∧ ∀ z, (zone t z).blocks = (zone s z).blocks

theorem holdUnits_holdsBlocks {s : State} (wf : kvWf {} s.zones) (z fn : Nat) (us : List Nat) :
    HoldsBlocks s (holdUnits s z fn us) := by
  refine foldl_holds (HoldsBlocks s) _ (fun t u held => ?_) us s ⟨rfl, rfl, wf, fun _ => rfl⟩
  dsimp only
  split
  · exact held
  · obtain ⟨cmds, dict, wf', blocks⟩ := held
    refine ⟨cmds, dict, kvWf_put _ _ _ _ wf', fun y => ?_⟩
    rw [setFn_zone]
    show (zone (setZone t z _) y).blocks = _
    rw [setZone_sameBlocks wf', blocks]
    rfl

theorem storeZone_stores {s : State} (wf : kvWf {} s.zones) {n : Ns} {k : Cmd} (current : overtaken s k = false)
    (kept : List Nat) : let t := storeZone s n k k.zone kept
    t.host.cmds = s.host.cmds ∧ t.dict = s.dict ∧
      (zone t k.zone).blocks = kvPutRun 0 (n.offset (cmdLba k)) kept (zone s k.zone).blocks := by
  let v : Zone := { zone s k.zone with blocks := kvPutRun 0 (n.offset (cmdLba k)) kept (zone s k.zone).blocks }
  have stores : storeZone s n k k.zone kept =
      holdUnits (setZone s k.zone v) k.zone k.io.fn (unitsOf n.bpu (n.offset (cmdLba k)) k.io.nlb) :=
    if_neg (by simp [current])
  obtain ⟨cmds, dict, _, blocks⟩ := holdUnits_holdsBlocks (s := setZone s k.zone v) (kvWf_put _ _ _ _ wf) k.zone k.io.fn
    (unitsOf n.bpu (n.offset (cmdLba k)) k.io.nlb)
  intro t
  rw [show t = _ from stores]
  exact ⟨cmds, dict, (blocks k.zone).trans (congrArg Zone.blocks (zone_setZone s k.zone v wf))⟩

theorem feedReads_noReader {s : State} {w : Cmd} (noReader : ∀ r ∈ s.host.cmds, w.id ∉ r.waits) (data : List Nat) :
    feedReads s w data = s := by
  have noneWaits : (s.host.cmds.filter fun r => r.waits.contains w.id) = [] :=
    List.filter_eq_nil_iff.2 fun r here => by simpa using noReader r here
  rw [feedReads, noneWaits, List.foldl_nil]

/-- A write whose data is held here. -/
def dataHeldCmd (k : Cmd) (kept : List Nat) : Cmd := { k with dataHere := true, stage := .dataIn, data := kept }

/-- On a lone device the data of a zoned write is stored and counted at its function, and no frame goes out. -/
theorem dataArrived_zoned {s : State} {n : Ns} {k : Cmd} {kept : List Nat} (zoned : n.zoned = true)
    (carries : kept ≠ []) (alone : pairRole (storeZone s n k k.zone kept) = 0) : ∃ f, dataArrived s n k kept kept none =
      feedReads (setFn (setCmd (storeZone s n k k.zone kept) (dataHeldCmd k kept)) k.io.fn f) (dataHeldCmd k kept) kept := by
  generalize hu : storeZone s n k k.zone kept = u at alone
  refine ⟨{ fnc u k.io.fn with writeUnits := (fnc u k.io.fn).writeUnits + k.io.nlb }, ?_⟩
  unfold dataArrived
  simp only [zoned, Bool.not_true, Bool.false_and, if_true, Option.getD_none, Bool.or_false, carries, and_false, if_false,
    Bool.false_eq_true, hu]
  exact congrArg (feedReads · _ _) (if_neg fun paired => paired.1 alone)

/-- On a lone device, with no read waiting for it, the data of a zoned write goes to its blocks, and the command waits
with its data here. -/
theorem dataArrived_alone {s : State} (wf : kvWf {} s.zones) {n : Ns} {k : Cmd} (current : overtaken s k = false)
    (zoned : n.zoned = true) (alone : pairRole s = 0) (held : k ∈ s.host.cmds)
    (noReader : ∀ r ∈ s.host.cmds, k.id ∉ r.waits) {kept : List Nat} (carries : kept ≠ []) :
    let t := dataArrived s n k kept kept none
    (zone t k.zone).blocks = kvPutRun 0 (n.offset (cmdLba k)) kept (zone s k.zone).blocks ∧
      dataHeldCmd k kept ∈ t.host.cmds := by
  obtain ⟨cmds, dict, blocks⟩ := storeZone_stores wf (n := n) current kept
  have alone' : pairRole (storeZone s n k k.zone kept) = 0 := by rw [pairRole, od, dict]; exact alone
  intro t
  obtain ⟨f, arrives⟩ := dataArrived_zoned zoned carries alone'
  generalize storeZone s n k k.zone kept = u at *
  have cmds' : (setCmd u (dataHeldCmd k kept)).host.cmds =
      s.host.cmds.map fun d => if d.id = k.id then dataHeldCmd k kept else d := congrArg _ cmds
  have noReader' : ∀ r ∈ (setCmd u (dataHeldCmd k kept)).host.cmds, (dataHeldCmd k kept).id ∉ r.waits := by
    rw [cmds']
    rintro _ here
    obtain ⟨d, among, rfl⟩ := List.mem_map.1 here
    split
    · exact noReader k held
    · exact noReader d among
  have t_eq : t = setFn (setCmd u (dataHeldCmd k kept)) k.io.fn f :=
    arrives.trans (feedReads_noReader (s := setFn (setCmd u (dataHeldCmd k kept)) k.io.fn f) noReader' kept)
  rw [t_eq]
  refine ⟨blocks, ?_⟩
  show _ ∈ (setCmd u (dataHeldCmd k kept)).host.cmds
  rw [cmds']
  exact List.mem_map.2 ⟨k, held, if_pos rfl⟩

theorem cmd?_id {s : State} {id : Nat} {k : Cmd} (found : cmd? s id = some k) : k.id = id := by
  simpa using List.find?_some found

theorem cmd?_mem {s : State} {id : Nat} {k : Cmd} (found : cmd? s id = some k) : k ∈ s.host.cmds :=
  List.mem_of_find?_eq_some found

/-! Completion (R24, R100). -/

theorem postWriteCompletion_early {s : State} {id : Nat} {k : Cmd} (found : cmd? s id = some k)
    (notHere : k.dataHere = false) : Does (.postWriteCompletion id) s s := by
  show execPostWriteCompletion id s = _
  simp [execPostWriteCompletion, found, notHere]

/-- The state in which a write ends: its last record is sealed, where it has data to seal. -/
def sealOwn (s : State) (n : Ns) (k : Cmd) : State :=
  match k.asns.getLast? with
  | some asn => if opWrites k.op ∧ k.op ≠ .writeZeroes then sealRecord s asn k.status (dataCheck n.lbaf k.data) else s
  | none => s

theorem postWriteCompletion_finishes {s : State} {id : Nat} {k : Cmd} {n : Ns} (found : cmd? s id = some k)
    (ofNs : ns? s k.io.nsid = some n) (stage : k.stage = .dataIn) (here : k.dataHere = true) (alone : joined s = false)
    (last : k.ranges = []) : Does (.postWriteCompletion id) s (finishCmd (sealOwn s n k) k) := by
  show execPostWriteCompletion id s = _
  have ready : ¬(!k.dataHere ∨ k.stage ≠ .dataIn ∨ (joined s ∧ !k.acked)) := by simp [here, stage, alone]
  rw [execPostWriteCompletion, found]
  dsimp only
  rw [if_neg ready, ofNs, last]
  rfl

theorem sealOwn_write {s : State} {n : Ns} {k : Cmd} {asn : Nat} (write : k.op = .write)
    (last : k.asns.getLast? = some asn) : sealOwn s n k = sealRecord s asn k.status (dataCheck n.lbaf k.data) := by
  simp [sealOwn, last, write, opWrites]

/-- Sealing a record leaves the host, the namespaces, and the power state alone. -/
abbrev Seals (s t : State) : Prop := t.host = s.host ∧ t.nss = s.nss ∧ t.power = s.power

theorem Seals.genOk {s t : State} (seals : Seals s t) (fn gen : Nat) : genOk t fn gen = genOk s fn gen := by
  unfold Machine.genOk curGen fnc
  rw [seals.1]

theorem sealRecord_seals (s : State) (asn status check : Nat) : Seals s (sealRecord s asn status check) := by
  unfold sealRecord
  dsimp only
  split
  · split <;> exact ⟨rfl, rfl, rfl⟩
  · exact ⟨rfl, rfl, rfl⟩

theorem sealOwn_seals (s : State) (n : Ns) (k : Cmd) : Seals s (sealOwn s n k) := by
  unfold sealOwn
  split
  · split
    · exact sealRecord_seals ..
    · exact ⟨rfl, rfl, rfl⟩
  · exact ⟨rfl, rfl, rfl⟩

/-- Settles O11: the fetch stores what the key stores, and the completion seals and posts. -/
theorem writeDataAndCompletion : Obligations.WriteDataAndCompletion := by
  unfold Obligations.WriteDataAndCompletion
  intro s id k n found ofNs
  refine ⟨?_, ?_, ?_, postWriteCompletion_early found⟩
  · intro data metadata staging fifo waits notHere own writes rooted zoned noPi stored
    refine ⟨writeDataFetch_arrives found ofNs waits notHere own writes rooted zoned noPi data metadata staging fifo, ?_,
      writeDataFetch_noRoom found ofNs waits notHere own rooted data metadata staging fifo⟩
    intro room alone current noReader nonempty wf wfBlocks
    have length : stored.length = k.io.nlb := Ns.stored_length ..
    have carries : stored ≠ [] := List.ne_nil_of_length_pos (length ▸ nonempty)
    obtain ⟨blocks, here⟩ := dataArrived_alone wf current zoned alone (cmd?_mem found)
      (fun r among => cmd?_id found ▸ noReader r among) carries
    refine ⟨dataArrived s n k stored stored none,
      writeDataFetch_arrives found ofNs waits notHere own writes rooted zoned noPi data metadata .clean .clean room,
      fun i inside => ?_, dataHeldCmd k stored, here, cmd?_id (k := k) found, rfl, rfl⟩
    have among : i < stored.length := length ▸ inside
    rw [blocks, kvGet_putRun_self _ _ _ _ _ wfBlocks among]
    exact Option.some.inj ((List.getElem?_eq_getElem among).symm.trans (n.stored_get data metadata inside))
  · intro stage here alone last write asn lastAsn
    rw [← sealOwn_write write lastAsn]
    exact postWriteCompletion_finishes found ofNs stage here alone last
  · intro stage here alone last own quiet noSanitize running live wf
    refine ⟨_, postWriteCompletion_finishes found ofNs stage here alone last, ?_⟩
    have seals := sealOwn_seals s n k
    have live' := (seals.genOk k.io.fn k.gen).trans live
    obtain ⟨host, nss, power⟩ := seals
    have quiet' : ∀ m, ns? (sealOwn s n k) k.io.nsid = some m → m.ending = none := by
      rw [show ns? (sealOwn s n k) k.io.nsid = some n from (congrArg _ nss).trans ofNs]
      rintro _ ⟨⟩
      exact quiet
    have posts := finish_posts (sealOwn s n k) k .none quiet' (by rwa [host]) own (by rwa [power]) (by rwa [host]) live'
    rwa [host] at posts

/-! Host commands reach their meanings: the read path, and the admission point (R65, R66, R69, R70, R83). -/

theorem served_inService {s : State} {op : IoOp} {c : IoCmd} {n : Ns} (served : Served s op c n) :
    inService s = true := by
  have taken := served.1
  simp only [accepts, Bool.and_eq_true] at taken
  exact taken.1.1.1.1

section
variable {s : State} {c : IoCmd} {n : Ns}

theorem read_reaches (served : Served s .read c n) :
    Does (.read c) s (serveRead (upState s .read c) n (upCmd s .read c)) :=
  congrArg Host.Outcome.next ((withChecks_served served _).trans (withNs_served served _))

theorem compare_reaches (data : List Nat) (served : Served s .compare c n) : Does (.compare c data) s
    (serveRead (upState s .compare c) n { upCmd s .compare c with cmp := data }) :=
  congrArg Host.Outcome.next ((withChecks_served served _).trans (withNs_served served _))

theorem verify_reaches (served : Served s .verify c n) :
    Does (.verify c) s (serveRead (upState s .verify c) n (upCmd s .verify c)) :=
  congrArg Host.Outcome.next ((withChecks_served served _).trans (withNs_served served _))

theorem zoneAppend_reaches (served : Served s .zoneAppend c n) :
    Does (.zoneAppend c) s (toPoint (upState s .zoneAppend c) n (upCmd s .zoneAppend c)) :=
  congrArg Host.Outcome.next ((withChecks_served served _).trans (withNs_served served _))

theorem write_reaches (zoned : n.zoned = true) (served : Served s .write c n) :
    Does (.write c) s (toPoint (upState s .write c) n (upCmd s .write c)) :=
  congrArg Host.Outcome.next ((withChecks_served served _).trans ((withNs_served served _).trans (if_pos zoned)))

theorem writeZeroes_reaches (zoned : n.zoned = true) (served : Served s .writeZeroes c n) :
    Does (.writeZeroes c) s (toPoint (upState s .writeZeroes c) n (upCmd s .writeZeroes c)) :=
  congrArg Host.Outcome.next ((withChecks_served served _).trans ((withNs_served served _).trans (if_pos zoned)))

theorem zoneSend_reaches {a : ZoneAct} (served : Served s (.zoneSend a) c n) :
    zoneSend a c s = toPoint (upState s (.zoneSend a) c) n (upCmd s (.zoneSend a) c) :=
  (withChecks_served served _).trans (withNs_served served _)

section
variable {z : Nat} (served : Served s (.zoneSend .offlineZ) c n) (single : c.selectAll = false)
  (inZone : n.zoneOf c.slba = some z)
include served single inZone

theorem offlineZone_reaches (free : zoneStep s z = false) : Does (.offlineZone c) s
    (toPoint (upState s (.zoneSend .offlineZ) c) n (upCmd s (.zoneSend .offlineZ) c)) := by
  show execOfflineZone c s = _
  simp [execOfflineZone, served.2.2, single, inZone, free, zoneSend_reaches served]

theorem offlineZone_refused (held : zoneStep s z = true) : Does (.offlineZone c) s
    (refuseStep (upState s (.zoneSend .offlineZ) c) (upCmd s (.zoneSend .offlineZ) c)) := by
  show execOfflineZone c s = _
  simp [execOfflineZone, served.2.2, single, inZone, held, withChecks_served served]

end

/-- The wait that a refusal names is one slot at most, in units of 100 µs (R83, log entry 106). -/
theorem stepWait_bounds (slot : 0 < s.sched.slotUs) : 1 ≤ stepWait s ∧ stepWait s ≤ (s.sched.slotUs + 99) / 100 := by
  have units : 0 < ceilDiv s.sched.slotUs 100 := by unfold ceilDiv; omega
  have below := Nat.mod_lt (freeVal s) units
  unfold stepWait
  unfold ceilDiv at below ⊢
  omega

end

/-! Reads of an Empty zone (R74, R76). -/

section
variable {s : State} {op : IoOp} {c : IoCmd} {n : Ns} (served : Served s op c n)
  (live : genOk s c.fn (upCmd s op c).gen = true) (wf : kvWf {} s.host.fns)
include served live wf

/-- A read that ends leaves one completion, whatever it counts at its function. -/
theorem readEnd_posts (k0 k : Cmd) (io : k.io = (upCmd s op c).io) (gen : k.gen = (upCmd s op c).gen)
    (own : k.origin = 0) (dw0 : k.dw0 = 0) (dw1 : k.dw1 = 0) (units : Nat) (p : Payload) :
    let t := holdCmd (placeGrant (upState s op c) 0 0) k0
    Posts s (finishCmd (setFn t k.io.fn { fnc t k.io.fn with readUnits := units }) k p) c k.status 0 p := by
  intro t
  let f : Fn := { fnc t k.io.fn with readUnits := units }
  obtain ⟨quiet, noSanitize, running⟩ := served_quiet served
  have found : ∀ m, ns? (setFn t k.io.fn f) k.io.nsid = some m → m.ending = none := by
    rw [io]
    intro m here
    obtain rfl : n = m := Option.some.inj (served.2.2.symm.trans here)
    exact quiet
  have live' : genOk (setFn t k.io.fn f) k.io.fn k.gen = true := by
    refine (genOk_setFn t k.io.fn k.io.fn k.gen f wf rfl rfl).trans ?_
    rw [io, gen]
    exact live
  have posts := finish_posts _ k p found noSanitize own running (kvWf_put _ _ _ _ wf) live'
  exact posts.trans (by rw [io, dw0, dw1]; rfl)

variable {z : Nat} (zoned : n.zoned = true) (noExtents : n.extents = []) (noPi : n.pit = 0) (nonempty : 0 < c.nlb)
  (inZone : ∀ i < c.nlb, n.zoneOf (c.slba + i) = some z) (empty : (zone s z).st = .empty) (alone : s.host.cmds = [])
include zoned noExtents noPi nonempty inZone empty alone

theorem emptyZone_readPosts (data : List Nat) :
    let zeroes := List.replicate c.nlb (n.flip 0)
    let status := if op = .compare ∧ data ≠ zeroes then 0x285 else 0
    Posts s (serveRead (upState s op c) n { upCmd s op c with cmp := data }) c status 0
      (if op = .read ∧ status = 0 then .blocks zeroes else .none) := by
  intro zeroes status
  let k0 : Cmd := { upCmd s op c with
    cmp := data, stage := .reading, snap := List.replicate c.nlb (some 0), waits := [], need := [] }
  have result : { k0 with status := status } = if 0 = 0 ∧ op = .compare ∧ data ≠ zeroes then
      { k0 with status := stCompare } else k0 := by
    by_cases differs : op = .compare ∧ data ≠ zeroes
    · simp [status, differs, stCompare]
    · rw [if_neg fun d => differs d.2]
      simp only [status, if_neg differs]
      rfl
  have ends := serveRead_zero_ends (upState s op c) n { upCmd s op c with cmp := data } served.2.2 noExtents zoned noPi z
    nonempty inZone empty alone { k0 with status := status } result
  rw [ends]
  exact readEnd_posts served live wf k0 { k0 with status := status } rfl rfl rfl rfl rfl _ _

end

/-! Commands that wait for their admission (R65, R69, R70). -/

theorem seekPoint_here {s : State} (notFollower : pairRole s ≠ 2) (k : Cmd) :
    seekPoint s k = setCmd s { k with stage := .point } := if_pos notFollower

section
variable {s : State} {c : IoCmd} {n : Ns} {z : Nat} (unspent : s.adm.spent = false) (notFollower : pairRole s ≠ 2)
  (single : c.selectAll = false) (inZone : n.zoneOf c.slba = some z)
  (here : n.posOf c.slba = none ∨ n.posOf c.slba = some (casPos s))
include unspent notFollower single inZone here

theorem toPoint_here (op : IoOp) : toPoint (upState s op c) n (upCmd s op c) =
    setCmd (holdCmd (upState s op c) { upCmd s op c with zone := z })
      { upCmd s op c with zone := z, stage := .point } := by
  have single' : (upCmd s op c).io.selectAll = false := single
  have slba : (upCmd s op c).io.slba = c.slba := rfl
  have pos : casPos (upState s op c) = casPos s := rfl
  have unspent' : (upState s op c).adm.spent = false := unspent
  have seeks := seekPoint_here (s := holdCmd (upState s op c) { upCmd s op c with zone := z }) notFollower
  unfold toPoint
  rcases here with noExtent | ours
  · simp [single', slba, noExtent, unspent', inZone, seeks]
  · simp [single', slba, ours, pos, unspent', inZone, seeks]

theorem waitsAtPoint {i : Instr} {op : IoOp}
    (reaches : Does i s (toPoint (upState s op c) n (upCmd s op c))) : ∃ t, Does i s t ∧
      { upCmd s op c with zone := z, stage := .point } ∈ t.host.cmds ∧ t.zones = s.zones ∧
      t.adm.nextAsn = s.adm.nextAsn := by
  rw [toPoint_here unspent notFollower single inZone here] at reaches
  refine ⟨_, reaches, ?_, rfl, rfl⟩
  exact List.mem_map.2 ⟨{ upCmd s op c with zone := z }, List.mem_append_right _ (List.mem_singleton_self _), if_pos rfl⟩

end

/-! The admission of a lone command (R28, R65). -/

section
variable {s : State} {c : IoCmd} {n : Ns} {z : Nat} (calm : Calm s) (writable : s.adm.preserve = false)
  (wf : kvWf {} s.zones) (noExtents : n.extents = []) (single : c.selectAll = false) (inZone : n.zoneOf c.slba = some z)
include calm writable wf noExtents single inZone

theorem lone_sends {i : Instr} {a : ZoneAct} (atStart : c.slba = n.startOf z) (served : Served s (.zoneSend a) c n)
    (allowed : sendOutcome s n z s.adm.nextAsn a = { status := 0 })
    (erased : rowHeld s n (upCmd s (.zoneSend a) c) z = false)
    (opened : a = .closeZ → (zone s z).st.isOpen = true)
    (reaches : Does i s (toPoint (upState s (.zoneSend a) c) n (upCmd s (.zoneSend a) c))) :
    ∃ t u, Does i s t ∧ Does .asnSequencerPick t u ∧ (zone u z).st = sentTo s z a ∧
      u.adm.nextAsn = s.adm.nextAsn + 1 := by
  obtain ⟨noCmds, noDue, noClose, alone, unfenced, unspent, more, room, noMembers⟩ := calm
  obtain ⟨quiet, noSanitize, _⟩ := served_quiet served
  exact calm_to s c n z a i noCmds noDue noClose alone unfenced unspent more room noMembers writable wf noExtents single inZone
    atStart served quiet noSanitize (served_inService served) reaches allowed erased opened

theorem lone_writes {i : Instr} {op : IoOp} (served : Served s op c n) (write : ∀ a, op ≠ .zoneSend a)
    (reaches : Does i s (toPoint (upState s op c) n (upCmd s op c)))
    (allowed : writeOutcome s n z s.adm.nextAsn op c.slba c.nlb = { status := 0 })
    (erased : rowHeld s n (upCmd s op c) z = false) :
    ∃ t u, Does i s t ∧ Does .asnSequencerPick t u ∧ (zone u z).wp = (zone s z).wp + c.nlb ∧
      (zone u z).st = (if n.zcap ≤ (zone s z).wp + c.nlb then .full
        else if (zone s z).st = .explOpen then .explOpen else .implOpen) ∧ u.adm.nextAsn = s.adm.nextAsn + 1 := by
  obtain ⟨noCmds, noDue, noClose, alone, unfenced, unspent, more, room, noMembers⟩ := calm
  obtain ⟨quiet, noSanitize, _⟩ := served_quiet served
  exact calm_tow s c n z op i noCmds noDue noClose alone unfenced unspent more room noMembers writable wf noExtents single
    inZone served quiet noSanitize (served_inService served) reaches write allowed erased

end

/-- Settles O1: reads by the read path, waits at the point, lone admissions, and the refusal of an Offline. -/
theorem hostReadsAndZoneCommands : Obligations.HostReadsAndZoneCommands := by
  unfold Obligations.HostReadsAndZoneCommands
  refine ⟨fun s c n => ⟨read_reaches, compare_reaches, verify_reaches⟩, ?_, ?_, ?_, ?_, ?_⟩
  · intro s c n z zoned noExtents noPi nonempty inZone empty alone wf
    refine ⟨fun served live => ⟨_, read_reaches served, ?_⟩, fun data served live => ⟨_, compare_reaches data served, ?_⟩,
      fun served live => ⟨_, verify_reaches served, ?_⟩⟩
    · exact emptyZone_readPosts served live wf zoned noExtents noPi nonempty inZone empty alone []
    · have posts := emptyZone_readPosts served live wf zoned noExtents noPi nonempty inZone empty alone data
      simpa [ite_not] using posts
    · exact emptyZone_readPosts served live wf zoned noExtents noPi nonempty inZone empty alone []
  · intro s c n z unspent notFollower single inZone here waits
    have wait {i : Instr} {op : IoOp} := waitsAtPoint unspent notFollower single inZone here (i := i) (op := op)
    exact ⟨fun served => wait (zoneAppend_reaches served),
      fun served => wait (congrArg _ (zoneSend_reaches served)), fun served => wait (congrArg _ (zoneSend_reaches served)),
      fun served => wait (congrArg _ (zoneSend_reaches served)), fun served => wait (congrArg _ (zoneSend_reaches served)),
      fun free served => wait (offlineZone_reaches served single inZone free),
      fun zoned => ⟨fun served => wait (write_reaches zoned served), fun served => wait (writeZeroes_reaches zoned served)⟩⟩
  · intro s c n z calm writable wf noExtents single inZone atStart goes
    have send {i : Instr} {a : ZoneAct} := lone_sends calm writable wf noExtents single inZone (i := i) (a := a) atStart
    refine ⟨fun served allowed erased => ?_, fun opened served allowed erased => ?_, fun served allowed erased => ?_,
      fun served allowed erased => ?_, fun free served allowed erased => ?_⟩
    · exact send served allowed erased nofun (congrArg _ (zoneSend_reaches served))
    · exact send served allowed erased (fun _ => opened) (congrArg _ (zoneSend_reaches served))
    · exact send served allowed erased nofun (congrArg _ (zoneSend_reaches served))
    · exact send served allowed erased nofun (congrArg _ (zoneSend_reaches served))
    · exact send served allowed erased nofun (offlineZone_reaches served single inZone free)
  · intro s c n z calm writable wf noExtents single inZone puts
    have put {i : Instr} {op : IoOp} := lone_writes calm writable wf noExtents single inZone (i := i) (op := op)
    exact ⟨fun served => put served nofun (zoneAppend_reaches served),
      fun zoned => ⟨fun served => put served nofun (write_reaches zoned served),
        fun served => put served nofun (writeZeroes_reaches zoned served)⟩⟩
  · intro s c n z served single inZone held slot
    obtain ⟨atLeast, atMost⟩ := stepWait_bounds (s := upState s (.zoneSend .offlineZ) c) slot
    exact ⟨_, atLeast, atMost, offlineZone_refused served single inZone held⟩

end Sys2Proof.Machine

namespace Sys2Proof.Machine

open Sys2Proof

/-! Host commands that end where they are taken up (R52 to R56, R77, R87, log entry 14). -/

section
variable {s : State} {op : IoOp} {c : IoCmd} {n : Ns}

/-- A served command runs its own effect on its namespace, in the state that has taken it up. -/
theorem withChecks_withNs_served (served : Served s op c n) (effect : State → Cmd → Ns → State) :
    withChecks s op c (fun t k => withNs t k (effect t k)) = effect (upState s op c) (upCmd s op c) n :=
  (withChecks_served served _).trans (withNs_served served _)

theorem withChecks_failed {st : Nat} (taken : accepts s c.fn = true) (failed : checks s op c = some st)
    (effect : State → Cmd → State) :
    withChecks s op c effect = finishCmd (upState s op c) { upCmd s op c with status := st } := by
  simp [withChecks, taken, failed]

theorem checks_other (opcode : Nat) : checks s (.other opcode) c = some 0x001 := rfl

theorem checks_read_noNamespace (missing : ns? s c.nsid = none) (fields : c.badField = false)
    (directive : dspecOk (List.range 64) c = true) : checks s .read c = some 0x00B := by
  simp [checks, missing, fields, directive, opOnKind, stNamespace]

section
variable (served : Served s op c n)
include served

theorem served_nsid : n.nsid = c.nsid := by
  obtain ⟨_, _, found⟩ := served
  exact ns?_nsid found

/-- Nothing else ends with a served command: its namespace is not ending and no sanitize runs. -/
theorem finishServed_endCmd (st dw0 : Nat) (p : Payload) :
    finishCmd (upState s op c) { upCmd s op c with status := st, dw0 := dw0 } p =
      endCmd (upState s op c) { upCmd s op c with status := st, dw0 := dw0 } p := by
  obtain ⟨quiet, noSanitize, _⟩ := served_quiet served
  obtain ⟨_, _, found⟩ := served
  refine finishCmd_quiet _ _ p (fun m here => ?_) noSanitize rfl
  obtain rfl : n = m := Option.some.inj (found.symm.trans here)
  exact quiet

theorem finishServed_posts (live : genOk s c.fn (upCmd s op c).gen = true) (wf : kvWf {} s.host.fns) (st dw0 : Nat)
    (p : Payload) :
    Posts s (finishCmd (upState s op c) { upCmd s op c with status := st, dw0 := dw0 } p) c st dw0 p := by
  obtain ⟨_, _, running⟩ := served_quiet served
  rw [finishServed_endCmd served]
  exact endCmd_posts _ _ p rfl running wf live

theorem finishServed_keeps (st dw0 : Nat) (p : Payload) :
    let t := finishCmd (upState s op c) { upCmd s op c with status := st, dw0 := dw0 } p
    t.zones = s.zones ∧ t.nss = s.nss := by
  intro t
  obtain ⟨u, q, ⟨f, d, rfl⟩, ends⟩ :=
    endCmd_writes (upState s op c) { upCmd s op c with status := st, dw0 := dw0 } p rfl
  have same : t = _ := (finishServed_endCmd served st dw0 p).trans ends
  rw [same]
  exact ⟨rfl, rfl⟩

/-- A command that does no more than end posts its completion and leaves the zones and the namespaces. -/
theorem posts_of_finishes {i : Instr} {st : Nat} {p : Payload}
    (reaches : Does i s (finishCmd (upState s op c) { upCmd s op c with status := st } p))
    (live : genOk s c.fn (upCmd s op c).gen = true) (wf : kvWf {} s.host.fns) :
    ∃ t, Does i s t ∧ Posts s t c st 0 p ∧ t.zones = s.zones ∧ t.nss = s.nss :=
  ⟨_, reaches, finishServed_posts served live wf st 0 p, finishServed_keeps served st 0 p⟩

end

end

/-! Conventional writes, zeroing, deallocation and Flush (R53, R54, R82, R87). -/

/-- A conventional write of a device without a twin, with its place in the order of the writes (R82). -/
def convOrdered (s : State) (k : Cmd) : State :=
  let t := placeGrant s 1 1
  holdCmd { t with win.convSeq := s.win.convSeq + 1
                   win.convOrder := s.win.convOrder ++ [(s.win.convSeq, k.io.nsid, k.io.slba, k.io.nlb)] }
    { k with stage := .waitData, convSeq := some s.win.convSeq }

section
variable {s : State} {k : Cmd}

theorem convWrite_preserve (preserve : s.adm.preserve = true) :
    convWrite s k = finishCmd s { k with status := 0x0C6 } := if_pos preserve

theorem convWrite_alone (writable : s.adm.preserve = false) (alone : pairRole s = 0) :
    convWrite s k = convOrdered s k := by
  unfold convWrite
  rw [if_neg (by simp [writable]), if_neg (by simp [alone])]
  dsimp only
  split
  next lead => exact absurd (alone.symm.trans lead.1) (by decide)
  next => rfl

end

section
variable {s : State} {c : IoCmd} {n : Ns}

section
variable (conv : n.zoned = false)
include conv

theorem convWrite_reaches (served : Served s .write c n) :
    Does (.write c) s (convWrite (upState s .write c) (upCmd s .write c)) :=
  congrArg Host.Outcome.next ((withChecks_withNs_served served _).trans (if_neg (by simp [conv])))

theorem writeZeroes_preserve (alone : pairRole s = 0) (preserve : s.adm.preserve = true)
    (served : Served s .writeZeroes c n) : Does (.writeZeroes c) s
      (finishCmd (upState s .writeZeroes c) { upCmd s .writeZeroes c with status := 0x0C6 }) :=
  congrArg Host.Outcome.next <| (withChecks_withNs_served served _).trans <|
    (if_neg (by simp [conv])).trans <| (if_neg (not_not.2 alone)).trans (if_pos preserve)

theorem writeZeroes_clears (alone : pairRole s = 0) (writable : s.adm.preserve = false)
    (served : Served s .writeZeroes c n) : Does (.writeZeroes c) s
      (finishCmd (convClear (upState s .writeZeroes c) c.nsid c.slba c.nlb) (upCmd s .writeZeroes c)) := by
  rw [← served_nsid served]
  exact congrArg Host.Outcome.next <| (withChecks_withNs_served served _).trans <|
    (if_neg (by simp [conv])).trans <| (if_neg (not_not.2 alone)).trans (if_neg (ne_true_of_eq_false writable))

theorem deallocate_clears {l : List (Nat × Nat)} (alone : pairRole s = 0) (writable : s.adm.preserve = false)
    (inside : ∀ r ∈ l, r.1 + r.2 ≤ n.lbas) (served : Served s .dsm c n) : Does (.datasetManagement c true l) s
      (finishCmd (l.foldl (fun t r => convClear t c.nsid r.1 r.2) (upState s .dsm c)) (upCmd s .dsm c)) := by
  have inRange : ¬(l.any fun r => decide (n.lbas < r.1 + r.2)) = true := by simpa using inside
  rw [← served_nsid served]
  exact congrArg Host.Outcome.next <| (withChecks_withNs_served served _).trans <|
    (if_neg (by simp [conv])).trans <| (if_neg (by decide)).trans <| (if_neg inRange).trans <|
    (if_neg (ne_true_of_eq_false writable)).trans (if_neg (not_not.2 alone))

end

theorem deallocate_zoned (zoned : n.zoned = true) (l : List (Nat × Nat)) (served : Served s .dsm c n) :
    Does (.datasetManagement c true l) s
      (finishCmd (upState s .dsm c) { upCmd s .dsm c with status := 0x002 }) :=
  congrArg Host.Outcome.next ((withChecks_withNs_served served _).trans (if_pos (by simp [zoned])))

theorem hint_ends (l : List (Nat × Nat)) (served : Served s .dsm c n) :
    Does (.datasetManagement c false l) s (finishCmd (upState s .dsm c) (upCmd s .dsm c)) :=
  congrArg Host.Outcome.next ((withChecks_withNs_served served _).trans ((if_neg (by simp)).trans (if_pos rfl)))

theorem flush_ends (noParts : remotePositions s n = []) (served : Served s .flush c n) :
    Does (.flush c) s (finishCmd (upState s .flush c) (upCmd s .flush c)) := by
  refine congrArg Host.Outcome.next ((withChecks_withNs_served served _).trans ?_)
  have noParts' : remotePositions (upState s .flush c) n = [] := noParts
  rw [noParts']

theorem remotePositions_noExtents (noExtents : n.extents = []) : remotePositions s n = [] := by
  simp [remotePositions, noExtents]

end

/-- Settles O2: the order of a lone device's writes, the zeroed ranges, the preserve state and the Flush. -/
theorem conventionalWritesAndFlush : Obligations.ConventionalWritesAndFlush := by
  unfold Obligations.ConventionalWritesAndFlush
  intro s c n
  refine ⟨fun conv writable alone served => ?_, fun conv writable alone => writeZeroes_clears conv alone writable,
    fun conv preserve served => ?_, fun conv preserve alone => writeZeroes_preserve conv alone preserve,
    fun l conv writable alone inside => deallocate_clears conv alone writable inside, flush_ends,
    fun noExtents served => posts_of_finishes served (flush_ends (remotePositions_noExtents noExtents) served)⟩
  · refine ⟨convOrdered (upState s .write c) (upCmd s .write c), ?_, rfl, rfl, rfl, rfl, rfl⟩
    rw [← convWrite_alone (s := upState s .write c) writable alone]
    exact convWrite_reaches conv served
  · rw [← convWrite_preserve (s := upState s .write c) preserve]
    exact convWrite_reaches conv served

/-- Settles O3: a Deallocate of a zoned namespace and a hint do no more than end. -/
theorem datasetManagementHints : Obligations.DatasetManagementHints := by
  unfold Obligations.DatasetManagementHints
  intro s c n l served
  exact ⟨fun zoned => deallocate_zoned zoned l served, hint_ends l served, fun live wf =>
    ⟨fun zoned => posts_of_finishes served (deallocate_zoned zoned l served) live wf,
      posts_of_finishes served (hint_ends l served) live wf⟩⟩

/-! Reports and failed checks (R52, R56, R65, R77). -/

section
variable {s : State} {c : IoCmd} {n : Ns}

/-- The zones that match the option from the LBA on, as Report Zones describes them (R77). -/
theorem zoneDescs_matching (option lba : Nat) :
    (zoneDescs s n lba).filter (fun d => optionMatches option d.2.1) =
      (n.zones.filter fun z => decide (n.zslba lba ≤ n.startOf z) && optionMatches option (zone s z).st.code).map fun z =>
        (n.startOf z, (zone s z).st.code, if (zone s z).rzr then 4 else 0, wpShown (n.startOf z) (zone s z)) := by
  simp only [zoneDescs, List.filter_map, List.filter_filter, Function.comp_def, Bool.and_comm]

theorem reportZones_reports {option limit : Nat} (part : Bool) (known : option ≤ 7) (fits : 64 + 64 * limit ≤ 2097152)
    (allHere : remotePositions s n = []) (served : Served s .zoneReport c n) : Does (.reportZones c option part limit) s
      (finishCmd (upState s .zoneReport c) (upCmd s .zoneReport c)
        (reportPayload n option part limit (zoneDescs s n c.slba))) := by
  refine congrArg Host.Outcome.next ((withChecks_withNs_served served _).trans ?_)
  have allHere' : remotePositions (upState s .zoneReport c) n = [] := allHere
  rw [if_neg (by omega), allHere']
  rfl

theorem unsupportedIoCommand_fails (opcode : Nat) (taken : accepts s c.fn = true) :
    Does (.unsupportedIoCommand c opcode) s
      (finishCmd (upState s (.other opcode) c) { upCmd s (.other opcode) c with status := 0x001 }) :=
  congrArg Host.Outcome.next (withChecks_failed taken (checks_other opcode) _)

end

/-- Settles O4: each report's answer, the failed check of each command, and the completion of a command that ends. -/
theorem reportsAndFailedChecks : Obligations.ReportsAndFailedChecks := by
  unfold Obligations.ReportsAndFailedChecks
  refine ⟨fun s c n => ⟨fun option part limit known fits allHere served => ?_, fun served => ?_, fun served => ?_,
    fun served => ?_, fun opcode => unsupportedIoCommand_fails opcode⟩, fun s c st taken => ?_,
    fun s op c n st dw0 p served live wf => finishServed_posts served live wf st dw0 p⟩
  · intro all
    have reports := reportZones_reports part known fits allHere served
    rwa [reportPayload, zoneDescs_matching] at reports
  · exact congrArg Host.Outcome.next (withChecks_withNs_served served _)
  · exact congrArg Host.Outcome.next (withChecks_served served _)
  · exact congrArg Host.Outcome.next (withChecks_served served _)
  · have fails {op : IoOp} (failed : checks s op c = some st) (effect : State → Cmd → State) :=
      congrArg (Host.Outcome.next (φ := Fault) (ρ := Refusal)) (withChecks_failed taken failed effect)
    exact ⟨fun failed => fails failed _, fun failed => fails failed _, fun failed => fails failed _,
      fun failed => fails failed _, fun failed => fails failed _, checks_read_noNamespace⟩

/-! Reservations (R52, log entry 14). -/

section
variable {s : State} {c : IoCmd} {n : Ns}

theorem reservationRegister_registers {key : Nat} (unregistered : kvGet 0 c.host n.resv.keys = 0)
    (served : Served s .resvRegister c n) : Does (.reservationRegister c 0 0 key) s
      (resvDone (upState s .resvRegister c) (upCmd s .resvRegister c) n
        { n.resv with keys := kvPut 0 c.host key n.resv.keys, gen := n.resv.gen + 1 } stOk) :=
  congrArg Host.Outcome.next <| (withChecks_withNs_served served _).trans (if_neg (by simp [unregistered]))

theorem reservationAcquire_acquires {key rtype : Nat} (nonzero : key ≠ 0)
    (registered : kvGet 0 c.host n.resv.keys = key) (free : n.resv.rtype = 0) (atLeast : 1 ≤ rtype) (atMost : rtype ≤ 6)
    (served : Served s .resvAcquire c n) : Does (.reservationAcquire c 0 key 0 rtype) s
      (resvDone (upState s .resvAcquire c) (upCmd s .resvAcquire c) n
        { n.resv with rtype := rtype, holder := some c.host } stOk) :=
  congrArg Host.Outcome.next <| (withChecks_withNs_served served _).trans <|
    (if_neg (by simp [registered, nonzero])).trans <| (if_neg (by omega)).trans <| (if_pos rfl).trans (if_pos free)

theorem reservationRelease_releases {key : Nat} (nonzero : key ≠ 0) (registered : kvGet 0 c.host n.resv.keys = key)
    (holds : n.resv.holder = some c.host) (served : Served s .resvRelease c n) :
    Does (.reservationRelease c 0 key n.resv.rtype) s
      (resvDone (upState s .resvRelease c) (upCmd s .resvRelease c) n
        { n.resv with rtype := 0, holder := none } stOk) :=
  congrArg Host.Outcome.next <| (withChecks_withNs_served served _).trans <|
    (if_neg (by simp [registered, nonzero])).trans <| (if_pos (.inl holds)).trans (if_pos rfl)

end

/-- Settles O5: the new key, the acquired reservation and the free one. -/
theorem reservationsAreTaken : Obligations.ReservationsAreTaken := by
  unfold Obligations.ReservationsAreTaken
  intro s c n
  exact ⟨fun key => reservationRegister_registers,
    fun key rtype nonzero registered free => reservationAcquire_acquires nonzero registered free,
    fun key nonzero registered holds => reservationRelease_releases nonzero registered holds⟩

end Sys2Proof.Machine

namespace Sys2Proof.Machine

open Sys2Proof

/-! Records become durable (R608). -/

section
variable {s : State} {head : Nat} {l : LRec} {r : Remap}

/-- What programming the ledger rows up to a head makes of a ledger record. -/
def programRec (head : Nat) (l : LRec) : LRec := if l.r.asn ≤ head then { l with durable := true } else l

@[simp] theorem programRec_asn : (programRec head l).r.asn = l.r.asn := by
  unfold programRec
  split <;> rfl

theorem programRec_durable (upTo : l.r.asn ≤ head) : (programRec head l).durable = true := by
  rw [programRec, if_pos upTo]

theorem programRec_beyond (beyond : head < l.r.asn) : programRec head l = l := if_neg (Nat.not_le.2 beyond)

theorem ledgerRowProgram_programs (s : State) : ∃ t, Does .ledgerRowProgram s t ∧
    t.adm.recs = s.adm.recs.map (programRec (sealedHead s)) ∧ t.zones = s.zones ∧ t.host = s.host :=
  ⟨_, rfl, rfl, rfl, rfl⟩

/-- What programming the remap records makes of a remap record. -/
def programRemap (s : State) (r : Remap) : Remap := if durableTo s r.asn then { r with durable := true } else r

theorem programRemap_follows (follows : durableTo s r.asn = true) : programRemap s r = { r with durable := true } :=
  if_pos follows

/-- No remap record is programmed before the ASN records it follows. -/
theorem programRemap_same_or_follows : programRemap s r = r ∨ durableTo s (programRemap s r).asn = true := by
  by_cases follows : durableTo s r.asn = true
  · rw [programRemap_follows follows]
    exact .inr follows
  · exact .inl (if_neg follows)

theorem remapRecordProgram_programs (s : State) : ∃ t, Does .remapRecordProgram s t ∧ t.adm.recs = s.adm.recs ∧
    t.adm.remaps = s.adm.remaps.map (programRemap s) ∧ t.zones = s.zones ∧ t.host = s.host :=
  ⟨_, rfl, rfl, rfl, rfl, rfl⟩

end

/-- Settles O12: each command maps its list of records, and each record by what the program makes of it. -/
theorem recordsBecomeDurable : Obligations.RecordsBecomeDurable := by
  unfold Obligations.RecordsBecomeDurable
  intro s
  obtain ⟨rows, does, recs, zones, host⟩ := ledgerRowProgram_programs s
  obtain ⟨remapped, doesRemap, sameRecs, remaps, sameZones, sameHost⟩ := remapRecordProgram_programs s
  refine ⟨⟨rows, does, ?_, ?_, ?_, zones, host⟩,
    ⟨remapped, doesRemap, sameRecs, ?_, ?_, ?_, sameZones, sameHost⟩⟩
  · rw [recs, List.length_map]
  · rw [recs]
    intro l after upTo
    obtain ⟨_, _, rfl⟩ := List.mem_map.1 after
    rw [programRec_asn] at upTo
    exact programRec_durable upTo
  · rw [recs]
    exact fun l here beyond => List.mem_map.2 ⟨l, here, programRec_beyond beyond⟩
  · rw [remaps, List.length_map]
  · rw [remaps]
    intro r after _
    obtain ⟨before, here, rfl⟩ := List.mem_map.1 after
    refine programRemap_same_or_follows.imp_left fun same => ?_
    rwa [same]
  · rw [remaps]
    exact fun r here follows => List.mem_map.2 ⟨r, here, programRemap_follows follows⟩

end Sys2Proof.Machine

namespace Sys2Proof.Machine

open Sys2Proof

/-! Die script instructions (R203, R206 to R208). A command whose meaning is one scriptStep has its body's effect where it
is ready (scriptRuns); the meaning is named by unfolding, so each instruction below is one use of it. -/

section
variable {s : State} {d op : Nat} {w : Word32}

/-- A command that runs one instruction word has its body's effect in the state where the instruction is counted. -/
theorem scriptRuns {i : Instr} {body : State → Ctx → State} {t : State} (ready : ScriptReady s d op w)
    (means : exec i s = .next (scriptStep s d op w body)) (effect : body (scriptNext s d) (ticked s d) = t) :
    Does i s t := by
  rw [Does, means, scriptStep_ready ready, effect]

/-! Bus cycles and status (R203, R207). -/

theorem nop_runs (ready : ScriptReady s d 0x00 w) : Does (.nop d w) s (scriptNext s d) := scriptRuns ready rfl rfl

theorem cmd_runs (ready : ScriptReady s d 0x01 w) :
    Does (.cmd d w) s (driveBus (scriptNext s d) d [.cmd (wByte w)]) := scriptRuns ready rfl rfl

theorem regByte_within {v : Word32} {i : Nat} (within : i < 4) : regByte s v i = v.extractLsb' (8 * i) 8 := if_pos within

/-- Bytes within the register take no free value. -/
theorem addr_runs_within (ready : ScriptReady s d 0x02 w)
    (within : (w.extractLsb' 0 2).toNat + (w.extractLsb' 8 3).toNat ≤ 4) :
    Does (.addr d w) s (driveBus (scriptNext s d) d ((List.range (w.extractLsb' 8 3).toNat).map fun i =>
      .addr (((ctx s d).v[wD w]).extractLsb' (8 * ((w.extractLsb' 0 2).toNat + i)) 8))) := by
  refine scriptRuns ready rfl ((if_neg (Nat.not_lt.2 within)).trans
    (congrArg _ (List.map_congr_left fun i inCount => ?_)))
  have := List.mem_range.1 inCount
  exact congrArg _ (regByte_within (by omega))

/-- Bytes beyond the register are free values (log entry 25). -/
theorem addr_runs_beyond (ready : ScriptReady s d 0x02 w)
    (beyond : 4 < (w.extractLsb' 0 2).toNat + (w.extractLsb' 8 3).toNat) :
    Does (.addr d w) s (useFree (driveBus (scriptNext s d) d ((List.range (w.extractLsb' 8 3).toNat).map fun i =>
      .addr (regByte s ((ctx s d).v[wD w]) ((w.extractLsb' 0 2).toNat + i))))) :=
  scriptRuns ready rfl (if_pos beyond)

theorem dout_runs (ready : ScriptReady s d 0x03 w) :
    Does (.dout d w) s (driveBus (scriptNext s d) d [.streamOut ((ctx s d).v[wD w]).toNat]) := scriptRuns ready rfl rfl

theorem din_runs (ready : ScriptReady s d 0x04 w) :
    Does (.din d w) s (driveBus (scriptNext s d) d [.streamIn ((ctx s d).v[wD w]).toNat]) := scriptRuns ready rfl rfl

theorem doutb_runs (ready : ScriptReady s d 0x05 w) : Does (.doutb d w) s (driveBus (scriptNext s d) d
    [.dataOut (if w.getLsbD 8 then ((ctx s d).v[wD w]).extractLsb' 0 8 else wByte w)]) := scriptRuns ready rfl rfl

theorem dinb_runs (received : Byte) (ready : ScriptReady s d 0x06 w) :
    Does (.dinb d w received) s (driveBus (setCtx (scriptNext s d) d
      { ticked s d with v := (ctx s d).v.set (wD w) (received.setWidth 32) }) d [.dataIn received]) :=
  scriptRuns ready rfl rfl

theorem dly_runs (ready : ScriptReady s d 0x0B w) :
    Does (.dly d w) s (driveBus (scriptNext s d) d [.wait (w.extractLsb' 0 20).toNat]) := scriptRuns ready rfl rfl

theorem sel_runs (ready : ScriptReady s d 0x07 w) : Does (.sel d w) s
    (let t := driveBus (scriptNext s d) d [.ceLow (((ctx s d).v[wD w]).extractLsb' 0 3).toNat]
     setChan t (dieChan d) { chan t (dieChan d) with ce := some (((ctx s d).v[wD w]).extractLsb' 0 3).toNat }) :=
  scriptRuns ready rfl rfl

theorem dsel_runs (ready : ScriptReady s d 0x08 w) : Does (.dsel d w) s
    (let t := driveBus (scriptNext s d) d [.ceHigh]
     setChan t (dieChan d) { chan t (dieChan d) with ce := none }) := scriptRuns ready rfl rfl

theorem wrdy_runs (ready : ScriptReady s d 0x09 w) : Does (.wrdy d w) s
    (let t := setCtx (scriptNext s d) d { ticked s d with waiting := true }
     setChan t (dieChan d) { chan t (dieChan d) with holder := none }) := scriptRuns ready rfl rfl

theorem dieReady_ends (waits : (ctx s d).waiting = true) :
    Does (.dieReady d) s (setCtx s d { ctx s d with waiting := false }) := congrArg _ (if_pos waits)

theorem stat_runs (received : Byte) (ready : ScriptReady s d 0x0A w) : Does (.stat d w received) s (driveBus
    (setCtx (scriptNext s d) d { ticked s d with s := received }) d [.status (wByte w)
      (if w.getLsbD 8 then some (((ctx s d).v[(1 : Fin 16)]).extractLsb' 0 8,
        ((ctx s d).v[(1 : Fin 16)]).extractLsb' 8 8, ((ctx s d).v[(1 : Fin 16)]).extractLsb' 16 8) else none)]) :=
  scriptRuns ready rfl rfl

theorem gets_runs (ready : ScriptReady s d 0x18 w) : Does (.gets d w) s (setCtx (scriptNext s d) d
    { ticked s d with v := (ctx s d).v.set (wD w) ((ctx s d).s.setWidth 32) }) := scriptRuns ready rfl rfl

end

/-- Settles O16: each instruction's effect is its body's, and bit 8 of doutb and stat chooses between two. -/
theorem busAndStatusInstructions : Obligations.BusAndStatusInstructions := by
  unfold Obligations.BusAndStatusInstructions
  refine ⟨fun s d w b => ⟨nop_runs, cmd_runs, addr_runs_within, dout_runs, din_runs, ?_, ?_, dinb_runs b, dly_runs⟩,
    fun s d w b => ⟨sel_runs, dsel_runs, wrdy_runs, dieReady_ends, ?_, ?_, gets_runs⟩⟩
  · intro ready immediate
    simpa only [immediate, Bool.false_eq_true, if_false] using doutb_runs ready
  · intro ready register
    simpa only [register, if_true] using doutb_runs ready
  · intro ready noRow
    simpa only [noRow, Bool.false_eq_true, if_false] using stat_runs b ready
  · intro ready row
    simpa only [row, if_true] using stat_runs b ready

/-- Settles O20: addr past the register's fourth byte, and sha past its range. -/
theorem openResultsAreFree : Obligations.OpenResultsAreFree := by
  unfold Obligations.OpenResultsAreFree
  refine ⟨fun s d w ready beyond => addr_runs_beyond ready beyond, fun s k w _ ready outside => ?_⟩
  have unused : freeVal (loopNext s k) = freeVal s := congrArg Config.freeValue (setEng_free ..)
  show execSha k w s = _
  rw [execSha, if_neg (by omega), loopStep_ready ready, unused]

end Sys2Proof.Machine

namespace Sys2Proof.Machine

open Sys2Proof

/-! The die script's arithmetic (R207). -/

section
variable {s : State} {d op fn : Nat} {w : Word32}

/-- An ALU instruction writes its function's result and flags. -/
theorem aluStep_writes {operand : Ctx → Word32} {r : Word32} (ready : ScriptReady s d op w) (named : wFn w = fn)
    (result : alu fn ((ctx s d).v[wA w]) (operand (ticked s d)) = some r) :
    aluStep s d op fn w operand = aluWrites s d w r := by
  rw [aluStep, if_neg (fun other => other.1 named), scriptStep_ready ready, if_neg (fun other => other named)]
  show (match alu fn ((ctx s d).v[wA w]) (operand (ticked s d)) with
    | some r => setCtx (scriptNext s d) d (({ ticked s d with v := (ctx s d).v.set (wD w) r } : Ctx).flags r)
    | none => scriptFault (scriptNext s d) d) = _
  rw [result]
  rfl

/-- A command that is an ALU instruction of a function. -/
theorem aluRuns {i : Instr} {operand : Ctx → Word32} {r : Word32} (ready : ScriptReady s d op w)
    (means : exec i s = .next (aluStep s d op fn w operand)) (named : wFn w = fn)
    (result : alu fn ((ctx s d).v[wA w]) (operand (ticked s d)) = some r) : Does i s (aluWrites s d w r) := by
  rw [Does, means, aluStep_writes ready named result]

theorem movi_runs (ready : ScriptReady s d 0x10 w) : Does (.movi d w) s (setCtx (scriptNext s d) d
    { ticked s d with v := (ctx s d).v.set (wD w) ((w.extractLsb' 0 16).setWidth 32) }) := scriptRuns ready rfl rfl

theorem movh_runs (ready : ScriptReady s d 0x11 w) : Does (.movh d w) s (setCtx (scriptNext s d) d { ticked s d with
    v := (ctx s d).v.set (wD w) ((w.extractLsb' 0 16) ++ (((ctx s d).v[wD w]).extractLsb' 0 16)) }) :=
  scriptRuns ready rfl rfl

theorem phy_writes (ready : ScriptReady s d 0x0C w) (allowed : (ctx s d).entry = some 12 ∨ (ctx s d).entry = some 13) :
    Does (.phy d w) s
      (let t := scriptNext s d
       setChan t (dieChan d) { chan t (dieChan d) with
         phyRegs := kvPut 0 (wByte w).toNat ((ctx s d).v[wD w]).toNat (chan t (dieChan d)).phyRegs }) :=
  scriptRuns ready rfl (if_pos allowed)

theorem phy_faults (ready : ScriptReady s d 0x0C w) (not12 : (ctx s d).entry ≠ some 12)
    (not13 : (ctx s d).entry ≠ some 13) : Does (.phy d w) s (scriptFault (scriptNext s d) d) :=
  scriptRuns ready rfl (if_neg (not_or.2 ⟨not12, not13⟩))

theorem cnt_counts (ready : ScriptReady s d 0x19 w) :
    Does (.cnt d w) s (odBump (scriptNext s d) 0x3220 0x01 (dieChan d * 16 + (w.extractLsb' 0 4).toNat)) :=
  scriptRuns ready rfl rfl

/-! The end of an entry (R189, R207, R211, R243). -/

/-- The state in which what follows an ended entry is decided. -/
def endedBy (s : State) (d : Nat) (w : Word32) : State :=
  endEntry (driveBus (scriptNext s d) d [.ceHigh]) d (wByte w).toNat

theorem endedBy_die (e : Nat) : die (endedBy s d w) e = die s e := die_of (endEntry_keepsDies ..).1 e

theorem endOp_ends {t : State} (ready : ScriptReady s d 0x1F w) (free : (wByte w).toNat < 0x80)
    (follows : afterEnd (endedBy s d w) d (ticked s d) (wByte w).toNat = t) : Does (.endOp d w) s t :=
  scriptRuns ready rfl ((if_neg (Nat.not_le.2 free)).trans follows)

theorem endOp_faults (ready : ScriptReady s d 0x1F w) (reserved : 0x80 ≤ (wByte w).toNat) :
    Does (.endOp d w) s (scriptFault (scriptNext s d) d) := scriptRuns ready rfl (if_pos reserved)

variable {t : State} {c : Ctx} {st : Nat}

theorem afterEnd_nothing (other : ∀ e ∈ [4, 8, 12, 13], c.entry ≠ some e) : afterEnd t d c st = t := by
  unfold afterEnd
  split
  next h => exact absurd h (other 4 (by decide))
  next h => exact absurd h (other 8 (by decide))
  next h => exact absurd h (other 12 (by decide))
  next h => exact absurd h (other 13 (by decide))
  next => rfl

theorem afterEnd_resume (resume : c.entry = some 4) (ok : st = 0) (resuming : (die t d).st = .resuming) :
    afterEnd t d c st = setDie t d { die t d with st := .erasing } := by
  simp [afterEnd, resume, ok, resuming]

theorem afterEnd_redo {e : Nat} {v : Vector Word32 16} (reset : c.entry = some 8) (redo : c.redo = some (e, v)) :
    afterEnd t d c st = setCtx t d { v := v, params := v, pc := (chan t (dieChan d)).entry.getD e 0xFFFF
                                     entry := some e, class1 := c.class1 } := by
  simp [afterEnd, reset, redo]

theorem afterEnd_reset (reset : c.entry = some 8) (noRedo : c.redo = none) (ok : st = 0)
    (phase : (die t d).phase = 1) : afterEnd t d c st = startReinit t d 12 := by
  simp [afterEnd, reset, noRedo, ok, phase]

theorem afterEnd_zqCal (zqCal : c.entry = some 12) (ok : st = 0) (phase : (die t d).phase = 1) :
    afterEnd t d c st = startReinit t d (if (chan t (dieChan d)).state = 2 then 13 else 9) := by
  simp [afterEnd, zqCal, ok, phase]

theorem afterEnd_train (train : c.entry = some 13) (ok : st = 0) (phase : (die t d).phase = 1) :
    afterEnd t d c st = startReinit t d 9 := by
  simp [afterEnd, train, ok, phase]

end

/-- Settles O17: the ALU by its functions, the end by what follows each entry. -/
theorem scriptArithmetic : Obligations.ScriptArithmetic := by
  unfold Obligations.ScriptArithmetic
  refine ⟨fun s d w ready => ?_, fun s d w ready => ?_,
    fun s d w => ⟨movi_runs, movh_runs, phy_writes, phy_faults, cnt_counts, fun ready free => ?_⟩⟩
  · refine ⟨?_, ?_, ?_, ?_, ?_, ?_, ?_⟩ <;> exact fun named => aluRuns ready rfl named rfl
  · refine ⟨?_, ?_, ?_, ?_, ?_, ?_, ?_⟩ <;> exact fun named => aluRuns ready rfl named rfl
  · have unchanged : die (endedBy s d w) d = die s d := endedBy_die d
    refine ⟨fun other => ?_, fun resume ok resuming => ?_, fun e v reset redo => ?_,
      fun reset noRedo ok phase => ?_, fun zqCal ok phase => ?_, fun train ok phase => ?_⟩
    · exact endOp_ends ready free (afterEnd_nothing other)
    · exact endOp_ends ready free (afterEnd_resume resume ok (unchanged ▸ resuming))
    · exact endOp_ends ready free (afterEnd_redo reset redo)
    · exact endOp_ends ready free (afterEnd_reset reset noRedo ok (unchanged ▸ phase))
    · exact endOp_ends ready free (afterEnd_zqCal zqCal ok (unchanged ▸ phase))
    · exact endOp_ends ready free (afterEnd_train train ok (unchanged ▸ phase))

/-! Branches, calls and script faults (R203, R207, R208). -/

section
variable {s : State} {d op : Nat} {w : Word32} {c : Ctx}

theorem goTo_within (within : wTarget w < codeLen s (dieChan d)) :
    goTo (scriptNext s d) d c (wTarget w) = setCtx (scriptNext s d) d { c with pc := wTarget w } :=
  if_neg (Nat.not_le.2 within)

theorem goTo_beyond (beyond : codeLen s (dieChan d) ≤ wTarget w) :
    goTo (scriptNext s d) d c (wTarget w) = scriptFault (scriptNext s d) d := if_pos beyond

theorem brTaken_undefined {cond : Nat} (undefined : 5 ≤ cond) : brTaken c cond = none :=
  match cond, undefined with
  | _ + 5, _ => rfl

theorem br_taken (ready : ScriptReady s d 0x14 w) (taken : brTaken (ticked s d) (wFn w) = some true) :
    Does (.br d w) s (goTo (scriptNext s d) d (ticked s d) (wTarget w)) :=
  scriptRuns ready rfl (by simp only [taken])

theorem br_notTaken (ready : ScriptReady s d 0x14 w) (notTaken : brTaken (ticked s d) (wFn w) = some false) :
    Does (.br d w) s (scriptNext s d) :=
  scriptRuns ready rfl (by simp only [notTaken])

theorem br_undefined (ready : ScriptReady s d 0x14 w) (undefined : 5 ≤ wFn w) :
    Does (.br d w) s (scriptFault (scriptNext s d) d) :=
  scriptRuns ready rfl (by simp only [brTaken_undefined undefined])

theorem bst_taken (ready : ScriptReady s d 0x15 w)
    (taken : bstTaken (ctx s d) (w.extractLsb' 12 8) (w.getLsbD 20) = true) :
    Does (.bst d w) s (goTo (scriptNext s d) d (ticked s d) (wTarget w)) := scriptRuns ready rfl (if_pos taken)

theorem bst_notTaken (ready : ScriptReady s d 0x15 w)
    (notTaken : bstTaken (ctx s d) (w.extractLsb' 12 8) (w.getLsbD 20) = false) :
    Does (.bst d w) s (scriptNext s d) := scriptRuns ready rfl (if_neg (Bool.eq_false_iff.1 notTaken))

theorem call_calls (ready : ScriptReady s d 0x16 w) (room : (ctx s d).stack.length < 4) : Does (.call d w) s
    (goTo (scriptNext s d) d { ticked s d with stack := ((ctx s d).pc + 1) :: (ctx s d).stack } (wTarget w)) :=
  scriptRuns ready rfl (if_neg (Nat.not_le.2 room))

theorem call_overflows (ready : ScriptReady s d 0x16 w) (full : 4 ≤ (ctx s d).stack.length) :
    Does (.call d w) s (scriptFault (scriptNext s d) d) := scriptRuns ready rfl (if_pos full)

theorem ret_returns {i : Nat} {rest : List Nat} (ready : ScriptReady s d 0x17 w) (stack : (ctx s d).stack = i :: rest) :
    Does (.ret d w) s (setCtx (scriptNext s d) d { ticked s d with pc := i, stack := rest }) :=
  scriptRuns ready rfl (by simp only [stack])

theorem ret_underflows (ready : ScriptReady s d 0x17 w) (empty : (ctx s d).stack = []) :
    Does (.ret d w) s (scriptFault (scriptNext s d) d) :=
  scriptRuns ready rfl (by simp only [empty])

/-- What R208 names as a script fault of the word itself, of its place or of the count. -/
def BadWord (s : State) (d : Nat) (w : Word32) : Prop :=
  wOp w ∉ scriptOps ∨ wReserved w ≠ 0 ∨ 65536 ≤ (ctx s d).count ∨ pastEnd s d = true

section
variable (entry : (ctx s d).entry.isSome = true) (runs : (ctx s d).waiting = false)
  (bus : (chan s (dieChan d)).holder = some d) (here : (chan s (dieChan d)).code.getD (ctx s d).pc w = w)
include entry runs bus here

/-- A word of a command's opcode, or of an undefined one, that R208 names is a script fault. -/
theorem scriptStep_badWord (opcode : wOp w = op ∨ wOp w ∉ scriptOps) (defined : op ∈ scriptOps) (bad : BadWord s d w)
    (body : State → Ctx → State) : scriptStep s d op w body = scriptFault s d := by
  refine scriptStep_fault entry runs bus ?_ (bad.imp_left fun undefined => ?_) body
  · simpa [scriptMeets, -List.getD_eq_getElem?_getD, here] using opcode
  · rintro rfl
    exact undefined defined

theorem nop_badWord (opcode : wOp w = 0x00 ∨ wOp w ∉ scriptOps) (bad : BadWord s d w) :
    Does (.nop d w) s (scriptFault s d) :=
  congrArg _ (scriptStep_badWord entry runs bus here opcode (by decide) bad _)

theorem aluAdd_badWord (opcode : wOp w = 0x12 ∨ wOp w ∉ scriptOps) (function : wFn w = 0 ∨ 7 ≤ wFn w)
    (bad : BadWord s d w) : Does (.aluAdd d w) s (scriptFault s d) :=
  congrArg _ ((if_neg (by omega)).trans (scriptStep_badWord entry runs bus here opcode (by decide) bad _))

theorem br_badWord (opcode : wOp w = 0x14 ∨ wOp w ∉ scriptOps) (bad : BadWord s d w) :
    Does (.br d w) s (scriptFault s d) :=
  congrArg _ (scriptStep_badWord entry runs bus here opcode (by decide) bad _)

end

theorem aluAdd_undefined (ready : ScriptReady s d 0x12 w) (undefined : 7 ≤ wFn w) :
    Does (.aluAdd d w) s (scriptFault (scriptNext s d) d) := by
  show execAluAdd d w s = _
  rw [execAluAdd, aluStep, if_neg (by omega), scriptStep_ready ready, if_pos (by omega)]

end

/-- Settles O18: a taken branch is goTo, and each fault is its instruction's or scriptStep's. -/
theorem scriptBranchesAndFaults : Obligations.ScriptBranchesAndFaults := by
  unfold Obligations.ScriptBranchesAndFaults
  refine ⟨fun s d w => ⟨fun within => ⟨fun ready taken => ?_, fun ready taken => ?_, fun ready room => ?_⟩,
      br_notTaken, bst_notTaken, call_overflows, fun _ _ => ret_returns, ret_underflows⟩,
    fun s d w beyond => ⟨fun ready taken => ?_, fun ready taken => ?_, fun ready => ?_⟩,
    fun s d w entry runs bus here => ⟨nop_badWord entry runs bus here, aluAdd_badWord entry runs bus here,
      aluAdd_undefined, br_badWord entry runs bus here, br_undefined, endOp_faults⟩,
    fun s d => ⟨fun ready => ?_, fun busy => congrArg _ (if_pos busy), fun idle => congrArg _ (if_neg (by simp [idle])),
      fun running => congrArg _ (if_pos running)⟩⟩
  · exact (br_taken ready taken).trans (congrArg _ (goTo_within within))
  · exact (bst_taken ready taken).trans (congrArg _ (goTo_within within))
  · exact (call_calls ready room).trans (congrArg _ (goTo_within within))
  · exact (br_taken ready taken).trans (congrArg _ (goTo_beyond beyond))
  · exact (bst_taken ready taken).trans (congrArg _ (goTo_beyond beyond))
  · rcases Nat.lt_or_ge (ctx s d).stack.length 4 with room | full
    · exact (call_calls ready room).trans (congrArg _ (goTo_beyond beyond))
    · exact call_overflows ready full
  · exact congrArg _ (if_pos (by simp [ready]))

/-! Timeouts (R210, R211). -/

section
variable {s : State} {d : Nat}

/-- The stop that counts a timeout, before the reset or the die's leaving. -/
def timedOut (s : State) (d : Nat) : State := odBump (endEntry s d 0x81) 0x3120 0x04 d

@[simp] theorem countStatus_ctxs (st : Nat) : (countStatus s d st).ctxs = s.ctxs := by
  unfold countStatus
  dsimp only
  split <;> rfl

@[simp] theorem releaseBus_ctxs : (releaseBus s d).ctxs = s.ctxs := by
  unfold releaseBus
  dsimp only
  split <;> rfl

theorem endEntry_ctxs (st : Nat) : (endEntry s d st).ctxs = kvPut {} d { ctx s d with
    entry := none, waiting := false, stack := [], status := some st, redo := none } s.ctxs := by
  simp only [endEntry, releaseBus_ctxs, setCtx, ctx, countStatus_ctxs]

theorem timedOut_ctxs : (timedOut s d).ctxs = kvPut {} d { ctx s d with
    entry := none, waiting := false, stack := [], status := some 0x81, redo := none } s.ctxs := endEntry_ctxs 0x81

@[simp] theorem timedOut_die : die (timedOut s d) d = die s d := die_of (endEntry_keepsDies ..).1 d

theorem ctx_setCtx (wf : kvWf {} s.ctxs) (v : Ctx) : ctx (setCtx s d v) d = v := kvGet_put_self _ _ _ _ wf

/-- The stopped context, its timeout counted. -/
theorem timedOut_ctx (wf : kvWf {} s.ctxs) : ctx (timedOut s d) d =
    { ctx s d with entry := none, waiting := false, stack := [], status := some 0x81, redo := none } := by
  rw [ctx, timedOut_ctxs, kvGet_put_self _ _ _ _ wf]

theorem hardTimeout_leaves (repeated : (die s d).repeated = true) :
    hardTimeout s d = dieOutLasting (odBump (timedOut s d) 0x4000 0x08) d true := if_pos repeated

theorem hardTimeout_repeats (first : (die s d).repeated = false) : hardTimeout s d =
    timeoutReset (setDie (timedOut s d) d { die s d with repeated := true }) d (ctx s d) := by
  rw [← timedOut_die (s := s) (d := d)]
  exact if_neg (by simp [first])

/-- RESET_DIE runs, with the stopped entry to be repeated after it. -/
theorem timeoutReset_ctx (wf : kvWf {} s.ctxs) (c : Ctx) : (ctx (timeoutReset s d c) d).entry = some 8 ∧
    (ctx (timeoutReset s d c) d).redo = c.entry.map fun e => (e, c.params) := by
  have started : kvWf {} (startEntry (driveBus s d [.ceHigh, .wait 1000]) d 8 0 0 0 0 0 false 0 0 c.class1).ctxs :=
    kvWf_put _ _ _ _ wf
  unfold timeoutReset
  rw [ctx_setCtx started]
  refine ⟨?_, rfl⟩
  unfold startEntry
  dsimp only
  rw [ctx_setCtx (by exact wf)]

theorem wrdyTimeout_jumps {h : Nat} (waits : (ctx s d).waiting = true)
    (entry : (chan s (dieChan d)).entry.getD 15 0xFFFF = h) (has : h ≠ 0xFFFF) :
    Does (.wrdyTimeout d) s (setCtx s d { ctx s d with
      waiting := false, pc := h, v := (ctx s d).v.set 15 (BitVec.ofNat 32 ((ctx s d).pc - 1)) }) := by
  show execWrdyTimeout d s = _
  simp only [execWrdyTimeout, waits, entry, if_neg has, Bool.not_true, Bool.false_eq_true, if_false]

theorem wrdyTimeout_stops (waits : (ctx s d).waiting = true)
    (noEntry : (chan s (dieChan d)).entry.getD 15 0xFFFF = 0xFFFF) : Does (.wrdyTimeout d) s (hardTimeout s d) := by
  show execWrdyTimeout d s = _
  simp only [execWrdyTimeout, waits, noEntry, Bool.not_true, Bool.false_eq_true, if_false, if_true]

end

/-- Settles O19: with entry 15 the context jumps; without it the hard timeout of R211 follows. -/
theorem wrdyTimeouts : Obligations.WrdyTimeouts := by
  unfold Obligations.WrdyTimeouts
  intro s d wf waits
  refine ⟨wrdyTimeout_jumps waits rfl, fun noEntry => ?_⟩
  have stops := wrdyTimeout_stops waits noEntry
  have stopped := timedOut_ctx (d := d) wf
  refine ⟨congrArg Ctx.status stopped, congrArg Ctx.entry stopped, congrArg Ctx.waiting stopped, fun repeated => ?_,
    fun first => ?_⟩
  · rwa [hardTimeout_leaves repeated] at stops
  · rw [hardTimeout_repeats first] at stops
    refine ⟨stops, timeoutReset_ctx ?_ _⟩
    show kvWf {} (timedOut s d).ctxs
    rw [timedOut_ctxs]
    exact kvWf_put _ _ _ _ wf

end Sys2Proof.Machine

namespace Sys2Proof.Machine

open Sys2Proof

/-! Work that is alone in the die queues (R177, R189). -/

/-- The request under which a program or erase waits. -/
def workReq (w : Work) : DReq :=
  { cls := workQueue w, rid := 0, unit := 0, plane := 0, page := 0, member := false, slc := false, work := some w }

theorem noQueue_of_dies {s t : State} (quiet : NoQueue s) (same : t.dies = s.dies) : NoQueue t := by
  rw [NoQueue, same]
  exact quiet

/-- Ending an entry of a die with nothing waiting starts nothing: what is left to do is done on a quiet state. -/
theorem pump_of_dies {s t : State} (quiet : NoQueue s) (same : t.dies = s.dies) (d : Nat) : pump t d = t :=
  pump_quiet (noQueue_of_dies quiet same) d

section
variable {s : State} {d : Nat} (quiet : NoQueue s) (wf : kvWf {} s.dies)
include quiet

/-- A die written with the queue it had has nothing waiting. -/
theorem noQueue_setDie {v : Die} (kept : v.queue = (die s d).queue) : NoQueue (setDie s d v) :=
  noQueue_put quiet d v (kept.trans (noQueue_die quiet d))

include wf

theorem enqueueWork_die (w : Work) : die (enqueueWork s d w) d = { die s d with queue := [workReq w] } := by
  rw [enqueueWork_eq s d w quiet, die_setDie _ _ _ wf]
  rfl

theorem enqueueWork_diesWf (w : Work) : kvWf {} (enqueueWork s d w).dies := by
  rw [enqueueWork_eq s d w quiet]
  exact kvWf_put _ _ _ _ wf

theorem enqueueWork_others (w : Work) : Others (enqueueWork s d w) d := by
  rw [enqueueWork_eq s d w quiet]
  exact others_set (NoQueue.others quiet d) wf _

/-- Taking the work out again leaves nothing. -/
theorem enqueueWork_onlyRequest (w : Work) :
    (die (enqueueWork s d w) d).queue.filter (fun q => q.work != some w) = [] := by
  rw [enqueueWork_die quiet wf]
  simp [workReq]

theorem enqueueWork_free (idle : (die s d).st = .idle) (inService : (chan s (dieChan d)).state = 0) (w : Work) :
    dieFree (enqueueWork s d w) d = true := by
  have chans : chan (enqueueWork s d w) (dieChan d) = chan s (dieChan d) := rfl
  simp [dieFree, enqueueWork_die quiet wf, idle, chans, inService]

end

/-! Programs (R175, R177, R189). -/

section
variable {s : State} {d : Nat}

section
variable {job : ProgJob} (elapsed : Nat) (handled : jobHandle s job = s) (inService : dieOut s d = false)
  (alive : deadBlock s d (jobRow s d job) = false)
include handled inService alive

theorem programIssue_queues (ready : jobReady s d job = true) :
    Does (.dieProgramIssue d ⟨job, elapsed⟩) s (serve (enqueueWork s d (.program job)) elapsed) := by
  show execDieProgramIssue d ⟨job, elapsed⟩ s = _
  simp [execDieProgramIssue, handled, inService, alive, ready]

theorem programIssue_notReady (notReady : jobReady s d job = false) : Does (.dieProgramIssue d ⟨job, elapsed⟩) s s := by
  show execDieProgramIssue d ⟨job, elapsed⟩ s = _
  simp [execDieProgramIssue, handled, inService, alive, notReady]

/-- With nothing else waiting the program is the one that is served. -/
theorem programIssue_starts (ready : jobReady s d job = true) (quiet : NoQueue s) (wf : kvWf {} s.dies)
    (ctxsWf : kvWf {} s.ctxs) (idle : (die s d).st = .idle) (channel : (chan s (dieChan d)).state = 0)
    (can : canProgram (enqueueWork s d (.program job)) elapsed d job = true) :
    ∃ t, Does (.dieProgramIssue d ⟨job, elapsed⟩) s t ∧ (die t d).st = .programming ∧ (die t d).job = some job ∧
      (die t d).queue = [] ∧ (ctx t d).entry = some 1 := by
  have queued := enqueueWork_die quiet wf (d := d) (.program job)
  obtain ⟨nothingWaits, started⟩ := startProgram_starts (enqueueWork s d (.program job)) d job
    (by rw [queued]; exact idle) (enqueueWork_diesWf quiet wf _) ctxsWf (enqueueWork_others quiet wf _) (enqueueWork_onlyRequest quiet wf _)
  have served : serve (enqueueWork s d (.program job)) elapsed = startProgram (enqueueWork s d (.program job)) d job :=
    serve_starts s d elapsed _ quiet wf (by simp [canStart, enqueueWork_free quiet wf idle channel, can]) nothingWaits
  exact ⟨_, (programIssue_queues elapsed handled inService alive ready).trans (congrArg _ served), started⟩

end

/-- A die once its program has reported ready. -/
abbrev programEnded (s : State) (d : Nat) : State :=
  endEntry (setDie s d { die s d with st := .idle, job := none }) d 0

theorem programReady_ends {job : ProgJob} (verifyOk : Bool) (programming : (die s d).st = .programming)
    (running : (die s d).job = some job) : Does (.dieProgramReady d 0 verifyOk) s
      (pump (jobDone (repeatDone (programEnded s d) d) d job) d) := by
  show execDieProgramReady d 0 verifyOk s = _
  simp [execDieProgramReady, programming, running]

theorem repeatDone_first {t : State} (first : (die t d).repeated = false) : repeatDone t d = t := by
  simp [repeatDone, first]

theorem endEntry_die (st e : Nat) : die (endEntry s d st) e = die s e := die_of (endEntry_keepsDies ..).1 e

/-- A system program leaves nothing to do but the die's end. -/
theorem systemReady_idles (verifyOk : Bool) (programming : (die s d).st = .programming)
    (running : (die s d).job = some .system) (first : (die s d).repeated = false) (quiet : NoQueue s)
    (wf : kvWf {} s.dies) : ∃ t, Does (.dieProgramReady d 0 verifyOk) s t ∧ (die t d).st = .idle ∧
      (die t d).job = none ∧ t.zones = s.zones := by
  obtain ⟨dies, zones, -⟩ := endEntry_keepsDies (setDie s d { die s d with st := .idle, job := none }) d 0
  have ended : die (programEnded s d) d = { die s d with st := .idle, job := none } :=
    (endEntry_die ..).trans (die_setDie _ _ _ wf)
  have ends := programReady_ends verifyOk programming running
  rw [repeatDone_first (by rw [ended]; exact first), jobDone, pump_of_dies (noQueue_setDie quiet (by rfl)) dies] at ends
  exact ⟨_, ends, congrArg Die.st ended, congrArg Die.job ended, zones⟩

/-! Erases (R189 to R191, R274). -/

theorem eraseIssue_noCell {block : Nat} (unnamed : (die s d).started.contains block = false) :
    Does (.dieEraseIssue d block) s s := by
  show execDieEraseIssue d block s = _
  simp only [execDieEraseIssue, eraseReady, unnamed, Bool.false_and, Bool.not_false, or_true, if_true]

theorem eraseIssue_queues {block : Nat} (inService : dieOut s d = false) (named : block ∈ (die s d).started)
    (notEnded : block ∉ (die s d).ended) :
    Does (.dieEraseIssue d block) s (serve (enqueueWork s d (.erase block)) s.sched.slotUs) := by
  show execDieEraseIssue d block s = _
  simp [execDieEraseIssue, eraseReady, inService, named, notEnded]

/-- With nothing else waiting the erase is the one that is served. -/
theorem eraseIssue_starts {block : Nat} (inService : dieOut s d = false) (named : block ∈ (die s d).started)
    (notEnded : block ∉ (die s d).ended) (quiet : NoQueue s) (wf : kvWf {} s.dies) (ctxsWf : kvWf {} s.ctxs)
    (idle : (die s d).st = .idle) (channel : (chan s (dieChan d)).state = 0)
    (can : canErase (enqueueWork s d (.erase block)) d block = true) :
    ∃ t, Does (.dieEraseIssue d block) s t ∧ (die t d).st = .erasing ∧ (die t d).erase = some block ∧
      (die t d).suspends = 0 ∧ t.sched.eraseUsed = s.sched.eraseUsed + 1 ∧ (ctx t d).entry = some 2 := by
  obtain ⟨nothingWaits, started⟩ := startErase_starts (enqueueWork s d (.erase block)) d block
    (enqueueWork_diesWf quiet wf _) ctxsWf (enqueueWork_others quiet wf _) (enqueueWork_onlyRequest quiet wf _)
  have served : serve (enqueueWork s d (.erase block)) s.sched.slotUs =
      startErase (enqueueWork s d (.erase block)) d block :=
    serve_starts s d s.sched.slotUs _ quiet wf (by simp [canStart, enqueueWork_free quiet wf idle channel, can])
      nothingWaits
  exact ⟨_, (eraseIssue_queues inService named notEnded).trans (congrArg _ served), started⟩

theorem mem_addTo (x : Nat) (l : List Nat) : x ∈ addTo x l := by
  by_cases here : x ∈ l <;> simp [addTo, here]

/-- A die whose erase of block b has ended well at the first attempt. -/
def erased (v : Die) (b : Nat) : Die :=
  { v with st := .idle, erase := none, suspends := 0, ended := addTo b v.ended, eraseRepeated := false
           cycles := kvPut 0 b (kvGet 0 b v.cycles + 1) v.cycles, readCount := kvPut 0 b 0 v.readCount }

theorem eraseDone_first {t : State} {b : Nat} (erasing : (die t d).erase = some b)
    (first : (die t d).eraseRepeated = false) : eraseDone t d = setDie t d (erased (die t d) b) := by
  simp only [eraseDone, erasing, first, Bool.false_eq_true, if_false]
  rfl

theorem eraseReady_ends (erasing : (die s d).st = .erasing) :
    Does (.dieEraseReady d 0) s (pump (eraseDone (repeatDone (endEntry s d 0) d) d) d) := by
  show execDieEraseReady d 0 s = _
  simp [execDieEraseReady, eraseEnds, erasing]

theorem eraseReady_completes {b : Nat} (erasing : (die s d).st = .erasing) (block : (die s d).erase = some b)
    (first : (die s d).repeated = false) (firstErase : (die s d).eraseRepeated = false) (quiet : NoQueue s)
    (wf : kvWf {} s.dies) : ∃ t, Does (.dieEraseReady d 0) s t ∧ die t d = erased (die s d) b := by
  have dies := (endEntry_keepsDies s d 0).1
  have same : die (endEntry s d 0) d = die s d := endEntry_die ..
  have erasedQuiet : NoQueue (setDie (endEntry s d 0) d (erased (die s d) b)) :=
    noQueue_setDie (noQueue_of_dies quiet dies) (by rw [same]; rfl)
  have ends := eraseReady_ends erasing
  rw [repeatDone_first (by rw [same]; exact first), eraseDone_first (by rw [same]; exact block)
    (by rw [same]; exact firstErase), same, pump_quiet erasedQuiet] at ends
  exact ⟨_, ends, die_setDie _ _ _ (dies ▸ wf)⟩

theorem eraseSuspend_boundary (erasing : (die s d).st = .erasing) (room : (die s d).suspends < (hdrOf s d).suspends) :
    Does (.eraseSuspend d true) s (suspendErase s d true) := by
  show execEraseSuspend d true s = _
  simp [execEraseSuspend, erasing, room]

theorem eraseSuspendDone_suspends (suspending : (die s d).st = .suspending) (quiet : NoQueue s) :
    Does (.eraseSuspendDone d 4) s (setDie (endEntry s d 4) d
      { die s d with st := .suspended, suspends := (die s d).suspends + 1 }) := by
  have ended := noQueue_of_dies quiet (endEntry_keepsDies s d 4).1
  show execEraseSuspendDone d 4 s = _
  simp only [execEraseSuspendDone, suspending, ne_eq, not_true_eq_false, if_false, if_true]
  rw [pump_quiet (noQueue_setDie ended (by rw [endEntry_die]))]

theorem eraseResume_resumes (may : mayResume s d false = true) : Does (.eraseResume d) s (resumeErase s d) :=
  congrArg _ (if_pos may)

end

/-- Settles O15: programs and erases start alone in their queue, and their ends leave a quiet scheduler. -/
theorem dieProgramsAndErases : Obligations.DieProgramsAndErases := by
  unfold Obligations.DieProgramsAndErases
  refine ⟨fun s d elapsed job handled inService alive => ⟨programIssue_queues elapsed handled inService alive,
      programIssue_notReady elapsed handled inService alive, programIssue_starts elapsed handled inService alive⟩,
    fun s d job => programReady_ends, fun s d => systemReady_idles, fun s d block => ⟨eraseIssue_noCell,
      eraseIssue_starts, ?_, eraseSuspend_boundary, fun suspending quiet _ => eraseSuspendDone_suspends suspending quiet,
      eraseResume_resumes⟩⟩
  intro b erasing running first firstErase quiet wf cyclesWf
  obtain ⟨t, ends, done⟩ := eraseReady_completes erasing running first firstErase quiet wf
  refine ⟨t, ends, ?_⟩
  rw [done]
  exact ⟨rfl, rfl, mem_addTo b _, kvGet_put_self _ _ _ _ cyclesWf⟩

end Sys2Proof.Machine

namespace Sys2Proof.Machine

open Sys2Proof

/-! The placement of a read (R180). -/

section
variable {s : State} {rid unit : Nat} {r : RdUnit} {remain : List (Nat × Nat)}

theorem readIssue_places (found : rdUnit? s rid unit = some r) (queued : r.mode = .queued)
    (running : s.power.hold = .running) : Does (.dieReadIssue rid unit remain) s (placeRead s r remain) := by
  show execDieReadIssue rid unit remain s = _
  simp only [execDieReadIssue, found]
  rw [if_pos ⟨queued, running⟩]

/-- A read of class 2 or more never looks at its start wait. -/
theorem placeRead_bulk (direct : directOk s r = true) (bulk : 2 ≤ servedClass s r) (shut : targetShut s r = false) :
    placeRead s r remain = goDirect (countWait s r
      (startWait s remain (facetDie r.group r.facet) (unitReq s r false))) r := by
  simp [placeRead, direct, bulk, shut]

/-- The read unit goes direct, and what the die may start of it is as before. -/
theorem goDirect_starts (quiet : NoQueue s) (wf : kvWf {} s.dies) (ctxsWf : kvWf {} s.ctxs)
    (idle : (die s (facetDie r.group r.facet)).st = .idle)
    (can : canStart s s.sched.slotUs (facetDie r.group r.facet) (unitReq s r false) = true) :
    let d := facetDie r.group r.facet
    (die (goDirect s r) d).st = .reading ∧ (die (goDirect s r) d).reading = [unitReq s r false] ∧
      (die (goDirect s r) d).queue = [] ∧ (ctx (goDirect s r) d).entry = some 0 :=
  enqueueRead_starts (setRdUnit s _) _ _ quiet wf idle rfl can ctxsWf

theorem readIssue_bulk (found : rdUnit? s rid unit = some r) (queued : r.mode = .queued)
    (running : s.power.hold = .running) (direct : directOk s r = true) (bulk : 2 ≤ servedClass s r)
    (shut : targetShut s r = false) : Does (.dieReadIssue rid unit remain) s (goDirect (countWait s r
      (startWait s remain (facetDie r.group r.facet) (unitReq s r false))) r) :=
  (readIssue_places found queued running).trans (congrArg _ (placeRead_bulk direct bulk shut))

end

/-! The end of a direct read (R189, R219). -/

section
variable {s : State} {d : Nat}

/-- A die whose only read has left it. -/
abbrev readOff (v : Die) : Die := { v with reading := [], st := .idle }

/-- The state in which a die's only read has left it. -/
abbrev readEnded (s : State) (d : Nat) : State := endEntry (setDie s d (readOff (die s d))) d 0

theorem readEnded_die (wf : kvWf {} s.dies) : die (readEnded s d) d = readOff (die s d) :=
  (endEntry_die ..).trans (die_setDie _ _ _ wf)

theorem readDone_nothingRead {rid unit : Nat} {read : Decoded} {remain : List (Nat × Nat)}
    (nothing : (die s d).reading = []) : Does (.dieReadDone rid unit d read remain) s s := by
  show execDieReadDone rid unit d read remain s = _
  simp [execDieReadDone, nothing]

/-- A read whose path is clean gives its outcome to its unit. -/
theorem readDone_outcome {q : DReq} {r : RdUnit} {dec : Dec} {remain : List (Nat × Nat)} (wf : kvWf {} s.dies)
    (reading : (die s d).reading = [q]) (state : (die s d).st = .reading) (first : (die s d).repeated = false)
    (found : rdUnit? s q.rid q.unit = some r) : Does (.dieReadDone q.rid q.unit d ⟨dec, .clean, .clean⟩ remain) s
      (pump (readOutcome (readEnded s d) r d q.member dec remain) d) := by
  have once : repeatDone (readEnded s d) d = readEnded s d := repeatDone_first (by rw [readEnded_die wf]; exact first)
  obtain ⟨-, -, -, reads, -⟩ := endEntry_keepsDies (setDie s d (readOff (die s d))) d 0
  have sought : rdUnit? (readEnded s d) q.rid q.unit = some r := by
    rw [rdUnit?, reads]
    exact found
  show execDieReadDone q.rid q.unit d ⟨dec, .clean, .clean⟩ remain s = _
  simp [execDieReadDone, reading, state, once, sramPath, SramPath.bad, sought]

/-- A die with one read more counted of a block. -/
def countedRead (v : Die) (b : Nat) : Die := { v with readCount := kvPut 0 b (kvGet 0 b v.readCount + 1) v.readCount }

/-- A margin below the thresholds of R219 is only counted. -/
theorem judge_counts {r : RdUnit} {corrected : Nat} (fewBits : corrected < od s 0x4010 0x02)
    (fewReads : kvGet 0 (rowBlock s d r.row) (die s d).readCount + 1 < od s 0x4010 0x03) :
    judge s d r corrected 0 = setDie s d (countedRead (die s d) (rowBlock s d r.row)) := by
  simp [judge, countedRead, Nat.not_le.2 fewBits, Nat.not_le.2 fewReads]

theorem rdUnit?_dropRdUnit (rid unit : Nat) : rdUnit? (dropRdUnit s rid unit) rid unit = none := by
  refine List.find?_eq_none.2 fun q kept => ?_
  exact Bool.eq_false_iff.1 ((Bool.not_eq_true' _).mp (List.mem_filter.1 kept).2)

/-- A command found by its number is found again as it was written. -/
theorem cmd?_setCmd {k v : Cmd} {id : Nat} (found : cmd? s id = some k) (sameId : v.id = id) :
    cmd? (setCmd s v) id = some v := by
  subst sameId
  have sameTest : ((fun c : Cmd => c.id == v.id) ∘ fun c => if c.id = v.id then v else c) = fun c => c.id == v.id := by
    funext c
    by_cases hit : c.id = v.id <;> simp [hit]
  rw [cmd?, setCmd, List.find?_map, sameTest, show s.host.cmds.find? (fun c => c.id == v.id) = some k from found]
  exact congrArg some (if_pos (cmd?_id found))

theorem tryRead_waits {k : Cmd} {id : Nat} (found : cmd? s id = some k) (sought : k.need ≠ []) : tryRead s id = s := by
  simp [tryRead, found, sought]

/-- A unit that arrives while others of its command are sought leaves the command waiting. -/
theorem unitArrived_waits {r : RdUnit} {k : Cmd} (own : r.peri = false) (found : cmd? s r.rid = some k)
    (more : ∃ u ∈ k.need, u ≠ r.unit) : unitArrived s r =
      setCmd (dropRdUnit s r.rid r.unit) { k with need := k.need.filter fun u => u != r.unit } := by
  have sought : cmd? (dropRdUnit s r.rid r.unit) r.rid = some k := found
  have left : k.need.filter (fun u => u != r.unit) ≠ [] := by
    obtain ⟨u, needed, other⟩ := more
    exact List.ne_nil_of_mem (List.mem_filter.2 ⟨needed, by simpa using other⟩)
  simp only [unitArrived, leavePeriscope, own, Bool.false_eq_true, if_false, sought]
  have sameId : k.id = r.rid := cmd?_id found
  exact tryRead_waits (cmd?_setCmd sought sameId) left

theorem rowBlock_of {t : State} {row : Nat} (dict : t.dict = s.dict) (rowMap : (die t d).rowMap = (die s d).rowMap)
    (good : (die t d).good = (die s d).good) (bad : (die t d).bad = (die s d).bad) :
    rowBlock t d row = rowBlock s d row := by
  unfold rowBlock stockBlock goodBlock bandGap rowsR rowsT od
  rw [dict, rowMap, good, bad]

/-- A direct read that decodes with a margin below the thresholds brings its unit in, and its die is idle again. -/
theorem readDone_directGood {q : DReq} {r : RdUnit} {k : Cmd} {c : Nat} {remain : List (Nat × Nat)}
    (reading : (die s d).reading = [q]) (own : q.member = false) (state : (die s d).st = .reading)
    (first : (die s d).repeated = false) (found : rdUnit? s q.rid q.unit = some r) (direct : r.mode = .direct)
    (noPeriscope : r.peri = false) (quiet : NoQueue s) (wf : kvWf {} s.dies) (command : cmd? s r.rid = some k)
    (more : ∃ u ∈ k.need, u ≠ r.unit) (fewBits : c < od s 0x4010 0x02)
    (fewReads : kvGet 0 (rowBlock s d r.row) (die s d).readCount + 1 < od s 0x4010 0x03) :
    ∃ t, Does (.dieReadDone q.rid q.unit d ⟨.good c, .clean, .clean⟩ remain) s t ∧
      die t d = countedRead (readOff (die s d)) (rowBlock s d r.row) ∧
      rdUnit? t r.rid r.unit = none := by
  obtain ⟨dies, -, host, -, dict⟩ := endEntry_keepsDies (setDie s d (readOff (die s d))) d 0
  have ended := readEnded_die (d := d) wf
  have block : rowBlock (readEnded s d) d r.row = rowBlock s d r.row :=
    rowBlock_of dict (by rw [ended]) (by rw [ended]) (by rw [ended])
  have endedQuiet : NoQueue (readEnded s d) := noQueue_of_dies (noQueue_setDie quiet (by rfl)) dies
  have endedWf : kvWf {} (readEnded s d).dies := dies ▸ kvWf_put _ _ _ _ wf
  have counts : judge (readEnded s d) d r c 0 =
      setDie (readEnded s d) d (countedRead (readOff (die s d)) (rowBlock s d r.row)) := by
    have threshold (e : Nat) : od (readEnded s d) 0x4010 e = od s 0x4010 e := by rw [od, dict]; rfl
    rw [judge_counts (by rwa [threshold]) (by rw [threshold, block, ended]; exact fewReads), block, ended]
  have waiting : cmd? (judge (readEnded s d) d r c 0) r.rid = some k := by
    rw [counts, setDie_cmdOpt, cmd?, host]
    exact command
  have outcome := readDone_outcome (dec := .good c) (remain := remain) wf reading state first found
  simp only [readOutcome, own, direct, if_true, unitArrived_waits noPeriscope waiting more] at outcome
  have countedQuiet : NoQueue (setDie (readEnded s d) d (countedRead (readOff (die s d)) (rowBlock s d r.row))) :=
    noQueue_setDie endedQuiet (by rw [ended]; rfl)
  rw [counts, pump_of_dies countedQuiet (by rfl)] at outcome
  exact ⟨_, outcome, die_setDie _ _ _ endedWf, rdUnit?_dropRdUnit ..⟩

/-! The retry ladder (R218). -/

/-- The die of a group that is no contract group spends no share. -/
theorem useShare_free {cls : Nat} {slc : Bool} (free : isContract s (dieGroup d) = false) : useShare s d cls slc = s :=
  if_neg fun h => by simp [free] at h

section
variable {rid unit : Nat} {r : RdUnit} {path : SramPath} {remain : List (Nat × Nat)} {dec : Dec}

theorem sramPath_clean (staging : path.staging = .clean) (fifo : path.fifo = .clean) :
    sramPath s path = s ∧ SramPath.bad path = false := by
  simp [sramPath, SramPath.bad, staging, fifo]

/-- What a step of the ladder does once the die has taken it: a hard step ends, a soft one waits for its decoder. -/
def ladderStep (s : State) (r : RdUnit) (dec : Dec) : State :=
  if r.step + 1 ≤ 1 + od s 0x4010 0x01 then
    match dec with
    | .good _ => ladderGood s { r with step := r.step + 1 } (r.step + 1)
    | .bad => setRdUnit (if r.step + 1 = 1 then lastingMedia s (ladderDie r) r.row else s) { r with step := r.step + 1 }
  else setRdUnit s { r with step := r.step + 1, left := [16 + (r.step + 1)] }

/-- A direct read that stands on no die and waits for no decoder takes its step in its turn. -/
theorem readRetry_steps (found : rdUnit? s rid unit = some r) (direct : r.mode = .direct) (offDie : onDie s r = false)
    (noDecoder : r.left = []) (turn : ladderTurn s r = true) (staging : path.staging = .clean)
    (fifo : path.fifo = .clean) (free : isContract s (dieGroup (ladderDie r)) = false)
    (within : r.step ≤ 3 + od s 0x4010 0x01) :
    Does (.readRetryStep rid unit ⟨⟨dec, path⟩, remain⟩) s (ladderStep s r dec) := by
  obtain ⟨same, fine⟩ := sramPath_clean (s := s) staging fifo
  show execReadRetryStep rid unit ⟨⟨dec, path⟩, remain⟩ s = _
  rw [execReadRetryStep, found]
  dsimp only
  rw [if_neg (by simp [direct, offDie, noDecoder]), if_neg (by omega), if_neg (by simp [turn]), useShare_free free, same,
    if_neg (by simp [fine])]
  rfl

theorem ladderStep_good {c : Nat} (hard : r.step ≤ od s 0x4010 0x01) :
    ladderStep s r (.good c) = ladderGood s { r with step := r.step + 1 } (r.step + 1) := if_pos (by omega)

theorem ladderStep_bad (later : 1 ≤ r.step) (hard : r.step ≤ od s 0x4010 0x01) :
    ladderStep s r .bad = setRdUnit s { r with step := r.step + 1 } :=
  (if_pos (by omega)).trans (by simp only [if_neg (show ¬r.step + 1 = 1 by omega)])

theorem ladderStep_soft (soft : od s 0x4010 0x01 < r.step) :
    ladderStep s r dec = setRdUnit s { r with step := r.step + 1, left := [16 + (r.step + 1)] } := if_neg (by omega)

/-- A decoder takes the codeword of the channel whose turn it is. -/
theorem softDecode_fails (found : rdUnit? s rid unit = some r) (waits : 16 ≤ r.left.headD 0)
    (decoder : s.bist.decodersOut.length < 16) (staging : path.staging = .clean) (fifo : path.fifo = .clean)
    (turn : rotPick s.sched.softPtr (softWaiting s) = some (dieChan (ladderDie r))) :
    Does (.softDecode rid unit ⟨.bad, path⟩) s (setRdUnit
      (odBump { s with sched.softPtr := (dieChan (ladderDie r) + 1) % 64 } 0x4000 0x03) { r with left := [] }) := by
  obtain ⟨same, fine⟩ := sramPath_clean
    (s := { s with sched.softPtr := (dieChan (ladderDie r) + 1) % 64 }) staging fifo
  have soft : (r.left.any fun x => decide (16 ≤ x)) = true := by
    cases listed : r.left with
    | nil => simp [listed] at waits
    | cons x rest => simpa [listed] using .inl (by simpa [listed] using waits)
  show execSoftDecode rid unit ⟨.bad, path⟩ s = _
  simp [execSoftDecode, found, soft, Nat.not_le.2 decoder, turn, same, fine]

end
end

/-- Settles O14: a bulk read starts on its free die, a direct one that decodes ends there, and the ladder's steps by
kind. -/
theorem dieReads : Obligations.DieReads := by
  unfold Obligations.DieReads
  refine ⟨fun s rid unit r remain found => ⟨readIssue_places found, readIssue_bulk found, ?_⟩, ?_, ?_,
    fun s rid unit c r path remain found => ⟨?_, softDecode_fails found⟩⟩
  · intro d q queued running direct bulk shut quiet wf ctxsWf idle can
    have issues := readIssue_bulk (remain := remain) found queued running direct bulk shut
    rw [countWait_bulk s r _ bulk] at issues
    exact ⟨_, issues, goDirect_starts quiet wf ctxsWf idle can⟩
  · rintro s rid unit d r q c k remain reading rfl rfl own state first found direct noPeriscope sameRid sameUnit quiet wf
      countsWf command more fewBits fewReads
    obtain ⟨t, does, done, dropped⟩ := readDone_directGood (remain := remain) reading own state first found direct
      noPeriscope quiet wf (sameRid ▸ command) (sameUnit ▸ more) fewBits fewReads
    rw [sameRid, sameUnit] at dropped
    refine ⟨t, does, ?_⟩
    rw [done]
    exact ⟨rfl, rfl, dropped, kvGet_put_self _ _ _ _ countsWf⟩
  · exact fun s rid unit d dec path remain nothing => readDone_nothingRead nothing
  · intro direct offDie noDecoder turn staging fifo free
    have steps (dec : Dec) := readRetry_steps (dec := dec) (remain := remain) found direct offDie noDecoder turn staging
      fifo free
    refine ⟨fun hard => ?_, fun later hard => ?_, fun soft within => ?_⟩
    · exact ladderStep_good hard ▸ steps (.good c) (by omega)
    · exact ladderStep_bad later hard ▸ steps .bad (by omega)
    · exact ladderStep_soft soft ▸ steps .bad within

end Sys2Proof.Machine

namespace Sys2Proof.Machine

open Sys2Proof

/-! Slot boundaries (R169, R189, R191). -/

/-- Only the dies and their contexts differ. -/
def DiesOnly (s t : State) : Prop := ∃ dies ctxs, t = { s with dies := dies, ctxs := ctxs }

theorem DiesOnly.refl (s : State) : DiesOnly s s := ⟨s.dies, s.ctxs, rfl⟩

theorem DiesOnly.trans {s t u : State} (first : DiesOnly s t) (next : DiesOnly t u) : DiesOnly s u := by
  obtain ⟨_, _, rfl⟩ := first
  obtain ⟨dies, ctxs, rfl⟩ := next
  exact ⟨dies, ctxs, rfl⟩

theorem setDie_diesOnly (s : State) (d : Nat) (v : Die) : DiesOnly s (setDie s d v) := ⟨_, _, rfl⟩

theorem startEntry_diesOnly (s : State) (d entry block plane page column bytes : Nat) (slc : Bool) (mask v4 : Nat)
    (high : Bool) : DiesOnly s (startEntry s d entry block plane page column bytes slc mask v4 high) := ⟨_, _, rfl⟩

/-- A step of the scheduler that only touches the dies leaves nothing waiting. -/
def QuietStep (s t : State) : Prop := DiesOnly s t ∧ NoQueue t

theorem QuietStep.trans {s t u : State} (first : QuietStep s t) (next : QuietStep t u) : QuietStep s u :=
  ⟨first.1.trans next.1, next.2⟩

section
variable {s : State} (quiet : NoQueue s) (d : Nat)
include quiet

theorem setDie_quietStep {v : Die} (kept : v.queue = (die s d).queue) : QuietStep s (setDie s d v) :=
  ⟨setDie_diesOnly s d v, noQueue_setDie quiet kept⟩

theorem suspendErase_quietStep (boundary : Bool) : QuietStep s (suspendErase s d boundary) :=
  (setDie_quietStep quiet d (by rfl)).trans ⟨startEntry_diesOnly .., noQueue_setDie quiet (by rfl)⟩

theorem resumeErase_quietStep : QuietStep s (resumeErase s d) :=
  (setDie_quietStep quiet d (by rfl)).trans ⟨startEntry_diesOnly .., noQueue_setDie quiet (by rfl)⟩

end

/-- What a slot boundary does on one die before the queues are looked at. -/
def slotDie (s : State) (d : Nat) : State :=
  let dd := die s d
  let s := setDie s d { dd with resumed := false }
  match dd.st with
  | .erasing => if dd.suspends < (hdrOf s d).suspends then suspendErase s d true else s
  | .suspended => if dd.atBoundary && mayResume s d true then resumeErase s d else s
  | _ => s

theorem slotDie_quietStep {s : State} (quiet : NoQueue s) (d : Nat) : QuietStep s (slotDie s d) := by
  have cleared : QuietStep s (setDie s d { die s d with resumed := false }) := setDie_quietStep quiet d (by rfl)
  unfold slotDie
  dsimp only
  split
  case h_1 =>
    split
    · exact cleared.trans (suspendErase_quietStep cleared.2 d true)
    · exact cleared
  case h_2 =>
    split
    · exact cleared.trans (resumeErase_quietStep cleared.2 d)
    · exact cleared
  case h_3 => exact cleared

theorem pumpAll_quiet {s : State} (quiet : NoQueue s) (ds : List Nat) :
    ds.foldl (fun s d => pumpN d (die s d).queue.length s) s = s := by
  induction ds with
  | nil => rfl
  | cons d ds ih => rwa [List.foldl_cons, noQueue_die quiet d]

/-- A slot boundary with nothing waiting touches the dies and their contexts only. -/
theorem slotTurn_diesOnly {s : State} (quiet : NoQueue s) : DiesOnly s (slotTurn s) := by
  have stepped : QuietStep s ((s.dies.map (·.1)).foldl slotDie s) :=
    foldl_holds (QuietStep s) slotDie (fun _ d so => so.trans (slotDie_quietStep so.2 d)) _ s ⟨.refl s, quiet⟩
  have turned : slotTurn s = serve ((s.dies.map (·.1)).foldl (fun s d => pumpN d (die s d).queue.length s)
      ((s.dies.map (·.1)).foldl slotDie s)) 0 := rfl
  rw [turned, pumpAll_quiet stepped.2, serve_quiet stepped.2]
  exact stepped.1

/-! Frame boundaries (R169). -/

/-- A frame of s begins in t: its slot, length, mask, mode and budgets. -/
def FrameStart (s t : State) : Prop :=
  t.sched.slot = 0 ∧ t.sched.qlcUsed = 0 ∧ t.sched.slcUsed = 0 ∧ t.sched.eraseUsed = 0 ∧ t.sched.sysUsed = 0 ∧
    t.sched.slotUs = od (odBump s 0x3100 0x09) 0x3100 0x01 ∧ t.sched.mask = od (odBump s 0x3100 0x09) 0x3100 0x02 ∧
    t.loop.mode = od (odBump s 0x3100 0x09) 0x8200 0x01 ∧ t.zones = s.zones ∧ t.adm = s.adm

/-- A frame has begun with nothing waiting. -/
def FrameBegun (s t : State) : Prop := FrameStart s t ∧ NoQueue t

theorem FrameBegun.tells {s t u : State} (begun : FrameBegun s t) (tells : Tells t u) : FrameBegun s u := by
  rw [FrameBegun, FrameStart, tells.sched, tells.loop, tells.zones, tells.adm]
  exact ⟨begun.1, noQueue_of_dies begun.2 tells.dies⟩

theorem FrameBegun.setDie {s t : State} (begun : FrameBegun s t) (d : Nat) {v : Die}
    (kept : v.queue = (die t d).queue) : FrameBegun s (Machine.setDie t d v) :=
  ⟨begun.1, noQueue_setDie begun.2 kept⟩

/-- Changing every die but its queue leaves nothing waiting. -/
theorem noQueue_kvMap {s : State} (quiet : NoQueue s) {f : Die → Die} (kept : ∀ v, (f v).queue = v.queue) :
    NoQueue { s with dies := kvMap {} f s.dies } := by
  intro e listed
  obtain ⟨e', there, rfl⟩ := List.mem_map.1 (List.mem_filter.1 listed).1
  exact (kept e'.2).trans (quiet e' there)

/-- The frame counter moves on, and the slot values of the dictionary are in force. -/
def frameSlot (s : State) : State :=
  let s := odBump s 0x3100 0x09
  { s with sched.slot := 0, sched.slotUs := od s 0x3100 0x01, sched.mask := od s 0x3100 0x02
           loop.mode := od s 0x8200 0x01, loop.e0.late := false, loop.e1.late := false }

/-- The budgets of a loop mode are reported. -/
def frameReports (s : State) : State :=
  if s.loop.mode = 0 then s
  else odSet (odSet (odSet s 0x3100 0x0A 0 (budgets s).1) 0x3100 0x0B 0 (budgets s).2.1) 0x3100 0x0C 0 (budgets s).2.2

theorem frameReports_tells (s : State) : Tells s (frameReports s) :=
  .ite _ (.refl s) (((odSet_tells ..).trans (odSet_tells ..)).trans (odSet_tells ..))

/-- The budgets and the utilisation are in force, and no grant of the frame is used. -/
def frameBudgets (s : State) (budget : Nat × Nat × Nat) : State :=
  { s with sched.qlcBudget := budget.1, sched.slcBudget := budget.2.1, sched.eraseBudget := budget.2.2
           sched.qlcUsed := 0, sched.slcUsed := 0, sched.eraseUsed := 0, sched.sysUsed := 0
           loop.uInForce := if s.pwr.wakeLevel ∨ (eng s 0).phase ≠ 3 then toSigned 16 (od s 0x8200 0x04)
                            else s.loop.u }

/-- A frame's share of background reads begins anew (R186). -/
def freshShare (v : Die) : Die := { v with bgNs := 0 }

/-- A die in phase 3 counts a clean frame (R243). -/
def countCleanFrame (s : State) (e : Nat × Die) : State :=
  setDie s e.1 { die s e.1 with cleanFrames := if facetsLeft s e.1 = [] then (die s e.1).cleanFrames + 1 else 0 }

/-- A frame boundary by its parts. -/
theorem frameTurn_eq (s : State) :
    let framed := frameBudgets (frameReports (frameSlot s)) (budgets (frameSlot s))
    let grouped := (List.range 128).foldl groupFrame { framed with dies := kvMap {} freshShare framed.dies }
    frameTurn s = lensContractEvents ((grouped.dies.filter fun e => e.2.phase == 3).foldl countCleanFrame grouped) := rfl

theorem frameTurn_begins {s : State} (quiet : NoQueue s) : FrameBegun s (frameTurn s) := by
  have reports := frameReports_tells (frameSlot s)
  rw [frameTurn_eq]
  refine FrameBegun.tells ?_ (lensContractEvents_tells _)
  refine foldl_holds (FrameBegun s) _ (fun t e begun => begun.setDie e.1 (by rfl)) _ _ ?_
  refine FrameBegun.tells ?_ (tells_foldl _ groupFrame_tells _ _)
  refine ⟨?_, noQueue_kvMap (noQueue_of_dies quiet reports.dies) fun _ => rfl⟩
  exact ⟨congrArg Sched.slot reports.sched, rfl, rfl, rfl, rfl, congrArg Sched.slotUs reports.sched,
    congrArg Sched.mask reports.sched, congrArg Loop.mode reports.loop, reports.zones, reports.adm⟩

/-- The slot boundary that begins the frame leaves what the frame began with. -/
theorem FrameBegun.slotTurn {s t : State} (begun : FrameBegun s t) : FrameStart s (Machine.slotTurn t) := by
  obtain ⟨dies, ctxs, turned⟩ := slotTurn_diesOnly begun.2
  rw [turned]
  exact begun.1

section
variable {s : State}

theorem slotBoundary_advances (notLast : s.sched.slot < 15) :
    Does .slotBoundary s (slotTurn { s with sched.slot := s.sched.slot + 1 }) := by
  show execSlotBoundary s = _
  rw [execSlotBoundary, if_neg (Nat.not_le.2 notLast)]

theorem slotBoundary_turnsFrame (last : 15 ≤ s.sched.slot) : Does .slotBoundary s (slotTurn (frameTurn s)) := by
  show execSlotBoundary s = _
  rw [execSlotBoundary, if_pos last]

theorem frameBoundary_none (notLast : s.sched.slot < 15) : Does .frameBoundary s s := by
  show execFrameBoundary s = _
  rw [execFrameBoundary, if_neg (Nat.not_le.2 notLast)]

theorem frameBoundary_turnsFrame (last : 15 ≤ s.sched.slot) : Does .frameBoundary s (slotTurn (frameTurn s)) := by
  show execFrameBoundary s = _
  rw [execFrameBoundary, if_pos last]

end

/-! Script swaps (R213). -/

/-- A channel with the script image v swapped in. -/
def swappedIn (s : State) (ch v : Nat) : State :=
  setChan s ch { chan s ch with hdr := scriptHdr v (chan s ch).hdr, code := scriptCode v, entry := scriptEntries v
                                pending := none, faulted := false, scripted := true }

section
variable {s : State} {ch rate v : Nat} (loaded : (chan s ch).pending = some v)
include loaded

theorem scriptSwap_waits (running : chanQuiet s ch = false) : Does (.channelScriptSwap ch rate) s s := by
  show execChannelScriptSwap ch rate s = _
  simp [execChannelScriptSwap, loaded, running]

theorem scriptSwap_swaps (idle : chanQuiet s ch = true) {trained : Bool}
    (changes : ((scriptHdr v (chan s ch).hdr).mode != (chan s ch).hdr.mode ||
      (scriptHdr v (chan s ch).hdr).rate != (chan s ch).hdr.rate) = trained) :
    Does (.channelScriptSwap ch rate) s (nextLoad (setChanState
      (if trained then rateFound (swappedIn s ch v) ch rate else swappedIn s ch v) ch
      (if (chan s ch).state = 1 then 0 else (chan s ch).state))) := by
  subst changes
  show execChannelScriptSwap ch rate s = _
  rw [execChannelScriptSwap, loaded]
  exact congrArg _ (if_neg (by simp [idle]))

end

/-- Settles O21: a boundary is a turn of the slots or of the frame; a swap retrains where the interface changes. -/
theorem slotsFramesAndScriptSwaps : Obligations.SlotsFramesAndScriptSwaps := by
  unfold Obligations.SlotsFramesAndScriptSwaps
  refine ⟨fun s => ⟨fun notLast => ⟨slotBoundary_advances notLast, frameBoundary_none notLast⟩,
      fun last => ⟨slotBoundary_turnsFrame last, frameBoundary_turnsFrame last⟩, ?_, ?_⟩,
    fun s ch rate v loaded => ⟨scriptSwap_waits loaded, fun idle => ⟨fun mode rate => ?_, fun changed => ?_⟩⟩⟩
  · intro notLast quiet
    have advanced : NoQueue { s with sched.slot := s.sched.slot + 1 } := quiet
    obtain ⟨dies, ctxs, turned⟩ := slotTurn_diesOnly advanced
    refine ⟨_, slotBoundary_advances notLast, ?_⟩
    rw [turned]
    exact ⟨rfl, rfl, rfl, rfl, rfl, rfl⟩
  · intro last quiet i boundary
    refine ⟨slotTurn (frameTurn s), ?_, (frameTurn_begins quiet).slotTurn⟩
    rcases List.mem_pair.1 boundary with rfl | rfl
    · exact slotBoundary_turnsFrame last
    · exact frameBoundary_turnsFrame last
  · exact scriptSwap_swaps loaded idle (trained := false) (by simp [mode, rate])
  · exact scriptSwap_swaps loaded idle (trained := true) (by simpa using changed)

end Sys2Proof.Machine

namespace Sys2Proof.Machine

open Sys2Proof

/-! MCTP control messages and NVMe-MI on a binding that is up (R484; log entry 61). -/

section
variable {s : State} {b : Nat} (up : mctpUp s b = true)
include up

theorem mctpControl_answers (command : Nat) (words : List Nat) :
    mctpControl s b command words = mctpOut s b 0x00 (command :: words) := if_pos up

theorem setEndpointId_takes {eid : Nat} (notNull : eid ≠ 0) (notBroadcast : eid ≠ 0xFF) :
    Does (.setEndpointId b eid) s (mctpOut (dropSet { s with mgmt.eids := kvPut 0 b eid s.mgmt.eids } (.mgmt b)) b 0x00
      [0x01, 0x00, 0x00, eid, 0]) := by
  show execSetEndpointId b eid s = _
  simp [execSetEndpointId, up, notNull, notBroadcast]

theorem setEndpointId_refused {eid : Nat} (invalid : eid = 0 ∨ eid = 0xFF) :
    Does (.setEndpointId b eid) s (mctpOut s b 0x00 [0x01, 0x02]) := by
  show execSetEndpointId b eid s = _
  simp [execSetEndpointId, up, invalid]

/-- The test of a binding that is down, which opens the meaning of an NVMe-MI message. -/
theorem mctpUp_passes : ¬(!mctpUp s b) = true := by simp [up]

theorem nvmeMi_ledger (remap : Bool) (first count : Nat) : Does (.nvmeMiMessage b (.ledgerLog 0 remap first count)) s
    (miPage s b (ledgerPage s 0 [] remap first count).1 (ledgerPage s 0 [] remap first count).2) :=
  congrArg Host.Outcome.next (if_neg (mctpUp_passes up))

theorem nvmeMi_mediaHealth : Does (.nvmeMiMessage b .mediaHealth) s (miPage s b 0 (mediaPage s)) :=
  congrArg Host.Outcome.next (if_neg (mctpUp_passes up))

theorem nvmeMi_contractLog (lens : Nat) :
    Does (.nvmeMiMessage b (.contractLog lens)) s (miPage s b 0 (contractPage s lens)) :=
  congrArg Host.Outcome.next (if_neg (mctpUp_passes up))

theorem nvmeMi_smart : Does (.nvmeMiMessage b .smart) s (miPage s b 0 (.words (smartPage s 0))) :=
  congrArg Host.Outcome.next (if_neg (mctpUp_passes up))

theorem nvmeMi_supportedLogPages : Does (.nvmeMiMessage b .supportedLogPages) s (miPage s b 0 supportedLogs) :=
  congrArg Host.Outcome.next (if_neg (mctpUp_passes up))

theorem nvmeMi_dictRead (r : OdReq) : Does (.nvmeMiMessage b (.dictRead (.read r))) s
    (dictRequest s (.mgmt b) (.read r) none fun s => readOd s (.mgmt b) r false) :=
  congrArg Host.Outcome.next (if_neg (mctpUp_passes up))

theorem nvmeMi_dictWrite {ops : List DictOp} (secured : Bool) (spares : Nat) (nonempty : ops ≠ []) (atMost : ops.length ≤ 256)
    (reached : reaches s (.mgmt b) = true) : Does (.nvmeMiMessage b (.dictWrite ops secured spares)) s
      (runList { who := .mgmt b, secured := secured, a := none, twinSpares := spares } ops 0 s) := by
  have wellFormed : ¬(ops.isEmpty ∨ 256 < ops.length) := by simp [nonempty, atMost]
  exact congrArg Host.Outcome.next
    ((if_neg (mctpUp_passes up)).trans ((if_neg wellFormed).trans (if_pos reached)))

end

theorem miPage_served {s : State} (service : inService s = true) (b st : Nat) (p : Payload) :
    miPage s b st p = mctpOut s b 0x04 (st :: payloadWords p) := if_pos service

/-! Addresses and modes of the I3C buses (R486, R594; log entry 62). -/

section
variable {s : State} {bus : Nat}

theorem assignAddress_free (up : mctpUp s bus = true) (free : kvGet 0 bus s.mgmt.addrs = 0) (a : Nat) :
    assignAddress s bus a = { s with mgmt.addrs := kvPut 0 bus a s.mgmt.addrs } := if_neg (by simp [up, free])

theorem assignAddress_taken (taken : kvGet 0 bus s.mgmt.addrs ≠ 0) (a : Nat) : assignAddress s bus a = s :=
  if_pos (.inr taken)

theorem entdaa_assigns (a : Nat) : Does (.entdaa bus a) s (assignAddress s bus a) := rfl

theorem setdasa_own (a : Nat) : Does (.setdasa bus (staticAddress s) a) s (assignAddress s bus a) :=
  congrArg Host.Outcome.next (if_pos rfl)

theorem setdasa_other {st : Nat} (other : st ≠ staticAddress s) (a : Nat) : Does (.setdasa bus st a) s s :=
  congrArg Host.Outcome.next (if_neg other)

theorem resetBus_noAddress (wf : kvWf 0 s.mgmt.addrs) : kvGet 0 bus (resetBus s bus).mgmt.addrs = 0 :=
  kvGet_put_self _ _ _ _ wf

theorem resetBus_leavesHdr : bus ∉ (resetBus s bus).mgmt.hdr := by simp [resetBus]

end

/-! FLIT errors of the host link and the retraining of a flash channel (R223, R225, R243, R598; log entry 64). -/

section
variable {s : State} {port ch rate : Nat}

/-- A port of a link that serves configuration space: the test of execFlitCheckFailure finds the link. -/
theorem flitCheck_linked (served : s.host.cfgServed = true) (linked : port = 0 ∨ s.host.bifurcated = true) :
    ¬((!s.host.cfgServed) = true ∨ port ≠ 0 ∧ (!s.host.bifurcated) = true) := by
  rcases linked with h | h <;> simp [served, h]

theorem flitCheck_replayed (served : s.host.cfgServed = true) (linked : port = 0 ∨ s.host.bifurcated = true) :
    Does (.flitCheckFailure port true) s (loupe (odBump s 0x4000 0x0B) 225 0x10 1 [port]) :=
  congrArg Host.Outcome.next (if_neg (flitCheck_linked served linked))

theorem flitCheck_recovers (served : s.host.cfgServed = true) (linked : port = 0 ∨ s.host.bifurcated = true) :
    Does (.flitCheckFailure port false) s
      (loupe (hostTrains (odBump (odBump s 0x4000 0x0C) 0x1020 0x02 port)) 225 0x10 4 [port]) :=
  congrArg Host.Outcome.next (if_neg (flitCheck_linked served linked))

theorem flitCheck_noLink (notServed : s.host.cfgServed = false) (replayOk : Bool) :
    Does (.flitCheckFailure port replayOk) s s := congrArg Host.Outcome.next (if_pos (.inl (by simp [notServed])))

theorem retraining_begins (up : (chan s ch).state = 0) (service : s.rst.life = .service) :
    Does (.periodicChannelRetraining ch rate false) s
      (((chanDies ch).filter fun d => (die s d).st == .idle).foldl (fun s d => startReinit s d 13)
        (setChanState s ch 2)) := by
  show execPeriodicChannelRetraining ch rate false s = _
  simp [execPeriodicChannelRetraining, up, service]

theorem retraining_ends (trains : (chan s ch).state = 2) (quiet : chanQuiet s ch = true) :
    Does (.periodicChannelRetraining ch rate true) s (nextLoad (setChanState (rateFound
      (((chanDies ch).filter fun d => (ctx s d).entry == some 13).foldl (fun s d => endEntry s d 0) s) ch rate) ch 0)) := by
  show execPeriodicChannelRetraining ch rate true s = _
  simp [execPeriodicChannelRetraining, trains, quiet]

theorem retraining_notRunning (other : (chan s ch).state ≠ 2) :
    Does (.periodicChannelRetraining ch rate true) s s := by
  show execPeriodicChannelRetraining ch rate true s = _
  simp [execPeriodicChannelRetraining, other]

end

/-- Settles O46: each message, bus event and link event by the lemma of its case. -/
theorem managementLinks : Obligations.ManagementLinks := by
  unfold Obligations.ManagementLinks
  refine ⟨fun s b eid up => ?_, fun s bus a => ?_, fun s port ch rate => ?_⟩
  · exact ⟨setEndpointId_takes up, setEndpointId_refused up, congrArg _ (mctpControl_answers up ..),
      congrArg _ (mctpControl_answers up ..), congrArg _ (mctpControl_answers up ..),
      congrArg _ (mctpControl_answers up ..), nvmeMi_mediaHealth up, nvmeMi_contractLog up, nvmeMi_smart up,
      nvmeMi_supportedLogPages up, nvmeMi_ledger up, fun p service => miPage_served service b 0 p, nvmeMi_dictRead up,
      fun ops => nvmeMi_dictWrite up⟩
  · refine ⟨fun up free => ?_, fun taken => ?_, fun st other => setdasa_other other a, rfl, rfl, rfl, rfl,
      fun wf => ⟨resetBus_noAddress wf, resetBus_leavesHdr⟩⟩
    · rw [← assignAddress_free up free]
      exact ⟨entdaa_assigns a, setdasa_own a⟩
    · have same := assignAddress_taken taken a
      exact ⟨(entdaa_assigns a).trans (congrArg _ same), (setdasa_own a).trans (congrArg _ same)⟩
  · exact ⟨fun served linked => ⟨flitCheck_replayed served linked, flitCheck_recovers served linked⟩,
      fun notServed => flitCheck_noLink notServed, retraining_begins, retraining_ends, retraining_notRunning⟩

end Sys2Proof.Machine

namespace Sys2Proof.Machine

open Sys2Proof

/-! Dies and channels return to service (R242 to R247; log entry 37). -/

/-- A die at the start of its probation (R243): it tests, in phase 1, and its RESET_DIE runs. -/
def probationBegun (s : State) (d : Nat) : State :=
  startReinit (setDie s d { die s d with service := 2, phase := 1, st := .idle, cleanFrames := 0, verified := [] }) d 8

@[simp] theorem probationBegun_chan (s : State) (d c : Nat) : chan (probationBegun s d) c = chan s c := rfl

section
variable {s : State} {d ch : Nat}

theorem dieReturn_begins (accepted : dieReturnStatus s d = 0) (out : (die s d).service = 1) : dieReturn s d =
    if (chan s (dieChan d)).state = 3 then setChanState (probationBegun s d) (dieChan d) 2 else probationBegun s d :=
  if_neg (by simp [accepted, out])

theorem dieReturn_refused (refused : dieReturnStatus s d ≠ 0) : dieReturn s d = s := if_pos (.inl refused)

theorem channelReturn_trains (accepted : channelReturnStatus s ch = 0) (out : (chan s ch).state = 3) :
    channelReturn s ch = (chanDies ch).foldl dieReturn (setChanState s ch 2) := by
  rw [channelReturn, if_neg (not_not.2 accepted), if_pos out]

theorem channelReturn_refused (refused : channelReturnStatus s ch ≠ 0) : channelReturn s ch = s := if_pos refused

section
variable (service : s.rst.life = .service)
include service

theorem dieReturn_runs : Does (.dieReturn d) s (dieReturn s d) := congrArg Host.Outcome.next (if_pos service)

theorem channelReturn_runs : Does (.channelReturn ch) s (channelReturn s ch) :=
  congrArg Host.Outcome.next (if_pos service)

/-! The pair control element (R315 to R326, R341). -/

theorem pairWrite_controls (v : Nat) : pairWrite s v = pairControl s v := if_pos (.inl service)

end

theorem pairControl_refused {v : Nat} (refused : pairControlStatus s v ≠ 0) : pairControl s v = s := if_pos refused

theorem pairAttach_trains (apart : pairPhase s = 0) : pairControl s 1 =
    { s with pair.detached := false, pair.linkUp := false, pair.session := false } := if_neg (not_not.2 apart)

theorem pairDetach_lead (paired : pairPhase s ≠ 0) (lead : pairRole s = 1) : pairControl s 2 = separate s := by
  simp [pairControl, pairControlStatus, pairDetach, paired, lead]

theorem pairDetach_follower (paired : pairPhase s ≠ 0) (follower : pairRole s = 2) :
    pairControl s 2 = sendFrame s 0 0x04 [3, 0] := by
  simp [pairControl, pairControlStatus, pairDetach, paired, follower]

theorem pairControl_handover (lead : pairRole s = 1) (inStep : pairPhase s = 4) (noHandover : s.pair.handing = false) :
    pairControl s 3 = { s with pair.handing := true, adm.holdAll := true } := by
  have accepted : pairControlStatus s 3 = 0 := by simp [pairControlStatus, lead, inStep, noHandover]
  exact if_neg (not_not.2 accepted)

theorem handover_refused (notInStep : pairPhase s ≠ 4) : pairControlStatus s 3 ≠ 0 := by
  simp [pairControlStatus, notInStep]

theorem zoneAfter_pair (z : Nat) (r : Option LRec) : (zoneAfter s z r).pair = s.pair := by
  unfold zoneAfter
  dsimp only
  split <;> rfl

theorem discardAbove_pair (fork : Nat) : (discardAbove s fork).pair = s.pair :=
  foldl_holds (fun t => t.pair = s.pair) _ (fun _ _ same => (zoneAfter_pair ..).trans same) _ s rfl

theorem pairControl_discards (fenced : s.pair.fenced = true) (recorded : od s 0x5000 0x0B = 1)
    (noLink : s.pair.linkUp = false) (promoted : s.pair.promoted = true) : pairControl s 4 =
      odSave (odSave (discardAbove s (od s 0x5000 0x07)) 0x5000 0x0B 0 0) 0x5000 0x01 0 2 := by
  have accepted : pairControlStatus s 4 = 0 := by simp [pairControlStatus, fenced, recorded]
  refine (if_neg (not_not.2 accepted)).trans ?_
  simp [discardHistory, promoted, discardAbove_pair, noLink]

theorem discard_refused (unfenced : s.pair.fenced = false) : pairControlStatus s 4 ≠ 0 := by
  simp [pairControlStatus, unfenced]

theorem pairControl_clearsPairing (detached : s.pair.detached = true) : pairControl s 5 = clearPair s := by
  have accepted : pairControlStatus s 5 = 0 := by simp [pairControlStatus, detached]
  exact if_neg (not_not.2 accepted)

/-- An unpaired controller, before its ANA state is reported (R315). -/
def unpaired (s : State) : State :=
  let cleared := odSave (odSave (odSave (odSave (setPhase s 0) 0x5000 0x0B 0 0) 0x5000 0x01 0 0) 0x5000 0x04 0 0) 0x1010 0x02 0 0
  { cleared with pair.fenced := false, pair.detached := false, pair.waiting := false, pair.wasLead := false
                 pair.promoted := false, pair.newTwin := false, pair.linkUp := false, pair.session := false }

theorem clearPair_eq : clearPair s = endBootWait (setAna (unpaired s) 1) := rfl

/-- Outside the wait at a restart, the link is down and the twin no longer detached. -/
theorem clearPair_apart (noWait : s.pair.bootWait = false) : (clearPair s).pair.linkUp = false ∧
    (clearPair s).pair.session = false ∧ (clearPair s).pair.detached = false := by
  obtain ⟨pair, _⟩ := setAna_says (unpaired s) 1
  have noWait' : ¬(setAna (unpaired s) 1).pair.bootWait = true := by rw [pair]; exact (Bool.eq_false_iff.1 noWait)
  rw [clearPair_eq, endBootWait, if_neg noWait', pair]
  exact ⟨rfl, rfl, rfl⟩

theorem clear_refused (attached : s.pair.detached = false) (unfenced : s.pair.fenced = false) :
    pairControlStatus s 5 ≠ 0 := by simp [pairControlStatus, attached, unfenced]

end

/-- Settles O56: a return begins where its status accepts it, and each pair control by the lemma of its value. -/
theorem returnsAndPairControls : Obligations.ReturnsAndPairControls := by
  unfold Obligations.ReturnsAndPairControls
  intro s d ch service
  have dies : Does (.dieReturn d) s (dieReturn s d) := dieReturn_runs service
  have channels : Does (.channelReturn ch) s (channelReturn s ch) := channelReturn_runs service
  have controls (v : Nat) : Host.Outcome.next (pairWrite s v) = (.next (pairControl s v) : Host.Outcome State Fault Refusal) :=
    congrArg _ (pairWrite_controls service v)
  refine ⟨fun accepted out up => ?_, fun accepted out down => ?_, fun refused => ?_, fun accepted out => ?_,
    fun refused => ?_, fun apart => ?_, fun paired lead => ?_, fun paired follower => ?_, fun lead inStep noHandover => ?_,
    fun notInStep => ?_, fun fenced recorded noLink promoted => ?_, fun unfenced => ?_, fun detached noWait => ?_,
    fun attached unfenced => ?_⟩
  · rwa [dieReturn_begins accepted out, if_neg (by simp [up])] at dies
  · rwa [dieReturn_begins accepted out, if_pos down] at dies
  · rwa [dieReturn_refused refused] at dies
  · rwa [channelReturn_trains accepted out] at channels
  · rwa [channelReturn_refused refused] at channels
  · exact (controls 1).trans (congrArg _ (pairAttach_trains apart))
  · exact (controls 2).trans (congrArg _ (pairDetach_lead paired lead))
  · exact (controls 2).trans (congrArg _ (pairDetach_follower paired follower))
  · exact (controls 3).trans (congrArg _ (pairControl_handover lead inStep noHandover))
  · exact (controls 3).trans (congrArg _ (pairControl_refused (handover_refused notInStep)))
  · exact (controls 4).trans (congrArg _ (pairControl_discards fenced recorded noLink promoted))
  · exact (controls 4).trans (congrArg _ (pairControl_refused (discard_refused unfenced)))
  · exact ⟨_, (controls 5).trans (congrArg _ (pairControl_clearsPairing detached)), clearPair_apart noWait⟩
  · exact (controls 5).trans (congrArg _ (pairControl_refused (clear_refused attached unfenced)))

end Sys2Proof.Machine

namespace Sys2Proof.Machine

open Sys2Proof

/-- An event for every enabled function only tells. -/
theorem warnAll_tells (s : State) (bits info : Nat) : Tells s (warnAll s bits info) :=
  tells_foldl _ (fun s n => aen_tells s n 1 info) _ _

/-! A conversion period, the critical and trip limits, and the health statistics (R249, R250, R436 to R438). -/

/-- What a conversion period leaves alone. -/
def KeepsStores (s t : State) : Prop := t.zones = s.zones ∧ t.dies = s.dies ∧ t.dram = s.dram

/-- What the cap and the heat limits leave alone, once the period's temperatures are taken. -/
def KeepsHeat (s t : State) : Prop :=
  KeepsStores s t ∧ t.pwr.composite = s.pwr.composite ∧ t.pwr.dieMax = s.pwr.dieMax ∧ t.pwr.packageMax = s.pwr.packageMax

theorem KeepsStores.trans {s t u : State} (first : KeepsStores s t) (next : KeepsStores t u) : KeepsStores s u := by
  obtain ⟨zones, dies, dram⟩ := first
  obtain ⟨zones', dies', dram'⟩ := next
  exact ⟨zones'.trans zones, dies'.trans dies, dram'.trans dram⟩

theorem KeepsHeat.trans {s t u : State} (first : KeepsHeat s t) (next : KeepsHeat t u) : KeepsHeat s u := by
  obtain ⟨stores, composite, dieMax, packageMax⟩ := first
  obtain ⟨stores', composite', dieMax', packageMax'⟩ := next
  exact ⟨stores.trans stores', composite'.trans composite, dieMax'.trans dieMax, packageMax'.trans packageMax⟩

theorem KeepsHeat.refl (s : State) : KeepsHeat s s := ⟨⟨rfl, rfl, rfl⟩, rfl, rfl, rfl⟩

theorem Tells.keepsHeat {s t : State} (tells : Tells s t) : KeepsHeat s t := by
  refine ⟨⟨tells.zones, tells.dies, tells.dram⟩, ?_⟩
  rw [tells.pwr]
  exact ⟨rfl, rfl, rfl⟩

theorem takeInput_keepsStores (s : State) (i sum : Nat) : KeepsStores s (takeInput s i sum) := by
  have counted : KeepsStores s (odBump (odSet s 0x8110 0x04 i (ofSigned 32 (sensorValue s i sum))) 0x8110 0x05 i) :=
    ⟨rfl, rfl, rfl⟩
  unfold takeInput
  dsimp only
  split
  · split
    · exact counted
    · have told (u : State) : KeepsStores u (loupe u 436 0x81 3 [i]) := (loupe_tells ..).keepsHeat.1
      exact counted.trans (told { odBump _ 0x8110 0x05 i with pwr.railSeen := true })
  · exact ⟨rfl, rfl, rfl⟩

theorem setCap_keepsHeat (s : State) (pcapA : Nat) : KeepsHeat s (setCap s pcapA) := by
  unfold setCap
  dsimp only
  split <;> exact .refl _

theorem heatWarning_keepsHeat (s : State) : KeepsHeat s (heatWarning s) := by
  unfold heatWarning
  dsimp only
  split
  · exact (warnAll_tells ..).keepsHeat
  · exact .refl _

theorem heatCritical_keepsHeat (s : State) : KeepsHeat s (heatCritical s) := by
  have told (u : State) : KeepsHeat u (loupe u 438 0x83 5 []) := (loupe_tells ..).keepsHeat
  unfold heatCritical
  split
  · exact told { s with pwr.critical := true }
  · exact .refl _

/-- The inputs of a period, taken. -/
def inputsTaken (s : State) (sums : List Nat) : State :=
  (List.range 16).foldl (fun s i => takeInput s i (sums.getD i 0)) s

/-- The powers and temperatures that a period's conversions give. -/
def converted (s : State) (sums : List Nat) (temps : List Int) : State :=
  let t := inputsTaken s sums
  let dieMax := match temps.max? with | some m => m | none => t.pwr.dieMax
  let pack := match (kindValues t 3).max? with | some m => m | none => -273150
  { t with pwr.pF := (kindValues t 1).sum, pwr.pM := (kindValues t 2).sum, pwr.dieMax := dieMax
           pwr.packageMax := pack, pwr.composite := max dieMax pack }

theorem converted_keepsStores (s : State) (sums : List Nat) (temps : List Int) :
    KeepsStores s (converted s sums temps) :=
  foldl_holds (KeepsStores s) _ (fun t i kept => kept.trans (takeInput_keepsStores t i _)) _ s ⟨rfl, rfl, rfl⟩

section
variable {s : State}

theorem adcPeriod_converts (sums : List Nat) (pcapA : Nat) (temps : List Int) : Does (.adcPeriod sums pcapA temps) s
    (heatCritical (heatWarning (setCap (converted s sums temps) pcapA))) := rfl

theorem adcPeriod_keepsHeat (sums : List Nat) (pcapA : Nat) (temps : List Int) : KeepsHeat (converted s sums temps)
    (heatCritical (heatWarning (setCap (converted s sums temps) pcapA))) :=
  (setCap_keepsHeat ..).trans ((heatWarning_keepsHeat _).trans (heatCritical_keepsHeat _))

theorem criticalExit_ends (cool : s.pwr.composite + 3000 ≤ milliC (od s 0x8300 0x02)) :
    Does .thermalCriticalExit s { s with pwr.critical := false } := congrArg Host.Outcome.next (if_pos cool)

theorem criticalExit_stays (hot : milliC (od s 0x8300 0x02) < s.pwr.composite + 3000) :
    Does .thermalCriticalExit s s := congrArg Host.Outcome.next (if_neg (Int.not_le.2 hot))

theorem thermalTrip_none (within : pastTrip s 0 = false) : Does .thermalTrip s s :=
  congrArg Host.Outcome.next (if_pos (by simp [within]))

theorem thermalTrip_raises (past : pastTrip s 0 = true) : Does .thermalTrip s
    (let u := raise { s with pins.trip := true } 7
     if pastTrip u 5000 ∧ u.power.hold = .flush then deviceReset u false else u) :=
  congrArg Host.Outcome.next (if_neg (by simp [past]))

theorem temperatureSample_counts : ∃ t, Does .temperatureSample s t ∧ t.health.seconds = s.health.seconds + 1 ∧
    t.zones = s.zones ∧ t.dict = s.dict ∧
    t.health.hist = (let bin := (clampInt 0 63 ((s.pwr.composite + 20000).fdiv 2000)).toNat
      kvPut 0 bin (kvGet 0 bin s.health.hist + 1) s.health.hist) ∧
    ((s.health.seconds + 1) % 600 = 0 → t.health.maxNow = none) := by
  by_cases ends : (s.health.seconds + 1) % 600 = 0
  · exact ⟨_, congrArg Host.Outcome.next (if_neg (not_not.2 ends)), rfl, rfl, rfl, rfl, fun _ => rfl⟩
  · exact ⟨_, congrArg Host.Outcome.next (if_pos ends), rfl, rfl, rfl, rfl, fun now => absurd now ends⟩

end

/-- Settles O39: the period's temperatures stand through the cap and the limits; each limit by its two cases. -/
theorem measurementsAndHeat : Obligations.MeasurementsAndHeat := by
  unfold Obligations.MeasurementsAndHeat
  intro s sums a temps
  refine ⟨⟨_, adcPeriod_converts sums a temps, ?_⟩, criticalExit_ends, criticalExit_stays, thermalTrip_none,
    thermalTrip_raises, temperatureSample_counts, rfl, rfl⟩
  obtain ⟨stores, composite, dieMax, packageMax⟩ := adcPeriod_keepsHeat (s := s) sums a temps
  obtain ⟨zones, dies, dram⟩ := (converted_keepsStores s sums temps).trans stores
  refine ⟨?_, fun m highest => ?_, zones, dies, dram⟩
  · rw [composite, dieMax, packageMax]
    rfl
  · rw [dieMax, converted, highest]

end Sys2Proof.Machine

namespace Sys2Proof.Machine

open Sys2Proof

/-! What the steps on a die leave of it, and of the rest of the state. -/

/-- Only the dies differ, they are in canonical form, and die d is v. -/
def DieBecomes (s t : State) (d : Nat) (v : Die) : Prop :=
  (∃ dies, t = { s with dies := dies }) ∧ kvWf {} t.dies ∧ die t d = v

theorem DieBecomes.trans {s t u : State} {d : Nat} {v w : Die} (first : DieBecomes s t d v) (next : DieBecomes t u d w) :
    DieBecomes s u d w := by
  obtain ⟨⟨_, rfl⟩, _⟩ := first
  obtain ⟨⟨dies, rfl⟩, rest⟩ := next
  exact ⟨⟨dies, rfl⟩, rest⟩

section
variable {s t : State} {d : Nat} {v : Die} (becomes : DieBecomes s t d v)
include becomes

theorem DieBecomes.wf : kvWf {} t.dies := becomes.2.1

theorem DieBecomes.die : die t d = v := becomes.2.2

theorem DieBecomes.dict : t.dict = s.dict := by obtain ⟨⟨_, rfl⟩, _⟩ := becomes; rfl

theorem DieBecomes.zones : t.zones = s.zones := by obtain ⟨⟨_, rfl⟩, _⟩ := becomes; rfl

theorem DieBecomes.nss : t.nss = s.nss := by obtain ⟨⟨_, rfl⟩, _⟩ := becomes; rfl

theorem DieBecomes.health : t.health = s.health := by obtain ⟨⟨_, rfl⟩, _⟩ := becomes; rfl

/-- Whatever does not read the dies is as it was. -/
theorem DieBecomes.od (obj elem : Nat) : od t obj elem = od s obj elem := by obtain ⟨⟨_, rfl⟩, _⟩ := becomes; rfl

theorem DieBecomes.zone (z : Nat) : zone t z = zone s z := by obtain ⟨⟨_, rfl⟩, _⟩ := becomes; rfl

theorem DieBecomes.absentOn (z f : Nat) : absentOn t z f = absentOn s z f := by
  obtain ⟨⟨_, rfl⟩, _⟩ := becomes; rfl

/-- A row names the same block where the die keeps its row map and its good and bad blocks. -/
theorem DieBecomes.rowBlock (rowMap : v.rowMap = (Machine.die s d).rowMap) (good : v.good = (Machine.die s d).good)
    (bad : v.bad = (Machine.die s d).bad) (row : Nat) : rowBlock t d row = rowBlock s d row := by
  have now := becomes.die
  exact rowBlock_of becomes.dict (by rw [now, rowMap]) (by rw [now, good]) (by rw [now, bad])

end

section
variable {s : State} {d : Nat} (wf : kvWf {} s.dies)
include wf

theorem setDie_becomes (v : Die) : DieBecomes s (setDie s d v) d v :=
  ⟨⟨_, rfl⟩, kvWf_put _ _ _ _ wf, die_setDie s d v wf⟩

theorem useShare_becomes (cls : Nat) (slc : Bool) :
    ∃ ns, DieBecomes s (useShare s d cls slc) d { die s d with bgNs := ns } := by
  unfold useShare
  split
  · exact ⟨_, setDie_becomes wf _⟩
  · exact ⟨_, ⟨_, rfl⟩, wf, rfl⟩

theorem retiredBlock_becomes (b : Nat) :
    DieBecomes s (retiredBlock s d b) d { die s d with retired := addTo b (die s d).retired } := setDie_becomes wf _

/-- A request for a rewrite touches the die's list of rewrites only. -/
theorem queueRewrite_becomes (row : Nat) (urgent : Bool) :
    ∃ rs, DieBecomes s (queueRewrite s d row urgent) d { die s d with rewrites := rs } := by
  have same : DieBecomes s s d { die s d with rewrites := (die s d).rewrites } := ⟨⟨_, rfl⟩, wf, rfl⟩
  unfold queueRewrite
  dsimp only
  split
  · exact ⟨_, same⟩
  · split
    · split
      · exact ⟨_, setDie_becomes wf _⟩
      · exact ⟨_, same⟩
    · exact ⟨_, setDie_becomes wf _⟩

/-- A block in a zone or pool row has its rewrite once one was asked for. -/
theorem queueRewrite_queued {row : Nat} (above : 8 ≤ row) (below : row < 8 + zoneRows s) :
    ∃ r ∈ (die (queueRewrite s d row false) d).rewrites, r.block = rowBlock s d row := by
  have inRows : ¬(row < 8 ∨ 8 + zoneRows s ≤ row) := by omega
  unfold queueRewrite
  rw [if_neg inRows]
  dsimp only
  split
  next r found =>
    simp only [Bool.false_and, Bool.false_eq_true, if_false]
    exact ⟨r, List.mem_of_find?_eq_some found, by simpa using List.find?_some found⟩
  next =>
    rw [die_setDie _ _ _ wf]
    exact ⟨_, List.mem_append_right _ (List.mem_singleton_self _), rfl⟩

end

theorem healthWarnings_dies (s : State) : (healthWarnings s).dies = s.dies := by
  have told (t : State) : ((enabledFns t).foldl (fun s n => aen s n 7 1) t).dies = t.dies :=
    (tells_foldl _ (fun s n => aen_tells s n 7 1) _ _).dies
  unfold healthWarnings
  dsimp only
  split <;> split <;> simp only [told, (warnAll_tells ..).dies]

theorem exhausted_dies (s : State) (d : Nat) : (exhausted s d).dies = s.dies := by
  unfold exhausted
  dsimp only
  (repeat' split) <;> rfl

theorem setChanState_dies (s : State) (ch st : Nat) : (setChanState s ch st).dies = s.dies :=
  (updateWindow_tells _).dies.trans (updateGroups_tells _ _).dies

/-- Reading the key that was put last, in a map whose keys rise. -/
theorem kvGet_put_sorted {α : Type} [DecidableEq α] (x : α) (k : Nat) (v : α) (m : Kv α)
    (sorted : (m.map Prod.fst).Pairwise (· < ·)) : kvGet x k (kvPut x k v m) = v := by
  induction m with
  | nil => by_cases unlisted : v = x <;> simp [kvPut, kvGet, unlisted]
  | cons e t ih =>
    rw [List.map_cons, List.pairwise_cons] at sorted
    obtain ⟨first, rest⟩ := sorted
    have above : ∀ y ∈ t, e.1 < y.1 := fun y here => first _ (List.mem_map_of_mem here)
    obtain ⟨k', v'⟩ := e
    rcases lt_trichotomy k k' with before | rfl | after
    · have absent : kvGet x k ((k', v') :: t) = x := kvGet_of_lt x k _ fun y here => by
        rcases List.mem_cons.1 here with rfl | later
        · exact before
        · exact lt_trans before (above y later)
      by_cases unlisted : v = x
      · simp [kvPut, before, unlisted, absent]
      · simp [kvPut, before, unlisted, kvGet]
    · by_cases unlisted : v = x
      · simp [kvPut, unlisted, kvGet_of_lt x k t above]
      · simp [kvPut, unlisted, kvGet]
    · have notBefore : ¬k < k' := by omega
      have notHere : k ≠ k' := by omega
      simp [kvPut, notBefore, notHere, kvGet, ih rest]

/-! Rewrites (R229, R233; log entry 146 for the two erase cells of a step). -/

section
variable {s : State} {d b : Nat} {r : Rewrite}

theorem stockBlock_of {t : State} {row : Nat} (dict : t.dict = s.dict) (good : (die t d).good = (die s d).good)
    (bad : (die t d).bad = (die s d).bad) : stockBlock t d row = stockBlock s d row := by
  unfold stockBlock goodBlock bandGap rowsR rowsT od
  rw [dict, good, bad]

/-- The die v whose row of rewrite r names block b from now on; home is the block that the row names at manufacture. -/
def rowSwitched (v : Die) (home : Nat) (r : Rewrite) (b : Nat) : Die :=
  { v with rowMap := kvPut home r.row b v.rowMap, readCount := kvPut 0 b 0 v.readCount
           relocs := kvPut 0 r.block (kvGet 0 r.block v.relocs + 1) v.relocs }

theorem switchRow_die (wf : kvWf {} s.dies) :
    die (switchRow s d r b) d = rowSwitched (die s d) (stockBlock s d r.row) r b :=
  (journal_die ..).trans (die_setDie s d _ wf)

theorem switchRow_wf (wf : kvWf {} s.dies) : kvWf {} (switchRow s d r b).dies := kvWf_put _ _ _ _ wf

/-- A row read after its switch names the spare. -/
theorem rowBlock_switched (wf : kvWf {} s.dies) (sorted : ((die s d).rowMap.map Prod.fst).Pairwise (· < ·)) (q : Rewrite) :
    rowBlock (setRewrite (switchRow s d r b) d q) d r.row = b := by
  have switched : die (setRewrite (switchRow s d r b) d q) d =
      { rowSwitched (die s d) (stockBlock s d r.row) r b with
        rewrites := (die s d).rewrites.map fun x => if x.block = q.block then q else x } := by
    rw [setRewrite, die_setDie _ _ _ (switchRow_wf wf), switchRow_die wf]
    rfl
  have home : stockBlock (setRewrite (switchRow s d r b) d q) d r.row = stockBlock s d r.row :=
    stockBlock_of rfl (by rw [switched]; rfl) (by rw [switched]; rfl)
  rw [rowBlock, home, switched]
  exact kvGet_put_sorted _ _ _ _ sorted

section
variable (current : currentRewrite (die s d) = some r) (running : s.power.hold = .running) (inService : dieOut s d = false)
include current running inService

theorem rewrite_takesSpare {u : State} (first : r.step = 0) (notWear : r.cause ≠ 2) (spare : (spareBlock s d).isSome = true)
    (granted : stepErase s d = some u) : Does (.rewriteStep d true) s (takeStep u d r true) := by
  show execRewriteStep d true s = _
  have found : ¬spareBlock s d = none := Option.isSome_iff_ne_none.1 spare
  simp [execRewriteStep, current, running, inService, first, notWear, found, granted]

theorem rewrite_defers (first : r.step = 0) (wear : r.cause = 2) (reserve : spares s d ≤ od s 0x4010 0x05) :
    Does (.rewriteStep d true) s (deferRewrite s d r) := by
  show execRewriteStep d true s = _
  simp [execRewriteStep, current, running, inService, first, wear, reserve]

theorem rewrite_copies {w : Nat} {u : State} (copying : r.step = 1) (spare : r.spare = some b)
    (next : (rewriteParts s d r).find? (fun w => decide (r.copied ≤ w)) = some w)
    (granted : stepProgram s d 1 (rewriteQlc s r) (rewriteSingle s r) = some u) :
    Does (.rewriteStep d true) s (setRewrite u d { r with copied := w + 1 }) := by
  show execRewriteStep d true s = _
  simp [execRewriteStep, current, running, inService, copying, spare, copyStep, next, granted]

theorem rewrite_copied (copying : r.step = 1) (spare : r.spare = some b) (notRetired : r.cause ≠ 1)
    (copied : ∀ w ∈ rewriteParts s d r, w < r.copied) :
    Does (.rewriteStep d true) s (setRewrite s d { r with step := 2 }) := by
  have noneLeft : (rewriteParts s d r).find? (fun w => decide (r.copied ≤ w)) = none :=
    List.find?_eq_none.2 fun w part => by simpa using copied w part
  show execRewriteStep d true s = _
  simp [execRewriteStep, current, running, inService, copying, spare, copyStep, noneLeft, notRetired]

theorem rewrite_switches (copied : r.step = 2) (spare : r.spare = some b)
    (noReader : ∀ q ∈ (die s d).reading, rowBlock s d (q.page / 1024) ≠ r.block) :
    Does (.rewriteStep d true) s (setRewrite (switchRow s d r b) d { r with step := 3 }) := by
  have free : ((die s d).reading.any fun q => rowBlock s d (q.page / 1024) == r.block) = false :=
    List.any_eq_false.2 fun q reads => by simpa using noReader q reads
  show execRewriteStep d true s = _
  simp [execRewriteStep, current, running, inService, copied, spare, free]

theorem rewrite_recorded (switched : r.step = 3) (spare : r.spare = some b)
    (durable : ∃ m ∈ s.adm.remaps, m.oldBlock = r.block ∧ m.newBlock = b) :
    Does (.rewriteStep d true) s (setRewrite s d { r with step := 4 }) := by
  have recorded : (s.adm.remaps.any fun m => m.oldBlock == r.block && m.newBlock == b) = true := by
    obtain ⟨m, here, old, new⟩ := durable
    exact List.any_eq_true.2 ⟨m, here, by simp [old, new]⟩
  show execRewriteStep d true s = _
  simp [execRewriteStep, current, running, inService, switched, spare, recorded]

theorem rewrite_erasesSource {u : State} (last : r.step = 4) (granted : stepErase s d = some u) :
    Does (.rewriteStep d true) s (eraseSource u d r true) := by
  show execRewriteStep d true s = _
  simp [execRewriteStep, current, running, inService, last, granted]

end

/-! Row table switches of retirements (R233). -/

/-- The die once its first waiting switch has left the queue. -/
def dequeued (s : State) (d : Nat) (rest : List Rewrite) : State := setDie s d { die s d with switching := rest }

theorem rowTableSwitch_switches {rest : List Rewrite} (queued : (die s d).switching = r :: rest) (spare : r.spare = some b) :
    Does (.rowTableSwitch d) s
      (healthWarnings (exhausted (retiredBlock (switchRow (dequeued s d rest) d r b) d r.block) d)) := by
  show execRowTableSwitch d s = _
  simp [execRowTableSwitch, queued, spare, dequeued]

theorem rowTableSwitch_none (empty : (die s d).switching = []) : Does (.rowTableSwitch d) s s := by
  show execRowTableSwitch d s = _
  rw [execRowTableSwitch, empty]

theorem dequeued_die (wf : kvWf {} s.dies) (rest : List Rewrite) :
    die (dequeued s d rest) d = { die s d with switching := rest } := die_setDie s d _ wf

/-- The switch leaves the queue, the row names the spare, and the old block is retired. -/
theorem rowTableSwitch_die (wf : kvWf {} s.dies) (rest : List Rewrite) :
    die (healthWarnings (exhausted (retiredBlock (switchRow (dequeued s d rest) d r b) d r.block) d)) d =
      { rowSwitched (die s d) (stockBlock s d r.row) r b with
        switching := rest, retired := addTo r.block (die s d).retired } := by
  have dequeuedWf : kvWf {} (dequeued s d rest).dies := kvWf_put _ _ _ _ wf
  have now := dequeued_die (d := d) wf rest
  have sameStock : stockBlock (dequeued s d rest) d r.row = stockBlock s d r.row :=
    stockBlock_of rfl (by rw [now]) (by rw [now])
  obtain ⟨_, _, retired⟩ := retiredBlock_becomes (d := d) (switchRow_wf (d := d) (r := r) (b := b) dequeuedWf) r.block
  rw [die_of ((healthWarnings_dies _).trans (exhausted_dies _ d)), retired, switchRow_die dequeuedWf, sameStock, now]
  rfl

end

/-! Patrol reads (R226, R227; log entries 26 and 141). -/

section
variable {s : State} {z w f c : Nat}

/-- The patrol's count of the codeword goes up by one, modulo 64. -/
def patrolTallied (s : State) (z w f : Nat) : State :=
  let key := (z * 256 + w) * 16 + f
  { s with health.patrol := kvPut 0 key ((kvGet 0 key s.health.patrol + 1) % 64) s.health.patrol }

/-- The state in which a patrol read has been counted: against the share, in the patrol's count and in the block's. -/
def patrolCounted (s : State) (z w f : Nat) : State :=
  let e := facetDie (groupOf z) f
  let u := patrolTallied (useShare s e 5 false) z w f
  setDie u e (countedRead (die u e) (rowBlock u e (rowOf z)))

/-- Besides the patrol's count, a counted patrol read changes the counts of its die. -/
theorem patrolCounted_becomes (wf : kvWf {} s.dies) : let e := facetDie (groupOf z) f
    ∃ ns, DieBecomes (patrolTallied s z w f) (patrolCounted s z w f) e
      { countedRead (die s e) (rowBlock s e (rowOf z)) with bgNs := ns } := by
  intro e
  obtain ⟨ns, shared⟩ := useShare_becomes (d := e) wf 5 false
  obtain ⟨dies, only⟩ := shared.1
  refine ⟨ns, ⟨(patrolCounted s z w f).dies, ?_⟩, kvWf_put _ _ _ _ shared.wf, (die_setDie _ _ _ shared.wf).trans ?_⟩
  · exact congrArg (fun u => { patrolTallied u z w f with dies := (patrolCounted s z w f).dies }) only
  · show countedRead (die (useShare s e 5 false) e) (rowBlock (useShare s e 5 false) e (rowOf z)) = _
    rw [shared.rowBlock rfl rfl rfl, shared.die]
    rfl

/-- A patrol read that decodes is counted, and at a threshold of R219 its row is asked to be rewritten. -/
theorem patrolRead_good (wf : kvWf {} s.dies)
    (programmed : (kvGet {} w (zone s z).folds).done.contains f = true ∨ w < poolSets s z)
    (inService : dieOut s (facetDie (groupOf z) f) = false) (share : shareLeft s (facetDie (groupOf z) f) 5 false = true) :
    let e := facetDie (groupOf z) f
    let t := patrolCounted s z w f
    Does (.patrolRead z w f (.good c)) s
      (if od s 0x4010 0x02 ≤ c ∨ od s 0x4010 0x03 ≤ kvGet 0 (rowBlock s e (rowOf z)) (die s e).readCount + 1
        then queueRewrite t e (rowOf z) false else t) := by
  intro e t
  obtain ⟨ns, shared⟩ := useShare_becomes (d := e) wf 5 false
  have reads : ¬(((!(kvGet {} w (zone s z).folds).done.contains f) = true ∧ poolSets s z ≤ w) ∨ dieOut s e = true ∨
      (!shareLeft s e 5 false) = true) := by
    rw [inService, share]
    rcases programmed with done | filled
    · rw [done]; simp
    · simp [Nat.not_le.2 filled]
  have count : (die (useShare s e 5 false) e).readCount = (die s e).readCount := by rw [shared.die]
  refine congrArg Host.Outcome.next ((if_neg reads).trans ?_)
  rw [← shared.od 0x4010 0x02, ← shared.od 0x4010 0x03, ← shared.rowBlock rfl rfl rfl (rowOf z), ← count]
  rfl

/-- What a patrol read leaves once counted, whether it asks for a rewrite or not. -/
theorem patrolTallied_leaves {t : State} {ns : Nat} {rs : List Rewrite} : let e := facetDie (groupOf z) f
    let key := (z * 256 + w) * 16 + f
    let b := rowBlock s e (rowOf z)
    DieBecomes (patrolTallied s z w f) t e { countedRead (die s e) b with bgNs := ns, rewrites := rs } →
    kvWf 0 (die s e).readCount → kvWf 0 s.health.patrol →
      kvGet 0 key t.health.patrol = (kvGet 0 key s.health.patrol + 1) % 64 ∧
      kvGet 0 b (die t e).readCount = kvGet 0 b (die s e).readCount + 1 ∧ t.zones = s.zones ∧ t.nss = s.nss := by
  intro e key b becomes countsWf patrolWf
  rw [becomes.health, becomes.die]
  exact ⟨kvGet_put_self _ _ _ _ patrolWf, kvGet_put_self _ _ _ _ countsWf, becomes.zones, becomes.nss⟩

/-- A patrol read that decodes counts, and from the rewrite limits on it asks for its block's rewrite. -/
theorem patrolRead_leaves (wf : kvWf {} s.dies) : let e := facetDie (groupOf z) f
    let key := (z * 256 + w) * 16 + f
    let b := rowBlock s e (rowOf z)
    (kvGet {} w (zone s z).folds).done.contains f = true ∨ w < poolSets s z → dieOut s e = false →
    shareLeft s e 5 false = true → kvWf 0 (die s e).readCount → kvWf 0 s.health.patrol →
    ∃ t, Does (.patrolRead z w f (.good c)) s t ∧
      kvGet 0 key t.health.patrol = (kvGet 0 key s.health.patrol + 1) % 64 ∧
      kvGet 0 b (die t e).readCount = kvGet 0 b (die s e).readCount + 1 ∧ t.zones = s.zones ∧ t.nss = s.nss ∧
      (c < od s 0x4010 0x02 → kvGet 0 b (die s e).readCount + 1 < od s 0x4010 0x03 →
        (die t e).rewrites = (die s e).rewrites) ∧
      (od s 0x4010 0x02 ≤ c → 8 ≤ rowOf z → rowOf z < 8 + zoneRows s → ∃ r ∈ (die t e).rewrites, r.block = b) := by
  intro e key b programmed inService share countsWf patrolWf
  obtain ⟨ns, counted⟩ := patrolCounted_becomes (z := z) (w := w) (f := f) wf
  refine ⟨_, patrolRead_good (c := c) wf programmed inService share, ?_⟩
  split
  next due =>
    obtain ⟨rs, queued⟩ := queueRewrite_becomes (d := e) counted.wf (rowOf z) false
    rw [counted.die] at queued
    obtain ⟨patrol, count, zones, nss⟩ := patrolTallied_leaves (counted.trans queued) countsWf patrolWf
    refine ⟨patrol, count, zones, nss, fun fewBits fewReads => ?_, fun _ above below => ?_⟩
    · exact absurd due (not_or.2 ⟨Nat.not_le.2 fewBits, Nat.not_le.2 fewReads⟩)
    · have rows : zoneRows (patrolCounted s z w f) = zoneRows s := by
        unfold zoneRows rowsR rowsS rowsT
        rw [counted.od, counted.od, counted.od]
        rfl
      have block : rowBlock (patrolCounted s z w f) e (rowOf z) = b := counted.rowBlock rfl rfl rfl _
      rw [← block]
      exact queueRewrite_queued counted.wf above (rows.symm ▸ below)
  next notDue =>
    obtain ⟨patrol, count, zones, nss⟩ := patrolTallied_leaves counted countsWf patrolWf
    exact ⟨patrol, count, zones, nss, fun _ _ => by rw [counted.die]; rfl, fun many => absurd (.inl many) notDue⟩

end

/-! Probation (R243 to R245). -/

section
variable {s : State} {d : Nat}

theorem probationPhase_fails (from1 : 1 ≤ (die s d).phase) (to3 : (die s d).phase ≤ 3) :
    Does (.probationPhaseEnd d false) s (probationFails s d) := by
  have inProbation : ¬((die s d).phase = 0 ∨ 4 ≤ (die s d).phase) := by omega
  exact congrArg Host.Outcome.next (if_neg inProbation)

theorem probationPhase1_ends (wf : kvWf {} s.dies) (first : (die s d).phase = 1) :
    ∃ t, Does (.probationPhaseEnd d true) s t ∧ (die t d).phase = 2 := by
  let u := endEntry (setDie s d { die s d with phase := 2 }) d 0
  have runs : Does (.probationPhaseEnd d true) s
      (if (chan u (dieChan d)).state = 2 then setChanState u (dieChan d) 0 else u) := by
    show execProbationPhaseEnd d true s = _
    simp [execProbationPhaseEnd, first, u]
  refine ⟨_, runs, ?_⟩
  have dies : (if (chan u (dieChan d)).state = 2 then setChanState u (dieChan d) 0 else u).dies = u.dies := by
    split
    · exact setChanState_dies ..
    · rfl
  rw [die_of (dies.trans (endEntry_keepsDies ..).1), die_setDie _ _ _ wf]

theorem testErases_wf (wf : kvWf {} s.dies) : kvWf {} (testErases s d).dies := by
  unfold testErases
  split
  · exact kvWf_put _ _ _ _ (kvWf_put _ _ _ _ (kvWf_put _ _ _ _ (kvWf_put _ _ _ _ (kvWf_put _ _ _ _ wf))))
  · exact wf

theorem probationPhase2_ends (wf : kvWf {} s.dies) (second : (die s d).phase = 2) :
    ∃ t, Does (.probationPhaseEnd d true) s t ∧ (die t d).phase = 3 ∧ (die t d).verified = [] := by
  have runs : Does (.probationPhaseEnd d true) s (setDie (testErases s d) d
      { die (testErases s d) d with phase := 3, verified := [], cleanFrames := 0 }) := by
    show execProbationPhaseEnd d true s = _
    simp [execProbationPhaseEnd, second]
  refine ⟨_, runs, ?_⟩
  rw [die_setDie _ _ _ (testErases_wf wf)]
  exact ⟨rfl, rfl⟩

theorem probationPhase3_ends (wf : kvWf {} s.dies) (third : (die s d).phase = 3) (verified : facetsLeft s d = [])
    (clean : 2 ≤ (die s d).cleanFrames) : ∃ t, Does (.probationPhaseEnd d true) s t ∧ (die t d).phase = 4 ∧
      (die t d).service = 0 ∧ (die t d).leftAt = none := by
  have runs : Does (.probationPhaseEnd d true) s (updateWindow (updateGroups
      (setDie s d { die s d with phase := 4, service := 0, leftAt := none }) [dieGroup d])) := by
    show execProbationPhaseEnd d true s = _
    simp [execProbationPhaseEnd, third, verified, Nat.not_lt.2 clean]
  refine ⟨_, runs, ?_⟩
  rw [die_of ((updateWindow_tells _).dies.trans (updateGroups_tells _ _).dies), die_setDie _ _ _ wf]
  exact ⟨rfl, rfl, rfl⟩

/-- The rest of a facet's verification once its read was judged: its absent units are programmed from the rebuild, and
with none left the facet is verified (R242, R245). -/
def facetRepaired (d z : Nat) (s : State) : State :=
  let f := dieFacet d
  let ws := ((zone s z).folds.filter fun e => e.2.absent.contains f).map (·.1)
  let s := (absentOn s z f).foldl (repairPool d z) (ws.foldl (repairUnit d z) s)
  if ((zone s z).folds.any fun e => e.2.absent.contains f) ∨ absentOn s z f ≠ [] then s
  else setDie s d { die s d with verified := addTo z (die s d).verified }

theorem facetRepaired_whole {z : Nat} (whole : ∀ e ∈ (zone s z).folds, e.2.absent.contains (dieFacet d) = false)
    (wholeRow : absentOn s z (dieFacet d) = []) :
    facetRepaired d z s = setDie s d { die s d with verified := addTo z (die s d).verified } := by
  have noneMissing : ((zone s z).folds.filter fun e => e.2.absent.contains (dieFacet d)) = [] :=
    List.filter_eq_nil_iff.2 fun e here => Bool.eq_false_iff.1 (whole e here)
  have noneLeft : ((zone s z).folds.any fun e => e.2.absent.contains (dieFacet d)) = false :=
    List.any_eq_false.2 fun e here => Bool.eq_false_iff.1 (whole e here)
  unfold facetRepaired
  dsimp only
  rw [noneMissing, wholeRow]
  exact if_neg (not_or.2 ⟨Bool.eq_false_iff.1 noneLeft, not_not.2 wholeRow⟩)

section
variable {z c : Nat} (third : (die s d).phase = 3) (group : groupOf z = dieGroup d)
  (erased : (zone s z).eraseLeft.contains (dieFacet d) = false) (next : facetNext s d = some z)
  (share : shareLeft s d 5 false = true)
include third group erased next share

/-- A verify read with few corrected bits asks for no rewrite. -/
theorem facetRepair_goodRead (fewBits : c < od (useShare s d 5 false) 0x4010 0x02) :
    Does (.phase3FacetRepair d z (.good c)) s (facetRepaired d z (useShare s d 5 false)) := by
  have goes : ¬((die s d).phase ≠ 3 ∨ groupOf z ≠ dieGroup d ∨ (zone s z).eraseLeft.contains (dieFacet d) = true ∨
      facetNext s d ≠ some z ∨ (!shareLeft s d 5 false) = true) := by
    rw [erased, share]
    simp [third, group, next]
  have good : ¬decide (od (useShare s d 5 false) 0x4010 0x02 ≤ c) = true := by simpa using fewBits
  exact congrArg Host.Outcome.next ((if_neg goes).trans (congrArg (facetRepaired d z) (if_neg good)))

/-- A facet of which no unit is absent is verified by a read with few corrected bits. -/
theorem facetRepair_verifies (wf : kvWf {} s.dies)
    (whole : ∀ e ∈ (zone s z).folds, e.2.absent.contains (dieFacet d) = false)
    (wholeRow : absentOn s z (dieFacet d) = []) (fewBits : c < od s 0x4010 0x02) :
    ∃ t, Does (.phase3FacetRepair d z (.good c)) s t ∧ (die t d).verified = addTo z (die s d).verified ∧
      t.zones = s.zones := by
  obtain ⟨ns, shared⟩ := useShare_becomes (d := d) wf 5 false
  have reads := facetRepair_goodRead (c := c) third group erased next share (by rwa [shared.od])
  rw [facetRepaired_whole (by rwa [shared.zone]) (by rwa [shared.absentOn])] at reads
  refine ⟨_, reads, ?_, shared.zones⟩
  rw [die_setDie _ _ _ shared.wf, shared.die]

end

end

/-- Settles O22: the steps of a rewrite, a switch and a patrol read each by its lemma, and the phases of probation. -/
theorem rewritesPatrolAndProbation : Obligations.RewritesPatrolAndProbation := by
  unfold Obligations.RewritesPatrolAndProbation
  refine ⟨fun s d r b current running inService => ⟨fun u => rewrite_takesSpare current running inService,
      rewrite_defers current running inService, fun w u => rewrite_copies current running inService,
      rewrite_copied current running inService, fun copied spare noReader wf sorted => ?_,
      rewrite_recorded current running inService, fun u => rewrite_erasesSource current running inService⟩,
    fun s d r b rest queued spare wf => ?_, fun s d => rowTableSwitch_none, fun s z w f c => ?_,
    fun s d wf => ⟨probationPhase_fails, probationPhase1_ends wf, probationPhase2_ends wf, probationPhase3_ends wf⟩,
    fun s d z c wf third group erased next share =>
      facetRepair_verifies third group erased next share wf⟩
  · exact ⟨rewrite_switches current running inService copied spare noReader, rowBlock_switched wf sorted _, rfl,
      List.map_append⟩
  · refine ⟨_, rowTableSwitch_switches queued spare, ?_⟩
    rw [rowTableSwitch_die wf]
    exact ⟨rfl, rfl, by simp [mem_addTo]⟩
  · exact fun programmed inService share wf => patrolRead_leaves wf programmed inService share

end Sys2Proof.Machine

namespace Sys2Proof.Machine

open Sys2Proof

/-! Grants of programs and erases as steps (R197): they touch the budgets and the contract groups alone. -/

/-- Only the scheduler's budgets and the contract groups differ. -/
def StepGranted (s t : State) : Prop := ∃ sched groups, t = { s with sched := sched, groups := groups }

theorem StepGranted.refl (s : State) : StepGranted s s := ⟨_, _, rfl⟩

theorem StepGranted.trans {s t u : State} (first : StepGranted s t) (next : StepGranted t u) : StepGranted s u := by
  obtain ⟨_, _, rfl⟩ := first
  obtain ⟨_, _, rfl⟩ := next
  exact ⟨_, _, rfl⟩

theorem darkOne_granted (s : State) (g : Nat) : StepGranted s (darkOne s g) := by
  unfold darkOne
  split
  · exact ⟨_, _, rfl⟩
  · exact .refl s

theorem stepProgram_granted {s t : State} {d n : Nat} {qlc single : Bool}
    (grants : stepProgram s d n qlc single = some t) : StepGranted s t := by
  have programs (u : State) (started : StepGranted s u) :
      StepGranted s ((List.range n).foldl (fun u _ => useProgram u qlc 7 (dieGroup d)) u) :=
    foldl_holds (StepGranted s) _ (fun _ _ before => before.trans ⟨_, _, rfl⟩) _ _ started
  unfold stepProgram at grants
  by_cases noProgram : n = 0
  · rw [if_pos noProgram] at grants
    exact Option.some.inj grants ▸ .refl s
  · rw [if_neg noProgram, Option.ite_none_right_eq_some] at grants
    obtain ⟨-, started⟩ := grants
    refine Option.some.inj started ▸ programs _ ?_
    split
    · exact darkOne_granted s _
    · exact .refl s

theorem stepErase_granted {s t : State} {d : Nat} (grants : stepErase s d = some t) : StepGranted s t := by
  unfold stepErase at grants
  split at grants
  · exact Option.some.inj grants ▸ ⟨_, _, rfl⟩
  · cases grants

theorem moveProgram_granted {s t : State} {n : Ns} {h : Nat} (grants : moveProgram s n h = some t) :
    StepGranted s t := by
  unfold moveProgram at grants
  split at grants
  · exact Option.some.inj grants ▸ .refl s
  · exact stepProgram_granted grants

/-- A list of grants, each of which must be had, is a grant. -/
theorem foldl_granted {f : Option State → Nat → Option State}
    (step : ∀ m d t, f m d = some t → ∃ u, m = some u ∧ StepGranted u t) (l : List Nat) (m : Option State) {t : State}
    (grants : l.foldl f m = some t) : ∃ u, m = some u ∧ StepGranted u t := by
  induction l generalizing m with
  | nil => exact ⟨t, grants, .refl t⟩
  | cons d l ih =>
    obtain ⟨u, granted, rest⟩ := ih _ grants
    obtain ⟨v, start, first⟩ := step m d u granted
    exact ⟨v, start, first.trans rest⟩

theorem relocateGrants_granted {s t : State} {z : Nat} (grants : relocateGrants s z = some t) : StepGranted s t := by
  obtain ⟨u, start, granted⟩ := foldl_granted (fun m d v one => by
    simp only [Option.bind_eq_some_iff] at one
    obtain ⟨c, ⟨b, ⟨a, start, spare⟩, copies⟩, old⟩ := one
    exact ⟨a, start, (stepErase_granted spare).trans ((stepProgram_granted copies).trans (stepErase_granted old))⟩)
    _ _ grants
  exact Option.some.inj start ▸ granted

/-! The move of a pool unit (R162, R276). -/

theorem ensureHandle_keeps (s : State) (n : Ns) (h : Nat) : (ensureHandle s n h).nsid = n.nsid ∧
    (ensureHandle s n h).units = n.units ∧ (ensureHandle s n h).fill = n.fill := by
  unfold ensureHandle
  dsimp only
  split
  · split <;> exact ⟨rfl, rfl, rfl⟩
  · exact ⟨rfl, rfl, rfl⟩

/-- A unit's entry at the next place of row y, under a key generation. -/
def unitPlaced (n : Ns) (y gen : Nat) (e : UnitSt) : UnitSt :=
  { e with loc := .pool (y * 262144 + kvGet 0 y n.fill), keyGen := gen }

/-- The namespace n whose unit u stands at the next place of row y, which handle h refers to. -/
def unitMoved (s : State) (n : Ns) (u h y gen : Nat) : Ns :=
  { ensureHandle s n h with units := kvPut {} u (unitPlaced n y gen (kvGet {} u n.units)) n.units
                            fill := kvPut 0 y (kvGet 0 y n.fill + 1) n.fill }

theorem moveUnit_moves {s : State} {n : Ns} {nsid u h y src : Nat} (gen : Nat) (there : ns? s nsid = some n)
    (mapped : (kvGet {} u n.units).loc = .pool src) (row : kvGet 0 h (ensureHandle s n h).handles = y + 1) :
    ns? (moveUnit s nsid u h gen) nsid = some (unitMoved s n u h y gen) ∧
      (moveUnit s nsid u h gen).host.fdpMedia = s.host.fdpMedia + 4096 ∧
      (moveUnit s nsid u h gen).zones = s.zones ∧
      (moveUnit s nsid u h gen).jrn.nextLsn = s.jrn.nextLsn + 1 := by
  obtain ⟨sameNsid, sameUnits, sameFill⟩ := ensureHandle_keeps s n h
  have named : (unitMoved s n u h y gen).nsid = nsid := sameNsid.trans (ns?_nsid there)
  have found (t : State) (sameNss : t.nss = s.nss) : ns? (setNs t (unitMoved s n u h y gen)) nsid =
      some (unitMoved s n u h y gen) := by
    have before : ns? t nsid = some n := by rwa [ns?, sameNss]
    rw [← named] at before ⊢
    exact ns_setNs t _ n before
  unfold moveUnit
  simp only [there, sameUnits, sameFill, mapped, row, journal_nsOpt]
  split
  · exact ⟨found _ (by exact rfl), rfl, rfl, rfl⟩
  · exact ⟨found _ (by exact rfl), rfl, rfl, rfl⟩

/-- The same where the unit's program has been granted first. -/
theorem moveUnit_granted {s v : State} {n : Ns} {nsid u h y src : Nat} (gen : Nat) (granted : StepGranted s v)
    (there : ns? s nsid = some n) (mapped : (kvGet {} u n.units).loc = .pool src)
    (row : kvGet 0 h (ensureHandle s n h).handles = y + 1) :
    ns? (moveUnit v nsid u h gen) nsid = some (unitMoved s n u h y gen) ∧
      (moveUnit v nsid u h gen).host.fdpMedia = s.host.fdpMedia + 4096 ∧
      (moveUnit v nsid u h gen).zones = s.zones ∧
      (moveUnit v nsid u h gen).jrn.nextLsn = s.jrn.nextLsn + 1 := by
  obtain ⟨_, _, rfl⟩ := granted
  exact moveUnit_moves gen there mapped row

/-! Relocating a zone's facets (R229) leaves every zone as it is. -/

theorem relocateFacet_zones (s : State) (z d : Nat) : (relocateFacet z s d).zones = s.zones := by
  unfold relocateFacet
  split
  · rfl
  · split
    · rfl
    · unfold takeSpare
      rfl

theorem relocateZone_zones (s : State) (z : Nat) : (relocateZone s z).zones = s.zones :=
  foldl_holds (fun t => t.zones = s.zones) _ (fun t d same => (relocateFacet_zones t z d).trans same) _ _ rfl

/-- A zone under another key generation. -/
def zoneRekeyed (v : Zone) (gen : Nat) : Zone :=
  { v with keyGen := gen, units := v.units.map fun e => (e.1, { e.2 with keyGen := gen }) }

theorem zoneRekeyed_units (v : Zone) (gen : Nat) : ∀ e ∈ (zoneRekeyed v gen).units, e.2.keyGen = gen := by
  intro e here
  obtain ⟨_, _, rfl⟩ := List.mem_map.1 here
  rfl

/-- The state with zone z under another key generation. -/
def rekeyZone (s : State) (z gen : Nat) : State := setZone s z (zoneRekeyed (zone s z) gen)

theorem rekeyZone_zones {s t : State} (same : t.zones = s.zones) (z gen : Nat) :
    (rekeyZone t z gen).zones = (rekeyZone s z gen).zones := by
  rw [rekeyZone, rekeyZone, setZone, setZone, zone, zone, same]

theorem zone_of_rekeyed {s t : State} {z gen : Nat} (zones : t.zones = (rekeyZone s z gen).zones)
    (wf : kvWf {} s.zones) : zone t z = zoneRekeyed (zone s z) gen := by
  rw [zone, zones]
  exact zone_setZone s z _ wf

section
variable {s : State} {n : Ns} {nsid : Nat} (there : ns? s nsid = some n) (running : s.power.hold = .running)
include there running

/-! Garbage collection (R276; log entry 27). -/

section
variable {rg z : Nat} (conventional : n.zoned = false) (victim : gcVictim n rg = some z)
include conventional victim

theorem gcStep_moves {u : Nat} {rest : List Nat} {v : State} (mapped : rowUnitsMapped n z = u :: rest)
    (grants : moveProgram s n (512 + rg) = some v) :
    Does (.gcStep nsid rg) s (moveUnit v nsid u (512 + rg) (kvGet {} u n.units).keyGen) := by
  show execGcStep nsid rg s = _
  simp [execGcStep, there, running, conventional, victim, mapped, grants]

theorem gcStep_copies {u src y : Nat} {rest : List Nat} {v : State} (mapped : rowUnitsMapped n z = u :: rest)
    (grants : moveProgram s n (512 + rg) = some v) (inPool : (kvGet {} u n.units).loc = .pool src)
    (row : kvGet 0 (512 + rg) (ensureHandle s n (512 + rg)).handles = y + 1) (unitsWf : kvWf {} n.units)
    (fillWf : kvWf 0 n.fill) : ∃ t m, Does (.gcStep nsid rg) s t ∧ ns? t nsid = some m ∧
      kvGet {} u m.units = { kvGet {} u n.units with loc := .pool (y * 262144 + kvGet 0 y n.fill) } ∧
      kvGet 0 y m.fill = kvGet 0 y n.fill + 1 ∧ t.host.fdpMedia = s.host.fdpMedia + 4096 ∧ t.zones = s.zones ∧
      t.jrn.nextLsn = s.jrn.nextLsn + 1 := by
  obtain ⟨found, counted, zones, journalled⟩ :=
    moveUnit_granted (kvGet {} u n.units).keyGen (moveProgram_granted grants) there inPool row
  exact ⟨_, _, gcStep_moves there running conventional victim mapped grants, found, kvGet_put_self _ _ _ _ unitsWf,
    kvGet_put_self _ _ _ _ fillWf, counted, zones, journalled⟩

theorem gcStep_erases (empty : rowUnitsMapped n z = []) : Does (.gcStep nsid rg) s
    (let t := setNs s { n with fill := kvPut 0 z 0 n.fill, handles := n.handles.filter fun e => e.2 != z + 1 }
     eraseRow { t with host.fdpErased := t.host.fdpErased + 4096 * n.rowUnits } z) := by
  show execGcStep nsid rg s = _
  simp [execGcStep, there, running, conventional, victim, empty]

end

/-! The steps of a key rotation (R398). -/

section
variable {r : Rotation} (rotating : n.rot = some r)
include rotating

section
variable (noZone : (oldZones s n r.oldGen).filter (rotatable s) = [])
include noZone

theorem keyRotationStep_moves {u : Nat} {e : UnitSt} {v : State} (old : oldUnit n r.oldGen = some (u, e))
    (grants : moveProgram s n (512 + e.handle / 64) = some v) : Does (.keyRotationStep nsid) s
      (journal (moveUnit v nsid u (512 + e.handle / 64) r.newGen) 12 [0, r.newGen, nsid, u, 1]) := by
  show execKeyRotationStep nsid s = _
  simp [execKeyRotationStep, there, running, rotating, noZone, old, grants]

theorem keyRotationStep_reencrypts {u src y : Nat} {e : UnitSt} {v : State} (old : oldUnit n r.oldGen = some (u, e))
    (grants : moveProgram s n (512 + e.handle / 64) = some v) (inPool : e.loc = .pool src)
    (row : kvGet 0 (512 + e.handle / 64) (ensureHandle s n (512 + e.handle / 64)).handles = y + 1)
    (unitsWf : kvWf {} n.units) : ∃ t m, Does (.keyRotationStep nsid) s t ∧ ns? t nsid = some m ∧
      kvGet {} u m.units = { e with loc := .pool (y * 262144 + kvGet 0 y n.fill), keyGen := r.newGen } ∧
      t.jrn.nextLsn = s.jrn.nextLsn + 2 ∧ t.zones = s.zones := by
  have entry : kvGet {} u n.units = e := kvGet_of_mem _ _ unitsWf _ (List.mem_of_find?_eq_some old)
  obtain ⟨found, -, zones, journalled⟩ := moveUnit_granted r.newGen (moveProgram_granted grants) there
    (by rwa [entry]) row
  refine ⟨_, _, keyRotationStep_moves there running rotating noZone old grants, found, ?_,
    congrArg (· + 1) journalled, zones⟩
  rw [← entry]
  exact kvGet_put_self _ _ _ _ unitsWf

end

theorem keyRotationStep_ends (noUnit : oldUnit n r.oldGen = none) (noneOld : oldZones s n r.oldGen = [])
    (rekeyed : ∀ e ∈ n.units, e.2.keyGen ≠ r.oldGen) : Does (.keyRotationStep nsid) s
      (journal (setNs s { n with rot := none }) 13 [0, r.oldGen, nsid]) := by
  obtain rfl : n.nsid = nsid := ns?_nsid there
  have noneLeft : oldZones s n r.oldGen = [] ∧ (n.units.all fun e => e.2.keyGen != r.oldGen) = true :=
    ⟨noneOld, List.all_eq_true.2 fun e here => by simpa using rekeyed e here⟩
  have ends : Does (.keyRotationStep n.nsid) s
      (if oldZones s n r.oldGen = [] ∧ n.units.all fun e => e.2.keyGen != r.oldGen then rotationEnd s n r else s) := by
    show execKeyRotationStep n.nsid s = _
    simp [execKeyRotationStep, there, running, rotating, noUnit, noneOld]
  rw [if_pos noneLeft] at ends
  exact ends

/-- The step on a zone relocates its facets and writes it under the new generation. -/
theorem keyRotationStep_takesZone {z : Nat} {v : State}
    (next : ((oldZones s n r.oldGen).filter (rotatable s)).min? = some z)
    (spared : ∀ d ∈ groupDies (groupOf z), (die s d).service = 0 → od s 0x4010 0x05 < spares s d)
    (grants : relocateGrants s z = some v) : ∃ t, Does (.keyRotationStep nsid) s t ∧
      t.zones = (rekeyZone s z r.newGen).zones := by
  have noneShort : ((groupDies (groupOf z)).any fun d =>
      (die s d).service == 0 && decide (spares s d ≤ od s 0x4010 0x05)) = false :=
    List.any_eq_false.2 fun d here => by simpa using spared d here
  have sameZones : (relocateZone v z).zones = s.zones := by
    obtain ⟨_, _, rfl⟩ := relocateGrants_granted grants
    exact relocateZone_zones _ z
  rw [← rekeyZone_zones sameZones]
  show ∃ t, execKeyRotationStep nsid s = .next t ∧ _
  simp only [execKeyRotationStep, there, running, rotating, next, noneShort, grants, ne_eq, not_true_eq_false,
    Bool.false_eq_true, if_false]
  generalize relocateZone v z = x
  refine ⟨_, rfl, ?_⟩
  split
  · split <;> rfl
  · rfl

theorem keyRotationStep_rekeys {z : Nat} {v : State}
    (next : ((oldZones s n r.oldGen).filter (rotatable s)).min? = some z)
    (spared : ∀ d ∈ groupDies (groupOf z), (die s d).service = 0 → od s 0x4010 0x05 < spares s d)
    (grants : relocateGrants s z = some v) (wf : kvWf {} s.zones) : ∃ t, Does (.keyRotationStep nsid) s t ∧
      (zone t z).keyGen = r.newGen ∧ ∀ e ∈ (zone t z).units, e.2.keyGen = r.newGen := by
  obtain ⟨t, takes, zones⟩ := keyRotationStep_takesZone there running rotating next spared grants
  refine ⟨t, takes, ?_⟩
  rw [zone_of_rekeyed zones wf]
  exact ⟨rfl, zoneRekeyed_units _ _⟩

end

end

/-! The start of a key rotation (R398, R399). -/

section
variable {s : State} {n : Ns} {nsid : Nat}

/-- The namespace n as it leaves its generation for gen, with a salt. -/
def rotatingTo (s : State) (n : Ns) (gen salt : Nat) : Ns :=
  { n with rot := some { oldGen := n.gen, newGen := gen, oldSalt := n.salt, switchAsn := s.adm.nextAsn
                         left := oldZones s n n.gen, pages := [] }
           gen := gen, salt := salt }

/-- The namespace m that n becomes is written, and the begin record of the rotation with it. -/
def rotationBegun (s : State) (nsid : Nat) (n m : Ns) : State := journal (setNs s m) 11 [0, n.gen, m.gen, nsid]

/-- Draws and dropped keys leave the namespaces and the dictionary. -/
theorem dropKeysOf_useDraws_says (gone : Nat × Nat → Bool) (s : State) (k : Nat) :
    (dropKeysOf gone (useDraws s k)).nss = s.nss ∧ (dropKeysOf gone (useDraws s k)).dict = s.dict := ⟨rfl, rfl⟩

/-- A rotation from generation 255 has dropped the namespace's other keys and drawn its new salt. -/
def saltRenewed (s : State) (nsid : Nat) : State :=
  dropKeysOf (fun k => k.1 == nsid && k.2 != 255) (useDraws s (saltDraws s (s.ciph.root.getD 0) nsid 1))

theorem saltRenewed_says (s : State) (nsid : Nat) :
    (saltRenewed s nsid).nss = s.nss ∧ (saltRenewed s nsid).dict = s.dict := dropKeysOf_useDraws_says ..

/-- The role of the pair is read from the dictionary. -/
theorem pairRole_of_dict {s t : State} (same : t.dict = s.dict) : pairRole t = pairRole s := by
  rw [pairRole, pairRole, od, od, same]

theorem rotationBegun_pairRole (s : State) (nsid : Nat) (n m : Ns) :
    pairRole (rotationBegun s nsid n m) = pairRole s := pairRole_of_dict rfl

section
variable (there : ns? s nsid = some n) (idle : rotationBusy s nsid = false)
include there idle

/-- Below generation 255 the generation rises by one and the salt stays; a lead with its link up announces it. -/
theorem startRotation_next (younger : n.gen < 255) :
    let t := rotationBegun s nsid n (rotatingTo s n (n.gen + 1) n.salt)
    startRotation s nsid = if pairRole t = 1 ∧ s.pair.linkUp = true then
      sendFrame t 0 0x04 [8, nsid, s.adm.nextAsn, n.gen + 1, n.salt] else t := by
  have notLast : n.gen ≠ 255 := by omega
  simp only [startRotation, there, idle, notLast, Bool.false_eq_true, if_false]
  rfl

theorem keyRotationStart_alone (younger : n.gen < 255) (alone : pairRole s = 0) :
    Does (.keyRotationStart nsid) s (rotationBegun s nsid n (rotatingTo s n (n.gen + 1) n.salt)) := by
  refine congrArg Host.Outcome.next ((startRotation_next there idle younger).trans (if_neg ?_))
  rw [rotationBegun_pairRole, alone]
  simp

theorem keyRotationStart_announces (younger : n.gen < 255) (lead : pairRole s = 1) (linkUp : s.pair.linkUp = true) :
    Does (.keyRotationStart nsid) s (sendFrame (rotationBegun s nsid n (rotatingTo s n (n.gen + 1) n.salt)) 0 0x04
      [8, nsid, s.adm.nextAsn, n.gen + 1, n.salt]) := by
  refine congrArg Host.Outcome.next ((startRotation_next there idle younger).trans (if_pos ?_))
  rw [rotationBegun_pairRole]
  exact ⟨lead, linkUp⟩

/-- From generation 255 the namespace's keys leave the cache, and generation 1 follows with a drawn salt. -/
theorem keyRotationStart_wraps (last : n.gen = 255) (alone : pairRole s = 0) : Does (.keyRotationStart nsid) s
    (rotationBegun (saltRenewed s nsid) nsid n (rotatingTo s n 1 (drawSalt s (s.ciph.root.getD 0) nsid 1))) := by
  refine congrArg Host.Outcome.next ?_
  simp only [startRotation, there, idle, if_pos last, Bool.false_eq_true, if_false]
  refine if_neg fun told => ?_
  obtain ⟨lead, -⟩ := told
  have role := (rotationBegun_pairRole (saltRenewed s nsid) nsid n
    (rotatingTo s n 1 (drawSalt s (s.ciph.root.getD 0) nsid 1))).trans (pairRole_of_dict (saltRenewed_says s nsid).2)
  exact absurd (alone.symm.trans (role.symm.trans lead)) (by decide)

theorem keyRotationStart_newSalt (last : n.gen = 255) (alone : pairRole s = 0) :
    ∃ t m, Does (.keyRotationStart nsid) s t ∧ ns? t nsid = some m ∧ m.gen = 1 ∧
      m.rot = some { oldGen := 255, newGen := 1, oldSalt := n.salt, switchAsn := s.adm.nextAsn
                     left := oldZones s n 255, pages := [] } ∧
      m.salt = drawSalt s (s.ciph.root.getD 0) nsid 1 := by
  refine ⟨_, rotatingTo s n 1 (drawSalt s (s.ciph.root.getD 0) nsid 1), keyRotationStart_wraps there idle last alone,
    ?_, rfl, by rw [rotatingTo, last], rfl⟩
  obtain rfl : n.nsid = nsid := ns?_nsid there
  rw [rotationBegun, journal_nsOpt]
  exact ns_setNs _ (rotatingTo s n 1 _) n (by rwa [ns?, (saltRenewed_says s _).1])

end

end

/-- Settles O23: a step of garbage collection by what its victim row holds, a step of a rotation by what it finds left,
and the start by the generation it leaves. -/
theorem backgroundCopies : Obligations.BackgroundCopies := by
  unfold Obligations.BackgroundCopies
  refine ⟨fun s nsid rg z u src y n rest there running conventional victim =>
      ⟨fun v => gcStep_copies there running conventional victim, gcStep_erases there running conventional victim⟩,
    fun s nsid u src y n r e there running rotating noZone =>
      ⟨fun v => keyRotationStep_reencrypts there running rotating noZone,
        keyRotationStep_ends there running rotating⟩,
    fun s nsid z n r v there running rotating => keyRotationStep_rekeys there running rotating,
    fun s nsid n there idle => ⟨fun younger => ⟨keyRotationStart_alone there idle younger,
      keyRotationStart_announces there idle younger⟩, keyRotationStart_newSalt there idle⟩⟩

end Sys2Proof.Machine

namespace Sys2Proof.Machine

open Sys2Proof

/-! PLN#, PWRDIS and the release of the power-lost state (R257, R573). -/

section
variable {s : State}

theorem plnFallingEdge_soon {us : Nat} (soon : us ≤ 1000) :
    Does (.plnFallingEdge us) s (plnQualify { s with power.plnLow := true }) :=
  congrArg Host.Outcome.next (if_pos soon)

theorem plnFallingEdge_late {us : Nat} (late : 1000 < us) :
    Does (.plnFallingEdge us) s { s with power.plnLow := true } :=
  congrArg Host.Outcome.next (if_neg (Nat.not_le.2 late))

theorem plnQualified_low (low : s.power.plnLow = true) : Does .plnQualified s (plnQualify s) :=
  congrArg Host.Outcome.next (if_pos low)

theorem plnGlitch_counts (low : s.power.plnLow = true) (running : s.power.hold = .running) :
    Does .plnGlitch s (odKeep { s with power.plnLow := false } 0x8400 0x09 (od s 0x8400 0x09 + 1)) := by
  have goes : ¬(!s.power.plnLow) = true := by simp [low]
  exact congrArg Host.Outcome.next ((if_neg goes).trans (if_pos running))

theorem powerLostRelease_resets (lost : s.power.hold = .lost) :
    Does .powerLostRelease s (raise { s with power.plnLow := false } 8 1) :=
  congrArg Host.Outcome.next (if_pos lost)

theorem powerLostRelease_notLost (notLost : s.power.hold ≠ .lost) : Does .powerLostRelease s s :=
  congrArg Host.Outcome.next (if_neg notLost)

/-! What a qualified PLN# leads to in each phase (R257, R258, R534). -/

theorem plnQualify_unarmed (running : s.power.hold = .running) (unarmed : s.power.armed = false) :
    plnQualify s = powerLost s := by
  rw [plnQualify, running]
  exact if_neg (Bool.eq_false_iff.1 unarmed)

theorem plnQualify_armed (running : s.power.hold = .running) (armed : s.power.armed = true) :
    plnQualify s = loupe (holdStart s .holdup) 258 0x84 5 [s.win.used] := by
  rw [plnQualify, running]
  exact if_pos armed

theorem plnQualify_flush (flush : s.power.hold = .flush) : plnQualify s =
    loupe { s with power.hold := if s.power.images.any (fun i => i.seq == s.power.imageSeq && !i.sealed) then .written
                                 else .holdup } 258 0x84 5 [s.win.used] := by
  rw [plnQualify, flush]

theorem plnQualify_unarmed_lost (running : s.power.hold = .running) (unarmed : s.power.armed = false) :
    (plnQualify s).power.hold = .lost ∧ (plnQualify s).pins.wpLow = true ∧
      (plnQualify s).power.images = s.power.images := by
  obtain ⟨power, wpLow, -, -⟩ := powerLost_says s
  rw [plnQualify_unarmed running unarmed, power]
  exact ⟨rfl, wpLow, rfl⟩

theorem plnQualify_armed_holdup (running : s.power.hold = .running) (armed : s.power.armed = true) :
    (plnQualify s).power.hold = .holdup := by
  rw [plnQualify_armed running armed, (loupe_tells ..).power]
  exact (holdStart_says s .holdup).2.1

/-- A flush whose image is sealed, or not yet written, goes on as a hold-up from its start. -/
theorem plnQualify_flush_holdup (flush : s.power.hold = .flush)
    (allSealed : ∀ i ∈ s.power.images, i.seq = s.power.imageSeq → i.sealed = true) :
    (plnQualify s).power.hold = .holdup := by
  have noneWritten : s.power.images.any (fun i => i.seq == s.power.imageSeq && !i.sealed) = false :=
    List.any_eq_false.2 fun i here => by simpa using allSealed i here
  rw [plnQualify_flush flush, noneWritten, (loupe_tells ..).power]
  rfl

/-- A flush that has written its image waits for the seal alone. -/
theorem plnQualify_flush_written {i : Image} (here : i ∈ s.power.images) (flush : s.power.hold = .flush)
    (newest : i.seq = s.power.imageSeq) (unsealed : i.sealed = false) : (plnQualify s).power.hold = .written := by
  have written : s.power.images.any (fun i => i.seq == s.power.imageSeq && !i.sealed) = true :=
    List.any_eq_true.2 ⟨i, here, by simp [newest, unsealed]⟩
  rw [plnQualify_flush flush, written, (loupe_tells ..).power]
  rfl

/-! The hold-up image and its seal (R258, R266 to R268). -/

theorem holdupDrainDone_waits (us : Nat) (busy : programming s = true) : Does (.holdupDrainDone us) s s :=
  congrArg Host.Outcome.next (if_pos busy)

theorem holdupDrainDone_writes (us : Nat) (idle : programming s = false) (holdup : s.power.hold = .holdup) :
    Does (.holdupDrainDone us) s (writeImage (odKeep { s with power.hold := .written } 0x8400 0x07 us)) := by
  show execHoldupDrainDone us s = _
  rw [execHoldupDrainDone, idle, holdup]
  rfl

/-- The image that is written is the newest one, not yet sealed. -/
theorem writeImage_says (s : State) : (writeImage s).power.hold = s.power.hold ∧
    (writeImage s).power.imageSeq = s.power.imageSeq + 1 ∧
    ∃ i ∈ (writeImage s).power.images, i.seq = (writeImage s).power.imageSeq ∧ i.sealed = false ∧
      i.nextAsn = s.adm.nextAsn ∧ i.units = windowUnits s ∧ i.tail = s.jrn.tail :=
  ⟨rfl, rfl, _, List.mem_append_right _ (List.mem_singleton_self _), rfl, rfl, rfl, rfl, rfl⟩

theorem holdupDrainDone_images (us : Nat) (idle : programming s = false) (holdup : s.power.hold = .holdup) :
    ∃ t, Does (.holdupDrainDone us) s t ∧ t.power.hold = .written ∧ t.power.imageSeq = s.power.imageSeq + 1 ∧
      ∃ i ∈ t.power.images, i.seq = t.power.imageSeq ∧ i.sealed = false ∧ i.nextAsn = s.adm.nextAsn ∧
        i.units = windowUnits s ∧ i.tail = s.jrn.tail :=
  ⟨_, holdupDrainDone_writes us idle holdup, writeImage_says _⟩

theorem holdupSealDone_seals (written : s.power.hold = .written) :
    Does .holdupSealDone s (powerLost (odKeep (sealImage s) 0x8400 0x0A (od s 0x8400 0x0A + 1))) :=
  congrArg Host.Outcome.next (if_pos written)

theorem holdupSealDone_notWritten (notWritten : s.power.hold ≠ .written) : Does .holdupSealDone s s :=
  congrArg Host.Outcome.next (if_neg notWritten)

/-- Every image stays as the seal finds it, and the newest one is marked sealed. -/
theorem sealImage_images {i : Image} (here : i ∈ s.power.images) : ∃ j ∈ (sealImage s).power.images,
    j.seq = i.seq ∧ j.units = i.units ∧ (i.seq = s.power.imageSeq → j.sealed = true) := by
  rw [(sealImage_says s).2]
  refine ⟨_, List.mem_map_of_mem here, ?_⟩
  by_cases newest : i.seq = s.power.imageSeq
  · rw [if_pos newest]
    exact ⟨rfl, rfl, fun _ => rfl⟩
  · rw [if_neg newest]
    exact ⟨rfl, rfl, fun same => absurd same newest⟩

theorem holdupSealDone_loses (written : s.power.hold = .written) : ∃ t, Does .holdupSealDone s t ∧
    t.power.hold = .lost ∧ t.power.armed = false ∧ t.pins.wpLow = true ∧ t.pair.linkUp = false ∧ t.jrn.tail = [] ∧
    ∀ i ∈ s.power.images, ∃ j ∈ t.power.images, j.seq = i.seq ∧ j.units = i.units ∧
      (i.seq = s.power.imageSeq → j.sealed = true) := by
  obtain ⟨power, wpLow, linkDown, jrn⟩ := powerLost_says (odKeep (sealImage s) 0x8400 0x0A (od s 0x8400 0x0A + 1))
  refine ⟨_, holdupSealDone_seals written, ?_⟩
  rw [power, jrn]
  exact ⟨rfl, rfl, wpLow, linkDown, (sealImage_says s).1, fun i here => sealImage_images here⟩

end

/-- Settles O24: each edge of PLN# and each phase it finds by its lemma, then the image and its seal. -/
theorem powerLossAndHoldUp : Obligations.PowerLossAndHoldUp := by
  unfold Obligations.PowerLossAndHoldUp
  refine ⟨fun s us => ⟨plnFallingEdge_soon, plnFallingEdge_late, plnQualified_low, plnGlitch_counts,
      powerLostRelease_resets, powerLostRelease_notLost, rfl, plnQualify_unarmed_lost, plnQualify_armed_holdup,
      plnQualify_flush_holdup, fun i => plnQualify_flush_written⟩,
    fun s us => ⟨holdupDrainDone_waits us, holdupDrainDone_images us, holdupSealDone_loses, fun running => ?_⟩⟩
  exact holdupSealDone_notWritten (by simp [running])

end Sys2Proof.Machine

namespace Sys2Proof.Machine

open Sys2Proof

/-! The orderly shutdown (R286, R565; log entry 53). -/

section
variable {s : State} {fn shn : Nat}

theorem fnc_setFn (v : Fn) (wf : kvWf {} s.host.fns) : fnc (setFn s fn v) fn = v := kvGet_put_self _ _ _ _ wf

theorem ccShnShutdown_ignored (notNormal : shn ≠ 1) (notAbrupt : shn ≠ 2) : Does (.ccShnShutdown fn shn) s s :=
  congrArg Host.Outcome.next (if_pos (.inl ⟨notNormal, notAbrupt⟩))

theorem ccShnShutdown_starts (set : shn = 1 ∨ shn = 2) (serving : inService s = true) (enabled : (fnc s fn).en = true) :
    Does (.ccShnShutdown fn shn) s
      (loupeFlush { setFn s fn { fnc s fn with shn := shn, shst := 1 } with
        power.shutdown := 1, power.shutdownFn := fn }) := by
  have goes : ¬((shn ≠ 1 ∧ shn ≠ 2) ∨ (!inService s) = true ∨ (!(fnc s fn).en) = true) := by
    simpa [serving, enabled, or_iff_not_imp_left] using set
  exact congrArg Host.Outcome.next (if_neg goes)

theorem not_inService_of_shutdown (shutdown : s.power.shutdown = 1) : inService s = false := by
  simp [inService, shutdown]

theorem ccShnShutdown_begun (wf : kvWf {} s.host.fns) (set : shn = 1 ∨ shn = 2) (serving : inService s = true)
    (enabled : (fnc s fn).en = true) : ∃ t, Does (.ccShnShutdown fn shn) s t ∧ t.power.shutdown = 1 ∧
      t.power.shutdownFn = fn ∧ (fnc t fn).shst = 1 ∧ inService t = false :=
  ⟨_, ccShnShutdown_starts set serving enabled, rfl, rfl, congrArg Fn.shst (fnc_setFn _ wf),
    not_inService_of_shutdown rfl⟩

theorem shutdownComplete_waits (undrained : drained s = false) : Does .shutdownComplete s s :=
  congrArg Host.Outcome.next (if_pos (.inr (by simp [undrained])))

theorem shutdownComplete_ends (wf : kvWf {} s.host.fns) (shutdown : s.power.shutdown = 1) (empty : drained s = true) :
    ∃ t, Does .shutdownComplete s t ∧ t.power.shutdown = 2 ∧ t.power.clean = true ∧ t.jrn.tail = [] ∧
      (fnc t s.power.shutdownFn).shst = 2 := by
  have goes : ¬(s.power.shutdown ≠ 1 ∨ (!drained s) = true) := by simp [shutdown, empty]
  refine ⟨_, congrArg Host.Outcome.next (if_neg goes), rfl, rfl, rfl, ?_⟩
  dsimp only
  split <;> exact congrArg Fn.shst (fnc_setFn _ wf)

end

/-! The restart scan (R288, R316, R551). -/

section
variable {s : State} {l : Option LossFacts}

/-- The state in which the scan has read everything back and stands before its writes. -/
def scanned (s : State) (l : Option LossFacts) : State :=
  { scanRead (useFree (odKeep s 0xA100 0x02 (freeVal s % 2 ^ 32))) l with rst.scanStep := 9 }

theorem restartScan_notStage3 (elsewhere : s.rst.life ≠ .stage3) : Does (.restartScan l) s s :=
  congrArg Host.Outcome.next (if_pos (.inl elsewhere))

section
variable (stage3 : s.rst.life = .stage3) (first : s.rst.scanStep = 0)
include stage3 first

theorem restartScan_scans : Does (.restartScan l) s
    (if (scanned s l).rst.maintain ∨ bootSel (scanned s l) = 1 then { scanned s l with rst.life := .maintenance }
     else if pairRole (scanned s l) ≠ 0 then
       { scanned s l with pair.bootWait := true, pair.hbInWait := (scanned s l).pair.hbIn }
     else scanArm (scanWrite (scanned s l))) :=
  congrArg Host.Outcome.next (if_neg (by simp [stage3, first]))

end

section
variable (clean : s.rst.unclean = false) (sorted : (s.dict.od.map Prod.fst).Pairwise (· < ·))
include clean sorted

/-- After a reset that lost nothing, the reading leaves the reset state, the pair and its role, and counts a shutdown
that was not clean. -/
theorem scanned_says : (scanned s l).rst = { s.rst with unclean := false, scanStep := 9 } ∧
    (scanned s l).pair = s.pair ∧ pairRole (scanned s l) = pairRole s ∧
    (scanned s l).power.unsafeShutdowns = s.power.unsafeShutdowns + if s.power.clean then 0 else 1 := by
  obtain ⟨rising, others, -, -, -⟩ := odKeep_says s 0xA100 0x02 (freeVal s % 2 ^ 32) 0 sorted
  obtain ⟨rst, pair, role, counted, -⟩ :=
    scanRead_says (useFree (odKeep s 0xA100 0x02 (freeVal s % 2 ^ 32))) l clean rising
  refine ⟨?_, pair, role.trans (others _ _ _ (by decide)), counted⟩
  show { (scanRead (useFree (odKeep s 0xA100 0x02 (freeVal s % 2 ^ 32))) l).rst with scanStep := 9 } = _
  rw [rst]
  rfl

theorem scanned_notMaintenance (notAsked : s.rst.maintain = false) (notStrapped : bootSel s ≠ 1) :
    ¬((scanned s l).rst.maintain = true ∨ bootSel (scanned s l) = 1) := by
  obtain ⟨rst, -⟩ := scanned_says (l := l) clean sorted
  rw [bootSel, rst, notAsked]
  exact not_or.2 ⟨Bool.false_ne_true, notStrapped⟩

variable (stage3 : s.rst.life = .stage3) (first : s.rst.scanStep = 0)
include stage3 first

theorem restartScan_maintains (asked : s.rst.maintain = true ∨ bootSel s = 1) : ∃ t, Does (.restartScan l) s t ∧
    t.rst.life = .maintenance ∧ t.pair = s.pair ∧
    t.power.unsafeShutdowns = s.power.unsafeShutdowns + if s.power.clean then 0 else 1 := by
  obtain ⟨rst, pair, -, counted⟩ := scanned_says (l := l) clean sorted
  have scans := restartScan_scans (l := l) stage3 first
  rw [if_pos (by rwa [bootSel, rst])] at scans
  exact ⟨_, scans, rfl, pair, counted⟩

section
variable (notAsked : s.rst.maintain = false) (notStrapped : bootSel s ≠ 1)
include notAsked notStrapped

theorem restartScan_inPairWait (twin : pairRole s ≠ 0) : ∃ t, Does (.restartScan l) s t ∧
    t.pair = { s.pair with bootWait := true, hbInWait := s.pair.hbIn } ∧ t.rst.life = .stage3 ∧ t.rst.scanStep = 9 := by
  obtain ⟨rst, pair, role, -⟩ := scanned_says (l := l) clean sorted
  have scans := restartScan_scans (l := l) stage3 first
  rw [if_neg (scanned_notMaintenance clean sorted notAsked notStrapped), if_pos (by rwa [role])] at scans
  refine ⟨_, scans, ?_, ?_, ?_⟩
  · dsimp only
    rw [pair]
  · rw [rst, ← stage3]
  · rw [rst]

theorem restartScan_arms (alone : pairRole s = 0) : ∃ t, Does (.restartScan l) s t ∧
    t.rst.life = .service ∧ t.rst.scanStep = 0 ∧ t.power.armed = true ∧ ∀ e ∈ t.host.fns, e.2.rdy = e.2.en := by
  obtain ⟨-, -, role, -⟩ := scanned_says (l := l) clean sorted
  have scans := restartScan_scans (l := l) stage3 first
  rw [if_neg (scanned_notMaintenance clean sorted notAsked notStrapped), if_neg (by simp [role, alone])] at scans
  exact ⟨_, scans, scanArm_says _⟩

end

end

end

/-! The release of the image area (R291). -/

section
variable {s : State}

theorem imageAreaRelease_releases (inUse : s.power.inUse = true) (running : s.power.hold = .running)
    (service : s.rst.life = .service)
    (zoned : ∀ e ∈ s.power.reload, e.1 < 2 ^ 32 → e ∉ windowUnits s ++ partialUnits s)
    (conv : ∀ e ∈ s.power.reload, 2 ^ 32 ≤ e.1 → (e.1 - 2 ^ 32, e.2) ∉ windowConv s) :
    Does .imageAreaRelease s { s with
      power.inUse := false, power.reload := []
      power.images := s.power.images.filter fun i => i.area == s.power.area } := by
  have noneWaits : (s.power.reload.filter fun e => if 2 ^ 32 ≤ e.1 then (windowConv s).contains (e.1 - 2 ^ 32, e.2)
      else (windowUnits s ++ partialUnits s).contains e) = [] := by
    refine List.filter_eq_nil_iff.2 fun e here => ?_
    by_cases isConv : 2 ^ 32 ≤ e.1
    · rw [if_pos isConv, List.contains_iff_mem]
      exact conv e here isConv
    · rw [if_neg isConv, List.contains_iff_mem]
      exact zoned e here (Nat.not_le.1 isConv)
  show execImageAreaRelease s = _
  unfold execImageAreaRelease
  dsimp only
  rw [noneWaits]
  exact congrArg Host.Outcome.next (if_neg (by simp [inUse, running, service]))

end

/-- Settles O25: the shutdown by its start and its end, the scan by where it ends, and the image area's release. -/
theorem shutdownAndRestartScan : Obligations.ShutdownAndRestartScan := by
  unfold Obligations.ShutdownAndRestartScan
  exact ⟨fun s fn shn wf => ⟨ccShnShutdown_begun wf, ccShnShutdown_ignored, shutdownComplete_ends wf,
      shutdownComplete_waits⟩,
    fun s l => ⟨restartScan_notStage3, fun stage3 first clean sorted =>
      ⟨restartScan_maintains clean sorted stage3 first, restartScan_inPairWait clean sorted stage3 first,
        restartScan_arms clean sorted stage3 first⟩, imageAreaRelease_releases⟩⟩

end Sys2Proof.Machine

namespace Sys2Proof.Machine

open Sys2Proof

/-! Frames of the twin that are not taken in (R296, R299, R300). -/

/-- The command i is the arrival of a frame of the twin under the header h: what it does, it does where the frame is
taken in. -/
def FrameOf (i : Instr) (h : FrameHdr) : Prop := ∃ f : State → State, ∀ s, Does i s (receive s h f)

theorem keepalive_frame (h : FrameHdr) (b : StatusBlock) : FrameOf (.keepalive h b) h := ⟨_, fun _ => rfl⟩

theorem pairRootTransfer_frame (h : FrameHdr) (root : Nat) : FrameOf (.pairRootTransfer h root) h := ⟨_, fun _ => rfl⟩

theorem handoverFrame_frame (h : FrameHdr) (head : Nat) : FrameOf (.handoverFrame h head) h := ⟨_, fun _ => rfl⟩

section
variable {i : Instr} {h : FrameHdr} (frame : FrameOf i h) {s : State}
include frame

theorem FrameOf.counts_oldEpoch (linked : s.pair.linkUp = true) (inSession : s.pair.session = true)
    (old : h.epoch < pairEpoch s) : Does i s (odBump s 0x5010 0x08) := by
  obtain ⟨f, arrives⟩ := frame
  exact (arrives s).trans (congrArg Host.Outcome.next ((if_neg (by simp [linked, inSession])).trans (if_pos old)))

theorem FrameOf.drops_seen (linked : s.pair.linkUp = true) (inSession : s.pair.session = true)
    (current : pairEpoch s ≤ h.epoch) (seen : h.seq ≤ s.pair.rxSeq) : Does i s s := by
  obtain ⟨f, arrives⟩ := frame
  exact (arrives s).trans (congrArg Host.Outcome.next ((if_neg (by simp [linked, inSession])).trans
    ((if_neg (Nat.not_lt.2 current)).trans (if_pos seen))))

theorem FrameOf.drops_noSession (closed : s.pair.session = false) : Does i s s := by
  obtain ⟨f, arrives⟩ := frame
  exact (arrives s).trans (congrArg Host.Outcome.next (if_pos (by simp [closed])))

end

/-- Settles O27: each of the three commands is the arrival of a frame, and a frame that may not be taken in is dropped. -/
theorem staleFramesAreDropped : Obligations.StaleFramesAreDropped := by
  unfold Obligations.StaleFramesAreDropped
  intro s h b root head
  have keepalive := keepalive_frame h b
  have transfer := pairRootTransfer_frame h root
  have handover := handoverFrame_frame h head
  refine ⟨fun linked inSession old => ⟨?_, ?_, ?_⟩, fun linked inSession current seen => ⟨?_, ?_, ?_⟩,
    fun noSession => ⟨keepalive.drops_noSession noSession, transfer.drops_noSession noSession,
      handover.drops_noSession noSession⟩⟩
  · exact keepalive.counts_oldEpoch linked inSession old
  · exact transfer.counts_oldEpoch linked inSession old
  · exact handover.counts_oldEpoch linked inSession old
  · exact keepalive.drops_seen linked inSession current seen
  · exact transfer.drops_seen linked inSession current seen
  · exact handover.drops_seen linked inSession current seen

/-! Keepalives of the pair's own epoch (R299, R306, R317). -/

/-- The state in which the status of a received keepalive is kept. -/
def heard (s : State) (h : FrameHdr) (b : StatusBlock) : State :=
  { taken s h with pair.missed := 0, pair.twin := some b }

/-- A lead follows its follower to phase p; a twin that joins raises the epoch. -/
def followPhase (s : State) (p : Nat) : State :=
  let t := if 2 ≤ pairPhase s ∧ pairPhase s < p ∧ p ≤ 4 then setPhase s p else s
  if pairPhase s < 3 ∧ 3 ≤ pairPhase t then bumpEpoch { t with pair.promoted := false } else t

/-- What the kept status of a keepalive leads to. -/
def followTwin (s : State) (b : StatusBlock) : State :=
  if pairRole s = 1 ∧ b.role = 2 then trySeparate (tryHandover (followPhase s b.phase) b.appliedHead)
  else trySeparate s

theorem followPhase_pair (s : State) (p : Nat) :
    (followPhase s p).pair.handing = s.pair.handing ∧ (followPhase s p).pair.detaching = s.pair.detaching := by
  unfold followPhase
  dsimp only
  split <;> split <;> exact ⟨rfl, rfl⟩

theorem followPhase_joins {s : State} (catching : pairPhase s = 2) : followPhase s 3 =
    if 3 ≤ pairPhase (setPhase s 3) then bumpEpoch { setPhase s 3 with pair.promoted := false } else setPhase s 3 := by
  simp [followPhase, catching]

theorem followTwin_notLead {s : State} (b : StatusBlock) (notLead : pairRole s ≠ 1)
    (noSeparation : s.pair.detaching = false) : followTwin s b = s :=
  (if_neg fun both => notLead both.1).trans (trySeparate_idle s noSeparation)

theorem followTwin_lead {s : State} {b : StatusBlock} (lead : pairRole s = 1) (ofFollower : b.role = 2)
    (noHandover : s.pair.handing = false) (noSeparation : s.pair.detaching = false) :
    followTwin s b = followPhase s b.phase := by
  obtain ⟨handing, detaching⟩ := followPhase_pair s b.phase
  rw [followTwin, if_pos ⟨lead, ofFollower⟩, tryHandover_idle _ _ (handing.trans noHandover),
    trySeparate_idle _ (detaching.trans noSeparation)]

section
variable {s : State} {h : FrameHdr} (received : Received s h)
include received

theorem keepalive_follows (b : StatusBlock) (sameEpoch : h.epoch = pairEpoch s) :
    Does (.keepalive h b) s (followTwin (heard s h b) b) := by
  have notOlder : ¬pairEpoch (heard s h b) < h.epoch := Nat.not_lt.2 (le_of_eq sameEpoch)
  exact congrArg Host.Outcome.next
    ((receive_taken received _).trans (congrArg (followTwin · b) (if_neg notOlder)))

theorem keepalive_notLead (b : StatusBlock) (notLead : pairRole s ≠ 1) (sameEpoch : h.epoch = pairEpoch s)
    (noSeparation : s.pair.detaching = false) : Does (.keepalive h b) s (heard s h b) := by
  have follows := keepalive_follows received b sameEpoch
  rwa [followTwin_notLead (s := heard s h b) b notLead noSeparation] at follows

theorem keepalive_joins (b : StatusBlock) (lead : pairRole s = 1) (ofFollower : b.role = 2)
    (sameEpoch : h.epoch = pairEpoch s) (catching : pairPhase s = 2) (joins : b.phase = 3)
    (noSeparation : s.pair.detaching = false) (noHandover : s.pair.handing = false) :
    Does (.keepalive h b) s (let t := setPhase (heard s h b) 3
      if 3 ≤ pairPhase t then bumpEpoch { t with pair.promoted := false } else t) := by
  have follows := keepalive_follows received b sameEpoch
  rwa [followTwin_lead (s := heard s h b) lead ofFollower noHandover noSeparation, joins,
    followPhase_joins (s := heard s h b) catching] at follows

end

/-! Attach, handover, detach, fork and preserve reports (R235, R317, R318, R320, R325, R326). -/

/-- The lead that a follower becomes by a handover at the head. -/
def handedOver (s : State) (h : FrameHdr) (head : Nat) : State :=
  let t := odSave (setRole (taken s h) 1) 0x5000 0x02 0 (Nat.max h.epoch (pairEpoch s))
  { t with adm.nextAsn := head + 1, adm.appliedHead := head }

/-- A detached twin whose commands that sought an ASN have ended; its head passes to the detach's ASN. -/
def detachedAt (s : State) (asn : Nat) : State :=
  { s with pair.asked := [], adm.appliedHead := Nat.max s.adm.appliedHead (Nat.min asn (s.adm.nextAsn - 1)) }

theorem sendFrame_mirror_adm (s : State) (kind : Nat) (body : List Nat) : (sendFrame s 0 kind body).adm = s.adm := rfl

theorem ordersHere_none {s : State} (empty : s.host.cmds = []) : ordersHere s = s := by
  rw [ordersHere, empty]
  rfl

/-- A follower that knows of no other switch of a key has taken in the announcement of one. -/
def announced (s : State) (h : FrameHdr) (e : Nat × Nat × Nat × Nat) : State :=
  { taken s h with pair.switches := [e] }

section
variable {s : State} {nsid asn g salt : Nat}

theorem dueSwitches_waits (only : s.pair.switches = [(nsid, asn, g, salt)]) (later : s.adm.nextAsn < asn) :
    dueSwitches s = s := by
  simp only [dueSwitches, only, later, Nat.not_le.2 later, List.filter_cons, List.filter_nil, decide_true, decide_false,
    Bool.false_eq_true, if_true, if_false, List.foldl_nil]
  rw [← only]

theorem dueSwitches_applies (only : s.pair.switches = [(nsid, asn, g, salt)]) (due : asn ≤ s.adm.nextAsn) :
    dueSwitches s = switchKeys { s with pair.switches := [] } (nsid, asn, g, salt) := by
  simp [dueSwitches, only, due, Nat.not_lt.2 due]

theorem switchKeys_known {n : Ns} (found : ns? s nsid = some n) : switchKeys s (nsid, asn, g, salt) =
    (let r : Rotation := { oldGen := n.gen, newGen := g, oldSalt := n.salt, switchAsn := asn
                           left := oldZones s n n.gen, pages := [] }
     journal (setNs s { n with rot := some r, gen := g, salt := salt }) 11 [0, n.gen, g, nsid]) := by
  simp only [switchKeys, found]

end

section
variable {s : State} {h : FrameHdr} (received : Received s h)
include received

theorem attachFrame_catchesUp (fork live : Nat) (rings regions : List (Nat × Nat)) (follower : pairRole s = 2)
    (attaching : pairPhase s = 1) : Does (.attachFrame h fork live rings regions none) s
      (let t := rings.foldl ringResume (discardAbove (taken s h) fork)
       let t := { t with nss := t.nss.map fun n => { n with seqs := [] } }
       let t := odSet (odSet (odSave t 0x5000 0x07 0 fork) 0x5000 0x08 0 live) 0x5020 0x02 0 0
       setPhase { t with pair.wasLead := false, pair.regions := regions } 2) :=
  congrArg Host.Outcome.next ((receive_taken received _).trans
    (if_neg fun other => other.elim (absurd follower) (absurd attaching)))

theorem handoverFrame_leads (head : Nat) (follower : pairRole s = 2) (inStep : pairPhase s = 4) :
    Does (.handoverFrame h head) s (askedToPoint (ordersHere (handedOver s h head))) :=
  congrArg Host.Outcome.next ((receive_taken received _).trans
    (if_neg fun other => other.elim (absurd follower) (absurd inStep)))

theorem handoverFrame_noCommand (head : Nat) (follower : pairRole s = 2) (inStep : pairPhase s = 4)
    (empty : s.host.cmds = []) : ∃ t, Does (.handoverFrame h head) s t ∧ t.adm.nextAsn = head + 1 ∧
      t.pair.wasLead = true ∧ t.pair.asked = [] ∧ t.zones = s.zones := by
  refine ⟨_, handoverFrame_leads received head follower inStep, ?_⟩
  rw [ordersHere_none (s := handedOver s h head) empty]
  exact ⟨rfl, rfl, rfl, rfl⟩

theorem detachFrame_lead (asn : Nat) (lead : pairRole s = 1) : Does (.detachFrame h asn) s (separate (taken s h)) :=
  congrArg Host.Outcome.next ((receive_taken received _).trans (if_pos lead))

/-- With no command in the device and every record sealed, a detach leaves nothing to settle. -/
theorem detachFrame_follower (asn : Nat) (follower : pairRole s = 2) (empty : s.host.cmds = [])
    (sealed : ∀ l ∈ s.adm.recs, l.sealed = true) : ∃ t, Does (.detachFrame h asn) s t ∧ t.pair.detached = true ∧
      t.pair.detaching = false ∧ t.pair.asked = [] ∧ t.zones = s.zones := by
  have notLead : ¬pairRole s = 1 := by omega
  obtain ⟨pair, adm, zones, cmds⟩ := setAna_says { taken s h with pair.detached := true, pair.detaching := true } 4
  have detaches : Does (.detachFrame h asn) s
      (trySeparate (detachedAt (setAna { taken s h with pair.detached := true, pair.detaching := true } 4) asn)) := by
    refine congrArg Host.Outcome.next ((receive_taken received _).trans ((if_neg notLead).trans
      ((if_neg (not_not.2 follower)).trans ?_)))
    dsimp only
    rw [cmds, show (taken s h).host.cmds = [] from empty]
    rfl
  generalize setAna { taken s h with pair.detached := true, pair.detaching := true } 4 = u at *
  obtain ⟨pair', zones'⟩ := trySeparate_says (detachedAt u asn) (by rw [detachedAt, pair]) (cmds.trans empty)
    (by rw [detachedAt, adm]; exact sealed)
  refine ⟨_, detaches, ?_⟩
  rw [pair', zones', detachedAt, pair]
  exact ⟨rfl, rfl, rfl, zones⟩

theorem forkReport_attaches (fork head : Nat) (lead : pairRole s = 1) (attaching : pairPhase s = 1)
    (notPromoted : s.pair.promoted = false) (known : s.pair.newTwin = false)
    (above : s.adm.floor ≤ Nat.min fork head + 1) (shared : ∀ l ∈ s.adm.recs, l.r.asn ≤ Nat.min fork head) :
    Does (.forkReport h fork head) s (setPhase (odSet (sendFrame (odSet (taken s h) 0x5020 0x02 0 0) 0 0x04
      ([1, Nat.min fork head, s.adm.nextAsn, s.rings.length] ++ (s.rings.flatMap fun e => [e.1, e.2.c]) ++
        [s.pair.regions.length] ++ s.pair.regions.flatMap fun e => [e.1, e.2])) 0x5000 0x08 0 s.adm.nextAsn) 2) := by
  have noTransfer : decide (Nat.min fork head + 1 < s.adm.floor) = false := decide_eq_false (Nat.not_lt.2 above)
  have noBacklog : (s.adm.recs.filter fun l => decide (Nat.min fork head < l.r.asn)) = [] := by
    simpa [List.filter_eq_nil_iff] using shared
  refine congrArg Host.Outcome.next ((receive_taken received _).trans
    ((if_neg fun other => other.elim (absurd lead) (absurd attaching)).trans ?_))
  simp only [taken, notPromoted, known, Bool.false_eq_true, if_false, Bool.false_or, noTransfer, List.append_nil,
    sendFrame_mirror_adm, odSet_adm, noBacklog, List.foldl_nil]

theorem preserveReport_due (group : Nat) (lead : pairRole s = 1) (normal : s.adm.preserve = false)
    (notDue : s.adm.due.contains (.preserve group) = false) : Does (.preserveReport h group) s
      { taken s h with adm.due := s.adm.due ++ [.preserve group] } := by
  have lead' : pairRole (taken s h) = 1 := lead
  exact congrArg Host.Outcome.next ((receive_taken received _).trans
    (if_neg (by simp only [lead', normal, notDue]; simp)))

/-! Roots, key switches, forced resets and late acknowledgements (R304, R399, R402, R536). -/

theorem pairRootTransfer_follower (root : Nat) (follower : pairRole s = 2) : Does (.pairRootTransfer h root) s
    { taken s h with ciph.root := some root, ciph.stored := some root, pair.twinRoot := some root
                     ciph.erased := false } :=
  congrArg Host.Outcome.next ((receive_taken received _).trans (if_neg fun other => other.1 follower))

theorem keySwitchAsnFrame_announces (nsid asn g salt : Nat) (follower : pairRole s = 2) (noSwitch : s.pair.switches = []) :
    Does (.keySwitchAsnFrame h nsid asn g salt) s (dueSwitches (announced s h (nsid, asn, g, salt))) := by
  have one : (taken s h).pair.switches ++ [(nsid, asn, g, salt)] = [(nsid, asn, g, salt)] :=
    congrArg (· ++ [(nsid, asn, g, salt)]) noSwitch
  refine congrArg Host.Outcome.next ((receive_taken received _).trans ((if_neg (not_not.2 follower)).trans ?_))
  rw [one]
  rfl

theorem keySwitchAsnFrame_waits (nsid asn g salt : Nat) (follower : pairRole s = 2) (noSwitch : s.pair.switches = [])
    (later : s.adm.nextAsn < asn) : Does (.keySwitchAsnFrame h nsid asn g salt) s (announced s h (nsid, asn, g, salt)) := by
  have announces := keySwitchAsnFrame_announces received nsid asn g salt follower noSwitch
  rwa [dueSwitches_waits (s := announced s h _) rfl later] at announces

theorem keySwitchAsnFrame_switches (nsid asn g salt : Nat) (follower : pairRole s = 2) (noSwitch : s.pair.switches = [])
    {n : Ns} (due : asn ≤ s.adm.nextAsn) (found : ns? s nsid = some n) : Does (.keySwitchAsnFrame h nsid asn g salt) s
      (let t := { taken s h with pair.switches := [] }
       let r : Rotation := { oldGen := n.gen, newGen := g, oldSalt := n.salt, switchAsn := asn
                             left := oldZones t n n.gen, pages := [] }
       journal (setNs t { n with rot := some r, gen := g, salt := salt }) 11 [0, n.gen, g, nsid]) := by
  have announces := keySwitchAsnFrame_announces received nsid asn g salt follower noSwitch
  rwa [dueSwitches_applies (s := announced s h _) rfl due,
    switchKeys_known (s := { announced s h (nsid, asn, g, salt) with pair.switches := [] }) found] at announces

theorem forcedResetFrame_raises (case : Nat) (follower : pairRole s = 2) (sameEpoch : h.epoch = pairEpoch s) :
    Does (.forcedResetFrame h case) s (let t := odSet (taken s h) 0xA000 0x08 0 case
      raise { t with health.savedOd := kvPut 0 (odKey 0xA000 0x08 0) case t.health.savedOd } 5) :=
  congrArg Host.Outcome.next ((receive_taken received _).trans
    (if_neg fun other => other.elim (absurd follower) (absurd sameEpoch)))

theorem holdingAckLate_forcesReset {asn : Nat} {k : Cmd} (lead : pairRole s = 1) (together : joined s = true)
    (held : k ∈ s.host.cmds) (owns : asn ∈ k.asns) (owed : k.acked = false) :
    Does (.holdingAckLate asn) s (sendFrame s 0 0x04 [9, 2]) := by
  have late : s.host.cmds.any (fun k => k.asns.contains asn && !k.acked) = true :=
    List.any_eq_true.2 ⟨k, held, by simp [owns, owed]⟩
  exact congrArg Host.Outcome.next (if_pos ⟨lead, received.1, together, late⟩)

end

/-- Settles O28: each frame by its lemma. -/
theorem pairControlFrames : Obligations.PairControlFrames := by
  unfold Obligations.PairControlFrames
  refine ⟨fun s h received => ⟨keepalive_notLead received, keepalive_joins received, attachFrame_catchesUp received,
      fun head follower inStep => ⟨handoverFrame_leads received head follower inStep,
        handoverFrame_noCommand received head follower inStep⟩,
      detachFrame_lead received, detachFrame_follower received,
      fun fork head lead attaching notPromoted known above shared =>
        ⟨_, forkReport_attaches received fork head lead attaching notPromoted known above shared, rfl, rfl, ?_⟩,
      preserveReport_due received⟩,
    fun s h received => ⟨pairRootTransfer_follower received, fun nsid asn g salt follower noSwitch =>
        ⟨keySwitchAsnFrame_waits received nsid asn g salt follower noSwitch,
          fun n => keySwitchAsnFrame_switches received nsid asn g salt follower noSwitch⟩,
      forcedResetFrame_raises received, fun asn k => holdingAckLate_forcesReset received⟩⟩
  exact List.map_append

end Sys2Proof.Machine

namespace Sys2Proof.Machine

open Sys2Proof

/-! Lost links and power-loss notices of a cascade (R306, R308, R335, R338; log entry 54). -/

section
variable {s : State} {port : Nat}

theorem powerLossNotice_cascade (ofCascade : port ≠ 0) : Does (.powerLossNotice port) s (cascadeLost s port) :=
  congrArg Host.Outcome.next (if_neg ofCascade)

theorem powerLossNotice_mirror (linked : s.pair.linkUp = true) : Does (.powerLossNotice 0) s (noticeFromTwin s) :=
  congrArg Host.Outcome.next ((if_pos rfl).trans (if_pos linked))

theorem cascadeLost_master (master : casPos s = 0) (linked : (member s port).linkUp = true) :
    cascadeLost s port = memberLost s port 0 :=
  (if_neg (by simp [linked])).trans (if_pos master)

theorem cascadeLost_member (ofMember : casPos s ≠ 0) (linked : (member s 1).linkUp = true) :
    cascadeLost s 1 = masterGone s :=
  (if_neg (by simp [linked])).trans ((if_neg ofMember).trans (if_pos rfl))

/-! Members that return and members that are removed (R336, R337). -/

theorem memberProbationPass_checks (master : casPos s = 0) (returning : od s 0x5110 0x01 port = 1)
    (linked : (member s port).linkUp = true) (configOk extentsOk frameClean : Bool) :
    Does (.memberProbationPass port configOk extentsOk frameClean) s
      (if configOk ∧ extentsOk ∧ frameClean then anaChanged (odSet s 0x5110 0x01 port 2)
        else loupe s 336 0x51 5 [port]) :=
  congrArg Host.Outcome.next (if_neg (by simp [master, returning, linked]))

theorem memberRemove_removes (master : casPos s = 0) (first : 1 ≤ port) (last : port ≤ 3)
    (notRemoved : od s 0x5110 0x01 port ≠ 3) : Does (.memberRemove port) s (memberLost s port 3) :=
  congrArg Host.Outcome.next (if_neg (by omega))

end

/-! Commands that the master forwards (R331, R332). -/

/-- The state in which a member takes up a forwarded command: the frame is taken in, the command has passed the master's
crossing and has its number. -/
def forwardTaken (s : State) (h : FrameHdr) (c : IoCmd) : State :=
  { (passCrossing (setMember s 1 { member s 1 with rxSeq := h.seq, missed := 0 }) 2 c).1 with
    host.nextId := s.host.nextId + 1 }

/-- A forwarded command without a data check as the member has taken it up. -/
def forwardCmd (s : State) (op : IoOp) (c : IoCmd) (index g cls tag : Nat) : Cmd :=
  { id := s.host.nextId, op := op, io := (passCrossing s 2 c).2, gen := g, index := index, origin := 2, tag := tag
    cls := cls, check := none }

section
variable {s : State} {h : FrameHdr} {c : IoCmd} {fn : Nat} {n : Ns} (ofMember : casPos s ≠ 0)
  (linked : (member s 1).linkUp = true) (new : (member s 1).rxSeq < h.seq) (serving : inService s = true)
include ofMember linked new serving

theorem forwardedCommand_taken :
    ¬(casPos s = 0 ∨ (!(member s 1).linkUp) = true ∨ h.seq ≤ (member s 1).rxSeq ∨ (!inService s) = true) := by
  simp [ofMember, linked, new, serving]

variable (found : ns? s c.nsid = some n)
include found

theorem forwardedRead_served (index g cls first tag : Nat) :
    Does (.forwardedCommand h .read c index fn g cls first 0 tag) s
      (serveRead (forwardTaken s h { c with fn := fn }) n
        (forwardCmd s .read { c with fn := fn } index g cls tag)) := by
  have notAdmitted : ¬(n.zoned && admits .read true) = true := by simp [admits]
  refine congrArg Host.Outcome.next ((if_neg (forwardedCommand_taken ofMember linked new serving)).trans ?_)
  unfold ns? at found
  simp only [passCrossing, setMember, ns?, found]
  exact if_neg notAdmitted

theorem forwardedZoneSend_toPoint (index g cls first tag : Nat) (a : ZoneAct) (zoned : n.zoned = true) :
    Does (.forwardedCommand h (.zoneSend a) c index fn g cls first 0 tag) s
      (toPoint (forwardTaken s h { c with fn := fn }) n
        (forwardCmd s (.zoneSend a) { c with fn := fn } index g cls tag)) := by
  have admitted : (n.zoned && admits (.zoneSend a) true) = true := by simp [admits, zoned]
  refine congrArg Host.Outcome.next ((if_neg (forwardedCommand_taken ofMember linked new serving)).trans ?_)
  unfold ns? at found
  simp only [passCrossing, setMember, ns?, found]
  exact if_pos admitted

end

/-! The parts of a command on members (R333, R334). -/

/-- With its only outstanding part at a member ended, a command has no part out. -/
theorem partsOut_lastEnded {s : State} {port id : Nat} {m : Member} (wf : kvWf {} s.casc.members) (ended : m.sent = [])
    (noOther : ∀ e ∈ s.casc.members, e.1 ≠ port → ∀ y ∈ e.2.sent, y.2 ≠ id) :
    partsOut (setMember s port m) id = false := by
  refine List.any_eq_false.2 fun e here => Bool.eq_false_iff.1 (List.any_eq_false.2 fun y sent => ?_)
  rw [beq_iff_eq]
  obtain rfl | ⟨before, other⟩ := kvPut_mem_wf _ _ _ _ wf e here
  · simp [ended] at sent
  · exact noOther e before other y sent

/-- A write whose parts have ended, and whose namespace does not end, completes. -/
theorem partsEnded_write {s : State} {k : Cmd} (write : k.op = .write) (away : k.stage = .forwarded)
    (one : k.io.selectAll = false) (staying : ∀ n, ns? s k.io.nsid = some n → n.ending = none) :
    partsEnded s k = finishCmd s k (if k.data = [] ∨ k.status ≠ 0 then .none else .slots k.data) := by
  have notRead : ¬(k.stage = .reading ∨ k.op = .read ∨ k.op = .compare ∨ k.op = .verify) := by simp [write, away]
  have notEnding : ¬((ns? s k.io.nsid).any fun n => n.ending.any fun e => e.cmd == k.id) = true := by
    cases found : ns? s k.io.nsid with
    | none => simp
    | some n => simp [staying n found]
  rw [partsEnded, if_neg notRead, if_neg notEnding, if_neg (by simp [one]), if_neg (by simp [write])]

section
variable {s : State} {port tag : Nat}

theorem memberCompletion_unknown (status head : Nat) (unknown : (member s port).sent.find? (fun e => e.1 == tag) = none) :
    Does (.memberCompletion port tag status 0 0 ⟨head, []⟩) s s := by
  refine congrArg Host.Outcome.next ?_
  rw [unknown]

/-- The first part that fails gives its status to a command, with what the part answers. -/
def partFailed (k : Cmd) (tag status : Nat) (data : List Nat) : Cmd :=
  { k with status := status, tag := tag, data := k.data ++ data }

/-- The master's state when the only part that a member has outstanding has ended. -/
def lastPartEnded (s : State) (port head : Nat) : State :=
  odSet (setMember s port { member s port with sent := [], missed := 0 }) 0x5110 0x04 port head

section
variable {id : Nat} {k : Cmd} (last : (member s port).sent = [(tag, id)]) (found : cmd? s id = some k) (fine : k.status = 0)
  {status : Nat} (fails : status ≠ 0) (head : Nat) (data : List Nat)
include last found fine fails

/-- A member's only outstanding part has failed: the status goes to its command, which ends when no part is out. -/
theorem memberCompletion_failedPart : Does (.memberCompletion port tag status 0 0 ⟨head, data⟩) s
    (let t := setCmd (lastPartEnded s port head) (partFailed k tag status data)
     if partsOut t k.id then t else partsEnded t (partFailed k tag status data)) := by
  have noneLeft : [(tag, id)].filter (fun x => x.1 != tag) = [] := by simp
  have first : (status != 0 && (k.status == 0 || decide (tag < k.tag))) = true := by simp [fails, fine]
  refine congrArg Host.Outcome.next ?_
  simp only [last, List.find?_cons, beq_self_eq_true, noneLeft, odSet_cmdOpt, setMember_cmdOpt, found, first, if_true]
  rfl

theorem memberCompletion_lastFails (wf : kvWf {} s.casc.members) (write : k.op = .write) (away : k.stage = .forwarded)
    (one : k.io.selectAll = false) (staying : ∀ n, ns? s k.io.nsid = some n → n.ending = none)
    (noOther : ∀ e ∈ s.casc.members, e.1 ≠ port → ∀ y ∈ e.2.sent, y.2 ≠ k.id) :
    Does (.memberCompletion port tag status 0 0 ⟨head, data⟩) s
      (finishCmd (setCmd (lastPartEnded s port head) (partFailed k tag status data)) (partFailed k tag status data)) := by
  have completes := memberCompletion_failedPart last found fine fails head data
  have whole : partsOut (setCmd (lastPartEnded s port head) (partFailed k tag status data)) k.id = false :=
    partsOut_lastEnded (m := { member s port with sent := [], missed := 0 }) wf rfl noOther
  have ends := partsEnded_write (s := setCmd (lastPartEnded s port head) (partFailed k tag status data))
    (k := partFailed k tag status data) write away one staying
  rw [if_pos (.inr fails)] at ends
  dsimp only at completes
  rwa [whole, if_neg Bool.false_ne_true, ends] at completes

end
end

/-- Settles O30: each event of a member by its lemma. -/
theorem cascadeMembers : Obligations.CascadeMembers := by
  unfold Obligations.CascadeMembers
  refine fun s port => ⟨rfl, powerLossNotice_cascade, powerLossNotice_mirror, cascadeLost_master, cascadeLost_member,
    fun h c index fn g cls first tag n ofMember linked new serving found =>
      ⟨forwardedRead_served ofMember linked new serving found index g cls first tag,
        forwardedZoneSend_toPoint ofMember linked new serving found index g cls first tag⟩,
    fun tag status head => memberCompletion_unknown status head,
    fun tag status head data id k wf last found write away one fine staying noOther fails =>
      memberCompletion_lastFails last found fine fails head data wf write away one staying noOther,
    fun master returning linked => ⟨memberProbationPass_checks master returning linked true true true,
      memberProbationPass_checks master returning linked true false true⟩, memberRemove_removes⟩

end Sys2Proof.Machine

namespace Sys2Proof.Machine

open Sys2Proof

/-! Keepalive periods and link losses (R299, R306, R308; log entries 20 and 95). -/

section
variable {s : State}

theorem keepaliveSend_noLink (down : s.pair.linkUp = false) (noMember : ∀ p, (member s p).linkUp = false) :
    Does .keepaliveSend s { s with pair.hbAge := if s.pair.hbIn then 0 else s.pair.hbAge + 1 } := by
  have idle : ¬(s.pair.linkUp && s.pair.session) = true := by simp [down]
  exact congrArg Host.Outcome.next
    ((foldl_members_idle _ _ _ fun p => by split <;> exact noMember p).trans (if_neg idle))

theorem keepaliveSend_inSession (up : s.pair.linkUp = true) (session : s.pair.session = true)
    (noMember : ∀ p, (member s p).linkUp = false) : ∃ t, Does .keepaliveSend s t ∧
      t.pair.missed = s.pair.missed + 1 ∧ t.pair.txq.map (·.kind) = s.pair.txq.map (·.kind) ++ [1, 3] ∧
      t.pair.unacked = s.pair.unacked := by
  have inSession : (s.pair.linkUp && s.pair.session) = true := by simp [up, session]
  refine ⟨_, congrArg Host.Outcome.next
    ((foldl_members_idle _ _ _ fun p => by split <;> exact noMember p).trans (if_pos inSession)), rfl, ?_, rfl⟩
  simp [sendFrame, useFree]

theorem linkLoss_loses (up : s.pair.linkUp = true) (tenMissed : 10 ≤ s.pair.missed) :
    Does .linkLoss s (loupe (linkLost s) 225 0x50 5 [0]) :=
  congrArg Host.Outcome.next (if_pos ⟨up, tenMissed⟩)

theorem linkLoss_none (fewer : s.pair.missed < 10) : Does .linkLoss s s :=
  congrArg Host.Outcome.next (if_neg fun lost => Nat.not_le.2 fewer lost.2)

/-- A follower that loses its link is fenced where PAIR_HB_IN is present or has been absent for more than 1 ms, and
else waits. -/
theorem linkLost_follower (follower : pairRole s = 2) : linkLost s =
    if (linkDown s).pair.hbIn then fence (linkDown s)
    else if (linkDown s).pair.hbAge ≤ 50 then setAna { linkDown s with pair.waiting := true } 15
    else loupe (fence (linkDown s)) 308 0x50 5 [] := by
  have notLead : ¬pairRole s = 1 := by omega
  exact (if_neg notLead).trans (if_pos follower)

/-- The link is down: no session, and no frame that waits for an acknowledgement. -/
def Unlinked (s : State) : Prop := s.pair.linkUp = false ∧ s.pair.session = false ∧ s.pair.unacked = []

theorem Unlinked.of_pair {s t : State} (down : Unlinked s) (linkUp : t.pair.linkUp = s.pair.linkUp)
    (session : t.pair.session = s.pair.session) (unacked : t.pair.unacked = s.pair.unacked) : Unlinked t := by
  obtain ⟨a, b, c⟩ := down
  exact ⟨linkUp.trans a, session.trans b, unacked.trans c⟩

theorem linkDown_unlinked (noRead : s.reads = []) : Unlinked (linkDown s) := by
  obtain ⟨linkUp, session, unacked, -⟩ := linkDown_says s noRead
  exact ⟨linkUp, session, unacked⟩

theorem fence_unlinked (down : Unlinked s) (empty : s.host.cmds = []) : Unlinked (fence s) := by
  obtain ⟨-, -, -, -, linkUp, session, unacked⟩ := fence_says s empty
  exact down.of_pair linkUp session unacked

theorem setAna_unlinked (down : Unlinked s) (a : Nat) : Unlinked (setAna s a) := by
  obtain ⟨pair, -⟩ := setAna_says s a
  exact down.of_pair (by rw [pair]) (by rw [pair]) (by rw [pair])

theorem loupe_unlinked (down : Unlinked s) (rule subject sev : Nat) (detail : List Nat) :
    Unlinked (loupe s rule subject sev detail) := by
  rw [Unlinked, (loupe_tells s rule subject sev detail).pair]
  exact down

theorem linkLost_follower_says (empty : s.host.cmds = []) (noRead : s.reads = []) (follower : pairRole s = 2) :
    Unlinked (linkLost s) ∧ (s.pair.hbIn = true → (linkLost s).pair.fenced = true) ∧
      (s.pair.hbIn = false → s.pair.hbAge ≤ 50 → (linkLost s).pair.waiting = true) ∧
      (s.pair.hbIn = false → 50 < s.pair.hbAge → (linkLost s).pair.fenced = true) := by
  have down := linkDown_unlinked noRead
  obtain ⟨-, -, -, hbIn, hbAge, cmds⟩ := linkDown_says s noRead
  have empty' : (linkDown s).host.cmds = [] := cmds.trans empty
  obtain ⟨fenced, -⟩ := fence_says (linkDown s) empty'
  rw [linkLost_follower follower, hbIn, hbAge]
  by_cases present : s.pair.hbIn = true
  · rw [if_pos present]
    exact ⟨fence_unlinked down empty', fun _ => fenced, by simp [present], by simp [present]⟩
  by_cases recent : s.pair.hbAge ≤ 50
  · rw [if_neg present, if_pos recent]
    obtain ⟨pair, -⟩ := setAna_says { linkDown s with pair.waiting := true } 15
    refine ⟨setAna_unlinked (s := { linkDown s with pair.waiting := true }) down 15, fun on => absurd on present,
      fun _ _ => ?_, fun _ old => absurd recent (Nat.not_le.2 old)⟩
    rw [pair]
  · rw [if_neg present, if_neg recent]
    refine ⟨loupe_unlinked (fence_unlinked down empty') 308 0x50 5 [], fun on => absurd on present,
      fun _ young => absurd young recent, fun _ _ => ?_⟩
    rw [(loupe_tells ..).pair]
    exact fenced

theorem linkLoss_follower (up : s.pair.linkUp = true) (tenMissed : 10 ≤ s.pair.missed) (empty : s.host.cmds = [])
    (noRead : s.reads = []) (follower : pairRole s = 2) : ∃ t, Does .linkLoss s t ∧
      t.pair.linkUp = false ∧ t.pair.session = false ∧ t.pair.unacked = [] ∧ (s.pair.hbIn = true → t.pair.fenced = true) ∧
      (s.pair.hbIn = false → s.pair.hbAge ≤ 50 → t.pair.waiting = true) ∧
      (s.pair.hbIn = false → 50 < s.pair.hbAge → t.pair.fenced = true) := by
  obtain ⟨⟨linkUp, session, unacked⟩, byHb⟩ := linkLost_follower_says empty noRead follower
  refine ⟨_, linkLoss_loses up tenMissed, ?_⟩
  rw [(loupe_tells ..).pair]
  exact ⟨linkUp, session, unacked, byHb⟩

/-! PAIR_HB_IN, promotion and the pair boot wait (R307 to R309, R316). -/

theorem promotionWait_promotes (waiting : s.pair.waiting = true) (absent : s.pair.hbIn = false) :
    Does .promotionWaitExpiry s (promote s) :=
  congrArg Host.Outcome.next (if_pos (by simp [waiting, absent]))

theorem promotionWait_leads (waiting : s.pair.waiting = true) (absent : s.pair.hbIn = false) (empty : s.host.cmds = [])
    (sealed : ∀ l ∈ s.adm.recs, l.sealed = true) : ∃ t, Does .promotionWaitExpiry s t ∧
      t.adm.nextAsn = s.adm.appliedHead + 1 ∧ t.pair.waiting = false ∧ t.pair.promoted = true ∧
      t.pair.wasLead = true ∧ t.zones = s.zones :=
  ⟨_, promotionWait_promotes waiting absent, promote_says s empty sealed⟩

theorem promotionWait_present (present : s.pair.hbIn = true) : Does .promotionWaitExpiry s s :=
  congrArg Host.Outcome.next (if_neg (by simp [present]))

theorem pairHbInAbsent_counts (present : s.pair.hbIn = true) :
    Does .pairHbInAbsent s (odBump { s with pair.hbIn := false, pair.hbAge := 0 } 0x5010 0x07) :=
  congrArg Host.Outcome.next (if_pos present)

/-- PAIR_HB_IN has been seen present; a device that waits for its pair at boot keeps that. -/
def hbInSeen (s : State) : State :=
  { s with pair.hbIn := true, pair.hbAge := 0, pair.hbInWait := s.pair.hbInWait || s.pair.bootWait }

theorem pairHbInPresent_seen (notWaiting : s.pair.waiting = false) : Does .pairHbInPresent s (hbInSeen s) :=
  congrArg Host.Outcome.next (if_neg (by simp [notWaiting]))

theorem pairHbInPresent_fences (waiting : s.pair.waiting = true) (empty : s.host.cmds = []) :
    ∃ t, Does .pairHbInPresent s t ∧ t.pair.hbIn = true ∧ t.pair.fenced = true ∧ t.pair.waiting = false ∧
      t.zones = s.zones := by
  obtain ⟨fenced, notWaiting, zones, hbIn, -⟩ := fence_says (hbInSeen s) empty
  exact ⟨_, congrArg Host.Outcome.next (if_pos waiting), hbIn, fenced, notWaiting, zones⟩

theorem pairBootWait_ends (waits : s.pair.bootWait = true) (notFenced : s.pair.fenced = false)
    (down : s.pair.linkUp = false) :
    Does .pairBootWaitExpiry s (if s.pair.hbInWait then fence s else aloneAsLead s) :=
  congrArg Host.Outcome.next (if_neg (by simp [waits, notFenced, down]))

end

/-! Acknowledgements, retrains, discarded frames and key updates of the Mirror link (R300, R303; log entry 130). -/

section
variable {s : State} {received seq : Nat}

/-- The frames up to a sequence are acknowledged. -/
def ackedTo (s : State) (received : Nat) : State :=
  { s with pair.unacked := s.pair.unacked.filter fun f => decide (received < f.seq) }

theorem linkAcknowledgement_down (down : s.pair.linkUp = false) : Does (.linkAcknowledgement 0 received seq) s s :=
  congrArg Host.Outcome.next ((if_pos rfl).trans (if_pos (by simp [down])))

section
variable (up : s.pair.linkUp = true) (noSanitize : s.host.sanitizeStatus ≠ 2)
include up noSanitize

theorem linkAcknowledgement_noneAsked (noFrame : ∀ f ∈ s.pair.unacked, received < f.seq → f.seq ≠ seq) :
    Does (.linkAcknowledgement 0 received seq) s
      { ackedTo s received with pair.resendAsked := if seq = 0 then none else s.pair.resendAsked } := by
  have noneFound : (s.pair.unacked.filter fun f => decide (received < f.seq)).find? (fun f => f.seq == seq) = none := by
    simpa [List.find?_eq_none] using noFrame
  refine congrArg Host.Outcome.next ((if_pos rfl).trans ((if_neg (by simp [up])).trans ?_))
  simp only [noSanitize, false_and, if_false, noneFound]
  rfl

theorem linkAcknowledgement_asked {f : Frame}
    (found : (s.pair.unacked.filter fun f => decide (received < f.seq)).find? (fun f => f.seq == seq) = some f) :
    Does (.linkAcknowledgement 0 received seq) s
      (if s.pair.resendAsked = some seq then
        odBump (odBump { ackedTo s received with pair.retraining := true, pair.resendAsked := none } 0x5010 0x03)
          0x4000 0x0E
       else odBump { ackedTo s received with pair.resendAsked := some seq, pair.out := s.pair.out ++ [f] } 0x5010 0x05) := by
  refine congrArg Host.Outcome.next ((if_pos rfl).trans ((if_neg (by simp [up])).trans ?_))
  simp only [noSanitize, false_and, if_false, found]
  rfl

end

theorem fastRetrainDone_resends (retrains : s.pair.retraining = true) : Does (.fastRetrainDone 0) s
    { s with pair.retraining := false, pair.out := s.pair.out ++ s.pair.unacked } :=
  congrArg Host.Outcome.next ((if_pos rfl).trans (if_pos retrains))

theorem fastRetrainTimeout_loses (retrains : s.pair.retraining = true) :
    Does (.fastRetrainTimeout 0) s (loupe (linkLost s) 225 0x50 5 [0]) :=
  congrArg Host.Outcome.next ((if_pos rfl).trans (if_pos retrains))

theorem fastRetrainTimeout_none (notRetraining : s.pair.retraining = false) : Does (.fastRetrainTimeout 0) s s :=
  congrArg Host.Outcome.next ((if_pos rfl).trans (if_neg (by simp [notRetraining])))

theorem frameCheckFailure_asksAgain (up : s.pair.linkUp = true) : Does (.frameCheckFailure 0 seq) s
    (let t := loupe (odBump s 0x4000 0x0D) 225 0x50 1 [0, seq]
     sendFrame t 0 0x03 [t.pair.rxSeq, seq]) :=
  congrArg Host.Outcome.next (if_neg (by simp [up]))

theorem keyUpdate_runs (session : s.pair.session = true) (lower : Config.serial < od s 0x5000 0x04)
    (due : s.pair.keyUpdates < Nat.max s.pair.txSeq s.pair.rxSeq / 2 ^ 32) :
    Does (.keyUpdate 0) s (sendFrame
      (useFree { s with pair.keyUpdates := s.pair.keyUpdates + 1, pair.secret := freeVal s }) 0 0x05 [0xE9]) :=
  congrArg Host.Outcome.next ((if_pos rfl).trans (if_pos ⟨session, lower, due⟩))

theorem keyUpdate_notDue (few : Nat.max s.pair.txSeq s.pair.rxSeq < 2 ^ 32) : Does (.keyUpdate 0) s s := by
  have noneDue : Nat.max s.pair.txSeq s.pair.rxSeq / 2 ^ 32 = 0 := Nat.div_eq_of_lt few
  exact congrArg Host.Outcome.next ((if_pos rfl).trans (if_neg fun due => absurd due.2.2 (by rw [noneDue]; omega)))

end

/-! Links that have trained (R295, R297, R302, R339, R421). -/

section
variable {s : State} {lanes serial position digest epoch : Nat} {lead pref nss : Bool} {peer : Peer}

theorem linkTrained_cascade {port : Nat} (ofCascade : port ≠ 0) :
    Does (.linkTrained port lanes serial position digest epoch lead pref nss peer) s
      (cascadeTrained s port lanes serial position) :=
  congrArg Host.Outcome.next (if_neg ofCascade)

theorem linkTrained_fewLanes (few : lanes < 4) :
    Does (.linkTrained 0 lanes serial position digest epoch lead pref nss peer) s s := by
  have nothing : mirrorTrained s lanes serial position digest epoch lead pref nss peer.paired peer.controllers = s :=
    if_pos (.inl few)
  refine congrArg Host.Outcome.next ((if_pos rfl).trans ?_)
  dsimp only
  rw [nothing]
  exact if_neg (by omega)

/-- A twin of the same placement revision trains without an event of R421. -/
theorem linkTrained_mirror (sameRevision : peer.revision = Config.placementRevision) :
    Does (.linkTrained 0 lanes serial position digest epoch lead pref nss peer) s
      (mirrorTrained s lanes serial position digest epoch lead pref nss peer.paired peer.controllers) :=
  congrArg Host.Outcome.next ((if_pos rfl).trans (if_neg fun other => other.2.2.2 sameRevision))

/-- The session of a Mirror link of 8 lanes is up, with fresh sequence numbers. -/
def linkOpened (s : State) : State :=
  let u := odSet s 0x5010 0x01 0 8
  { u with
    pair.linkUp := true, pair.session := true, pair.txSeq := 1, pair.rxSeq := 0, pair.unacked := [], pair.txq := []
    pair.resendAsked := none, pair.retraining := false, pair.missed := 0, pair.keyUpdates := 0
    pair.secret := freeVal u, pair.sessionId := freeVal (useFree u), free := u.free + 2
    ciph.sessions := addTo 4 s.ciph.sessions, pins.mirrorIdle := false }

theorem mirrorTrained_full {paired : Bool} {controllers : Nat} (full : 8 ≤ lanes) (may : mayAttach s = true)
    (sound : s.rst.logicFailed.testBit 29 = false) :
    mirrorTrained s lanes serial position digest epoch lead pref nss paired controllers =
      if position ≠ casPos s then loupe s 339 0x50 5 [position]
      else if digest ≠ od s 0x5000 0x05 then s
      else if s.pair.detached then linkOpened s
      else attach (linkOpened s) serial epoch lead pref nss paired controllers := by
  have goes : ¬(lanes < 4 ∨ (!mayAttach s) = true ∨ s.rst.logicFailed.testBit 29 = true) := by
    simp [may, sound]
    omega
  rw [mirrorTrained, if_neg goes]
  simp only [Nat.not_lt.2 full, if_false]
  rfl

end

/-- Settles O26: the periods, PAIR_HB_IN, the retransmission and the training, each by its lemmas. -/
theorem mirrorLinkHealth : Obligations.MirrorLinkHealth := by
  unfold Obligations.MirrorLinkHealth
  refine ⟨fun s => ⟨keepaliveSend_noLink, keepaliveSend_inSession, linkLoss_loses, linkLoss_follower, linkLoss_none,
      promotionWait_promotes, promotionWait_leads, promotionWait_present, pairHbInAbsent_counts, pairHbInPresent_seen,
      pairHbInPresent_fences, fun waits notFenced down => ?_⟩,
    fun s received seq => ⟨linkAcknowledgement_down, fun up noSanitize =>
        ⟨linkAcknowledgement_noneAsked up noSanitize, fun f found => ?_⟩,
      fastRetrainDone_resends, fastRetrainTimeout_loses, fastRetrainTimeout_none, frameCheckFailure_asksAgain,
      keyUpdate_runs, keyUpdate_notDue⟩,
    fun s port lanes serial position digest epoch ctl rev lead pref nss paired =>
      ⟨linkTrained_fewLanes, fun full may sound sameRevision => ?_, linkTrained_cascade⟩⟩
  · have ends := pairBootWait_ends waits notFenced down
    refine ⟨fun seen => ?_, fun unseen => ⟨?_, aloneAsLead_says s⟩⟩
    · rwa [if_pos seen] at ends
    · rwa [if_neg (by simp [unseen])] at ends
  · have asked := linkAcknowledgement_asked up noSanitize found
    exact ⟨fun first => by rwa [if_neg first] at asked, fun again => by rwa [if_pos again] at asked⟩
  · have trains : Does (.linkTrained 0 lanes serial position digest epoch lead pref nss ⟨paired, ctl, rev⟩) s _ :=
      linkTrained_mirror sameRevision
    rw [mirrorTrained_full full may sound] at trains
    refine ⟨fun other => ?_, fun same differs => ?_, fun same agrees => ⟨fun detached => ?_, fun attached => ?_⟩⟩
    · rwa [if_pos other] at trains
    · rwa [if_neg (not_not.2 same), if_pos differs] at trains
    · rwa [if_neg (not_not.2 same), if_neg (not_not.2 agrees), if_pos detached] at trains
    · rwa [if_neg (not_not.2 same), if_neg (not_not.2 agrees), if_neg (by simp [attached])] at trains

end Sys2Proof.Machine

namespace Sys2Proof.Machine

open Sys2Proof

/-! A pass over the functions that writes each of them once (R345, R349). -/

/-- Only the functions differ, and they stand in canonical form. -/
def FnsDiffer (s t : State) : Prop := ∃ fns, kvWf {} fns ∧ t = { s with host.fns := fns }

section
variable {s t : State}

theorem FnsDiffer.wf (differ : FnsDiffer s t) : kvWf {} t.host.fns := by
  obtain ⟨_, wf, rfl⟩ := differ
  exact wf

theorem FnsDiffer.setFn (differ : FnsDiffer s t) (n : Nat) (v : Fn) : FnsDiffer s (setFn t n v) := by
  obtain ⟨fns, wf, rfl⟩ := differ
  exact ⟨_, kvWf_put {} n v fns wf, rfl⟩

theorem FnsDiffer.od (differ : FnsDiffer s t) (obj elem inst : Nat) : od t obj elem inst = od s obj elem inst := by
  obtain ⟨_, _, rfl⟩ := differ
  rfl

theorem FnsDiffer.keepsStores (differ : FnsDiffer s t) : KeepsStores s t := by
  obtain ⟨_, _, rfl⟩ := differ
  exact ⟨rfl, rfl, rfl⟩

theorem FnsDiffer.numVfs (differ : FnsDiffer s t) : t.host.numVfs = s.host.numVfs := by
  obtain ⟨_, _, rfl⟩ := differ
  rfl

theorem fnc_setFn_other {n i : Nat} (other : i ≠ n) (v : Fn) (wf : kvWf {} s.host.fns) :
    fnc (setFn s n v) i = fnc s i := kvGet_put_other _ _ _ _ _ wf other

/-- In t function n alone has been changed, to v. -/
def FnBecomes (s t : State) (n : Nat) (v : Fn) : Prop :=
  FnsDiffer s t ∧ fnc t n = v ∧ ∀ i, i ≠ n → fnc t i = fnc s i

theorem setFn_fnBecomes (wf : kvWf {} s.host.fns) (n : Nat) (v : Fn) : FnBecomes s (setFn s n v) n v :=
  ⟨FnsDiffer.setFn ⟨_, wf, rfl⟩ n v, fnc_setFn v wf, fun _ other => fnc_setFn_other other v wf⟩

theorem FnsDiffer.trans {u : State} (first : FnsDiffer s t) (next : FnsDiffer t u) : FnsDiffer s u := by
  obtain ⟨_, _, rfl⟩ := first
  obtain ⟨fns, wf, rfl⟩ := next
  exact ⟨fns, wf, rfl⟩

/-- A pass over m functions from first on, each of whose turns changes its own function as `new` says of the state and
function that the turn finds. -/
theorem foldl_fnBecomes {turn : State → Nat → State} {new : Nat → Fn} {first : Nat} (wf : kvWf {} s.host.fns)
    (each : ∀ t i, FnsDiffer s t → fnc t (i + first) = fnc s (i + first) →
      FnBecomes t (turn t i) (i + first) (new (i + first))) (m : Nat) :
    let t := (List.range m).foldl turn s
    FnsDiffer s t ∧ (∀ j, first ≤ j → j < m + first → fnc t j = new j) ∧
      ∀ j, j < first ∨ m + first ≤ j → fnc t j = fnc s j := by
  induction m with
  | zero => exact ⟨⟨_, wf, rfl⟩, fun j low high => by omega, fun _ _ => rfl⟩
  | succ m ih =>
    obtain ⟨differ, done, ahead⟩ := ih
    obtain ⟨turned, own, others⟩ := each _ m differ (ahead _ (.inr (Nat.le_refl _)))
    rw [List.range_succ, List.foldl_append]
    refine ⟨differ.trans turned, fun j low high => ?_, fun j outside => ?_⟩
    · obtain rfl | other := eq_or_ne j (m + first)
      · exact own
      · exact (others j other).trans (done j low (by omega))
    · exact (others j (by omega)).trans (ahead j (by omega))

end

end Sys2Proof.Machine

namespace Sys2Proof.Machine

open Sys2Proof

/-! What is left of the functions when the eligibility of their slots is looked at again (R349, R350). -/

def Slot.command (sl : Slot) : IoOp × IoCmd := (sl.op, sl.io)

/-- Of a function only the tags and marks of its slots differ. -/
def Retagged (f g : Fn) : Prop := ∃ rd wr, g = { f with rd := rd, wr := wr } ∧
  rd.map Slot.command = f.rd.map Slot.command ∧ wr.map Slot.command = f.wr.map Slot.command

section
variable {f g : Fn}

theorem Retagged.refl (f : Fn) : Retagged f f := ⟨_, _, rfl, rfl, rfl⟩

theorem Retagged.trans {h : Fn} (first : Retagged f g) (next : Retagged g h) : Retagged f h := by
  obtain ⟨_, _, rfl, rd, wr⟩ := first
  obtain ⟨_, _, rfl, rd', wr'⟩ := next
  exact ⟨_, _, rfl, rd'.trans rd, wr'.trans wr⟩

theorem Retagged.tokens (same : Retagged f g) : g.rdTok = f.rdTok ∧ g.wrTok = f.wrTok := by
  obtain ⟨_, _, rfl, _⟩ := same
  exact ⟨rfl, rfl⟩

theorem Retagged.queues (same : Retagged f g) : g.sqPtr = f.sqPtr ∧ g.waiting = f.waiting := by
  obtain ⟨_, _, rfl, _⟩ := same
  exact ⟨rfl, rfl⟩

theorem exists_slot_of_command {slot : Option Slot} {sl : Slot} (same : slot.map Slot.command = some sl.command) :
    ∃ x, slot = some x ∧ x.op = sl.op ∧ x.io = sl.io := by
  obtain ⟨x, found, command⟩ := Option.map_eq_some_iff.1 same
  obtain ⟨op, io⟩ := Prod.mk.inj command
  exact ⟨x, found, op, io⟩

theorem Retagged.rd {sl : Slot} (same : Retagged f g) (held : f.rd = some sl) :
    ∃ x, g.rd = some x ∧ x.op = sl.op ∧ x.io = sl.io := by
  obtain ⟨_, _, rfl, rd, _⟩ := same
  exact exists_slot_of_command (by rw [rd, held]; rfl)

theorem Retagged.wr {sl : Slot} (same : Retagged f g) (held : f.wr = some sl) :
    ∃ x, g.wr = some x ∧ x.op = sl.op ∧ x.io = sl.io := by
  obtain ⟨_, _, rfl, _, wr⟩ := same
  exact exists_slot_of_command (by rw [wr, held]; rfl)

end

section
variable {s t u : State}

/-- Between two states only tags and marks of slots differ, of what is stored and of the functions. -/
def RetagsOnly (s t : State) : Prop :=
  kvWf {} t.host.fns ∧ KeepsStores s t ∧ t.host.fetchOrder = s.host.fetchOrder ∧ ∀ i, Retagged (fnc s i) (fnc t i)

theorem RetagsOnly.trans (first : RetagsOnly s t) (next : RetagsOnly t u) : RetagsOnly s u := by
  obtain ⟨_, stores, order, fns⟩ := first
  obtain ⟨wf, stores', order', fns'⟩ := next
  exact ⟨wf, stores.trans stores', order'.trans order, fun i => (fns i).trans (fns' i)⟩

theorem setFn_retagsOnly {n : Nat} {v : Fn} (wf : kvWf {} s.host.fns) (own : Retagged (fnc s n) v) :
    RetagsOnly s (setFn s n v) := by
  refine ⟨kvWf_put _ _ _ _ wf, ⟨rfl, rfl, rfl⟩, rfl, fun i => ?_⟩
  obtain rfl | other := eq_or_ne i n
  · rwa [fnc_setFn v wf]
  · rw [fnc_setFn_other other v wf]
    exact .refl _

theorem retagSlot_command (s : State) (n : Nat) (wr : Bool) (f : Fn) (sl : Slot) :
    (retagSlot s n wr f sl).command = sl.command := by
  unfold retagSlot
  split
  · split <;> rfl
  · rfl

/-- A function whose slots are looked at again, where its read slot is held back or not by its own limits (R355). -/
def retaggedFn (s : State) (n : Nat) (held : Bool) : Fn :=
  { fnc s n with
    rd := (fnc s n).rd.map fun sl => { retagSlot s n false (fnc s n) sl with waited := sl.waited || held }
    wr := (fnc s n).wr.map (retagSlot s n true (fnc s n)) }

theorem retaggedFn_retagged (s : State) (n : Nat) (held : Bool) : Retagged (fnc s n) (retaggedFn s n held) := by
  have rd (sl : Slot) : Slot.command { retagSlot s n false (fnc s n) sl with waited := sl.waited || held } = sl.command :=
    retagSlot_command s n false (fnc s n) sl
  refine ⟨_, _, rfl, ?_, ?_⟩
  · simp [Function.comp_def, rd]
  · simp [Function.comp_def, retagSlot_command]

theorem retagFn_eq (s : State) (n : Nat) : ∃ held : Bool, retagFn s n =
    if held then odBump (setFn s n (retaggedFn s n held)) 0x6220 0x02 n else setFn s n (retaggedFn s n held) := ⟨_, rfl⟩

theorem retagFn_retagsOnly (wf : kvWf {} s.host.fns) (n : Nat) : RetagsOnly s (retagFn s n) := by
  obtain ⟨held, eq⟩ := retagFn_eq s n
  have set := setFn_retagsOnly wf (retaggedFn_retagged s n held)
  rw [eq]
  split <;> exact set

theorem retagFn_setFn (wf : kvWf {} s.host.fns) (n : Nat) (v : Fn) :
    Retagged v (fnc (retagFn (setFn s n v) n) n) ∧
      (retagFn (setFn s n v) n).host.fetchOrder = s.host.fetchOrder := by
  obtain ⟨_, _, order, fns⟩ := retagFn_retagsOnly (s := setFn s n v) (kvWf_put _ _ _ _ wf) n
  have own := fns n
  rw [fnc_setFn v wf] at own
  exact ⟨own, order⟩

theorem foldl_retagFn_retagsOnly (wf : kvWf {} s.host.fns) (l : List Nat) : RetagsOnly s (l.foldl retagFn s) := by
  induction l generalizing s with
  | nil => exact ⟨wf, ⟨rfl, rfl, rfl⟩, rfl, fun _ => .refl _⟩
  | cons n l ih =>
    have turned := retagFn_retagsOnly wf n
    exact turned.trans (ih turned.1)

theorem retag_retagsOnly (wf : kvWf {} s.host.fns) : RetagsOnly s (retag s) := foldl_retagFn_retagsOnly wf _

end

/-! Doorbells and fetched entries (R347). -/

section
variable {s : State}

theorem doorbell_rings {fn sq entries : Nat} (wf : kvWf {} s.host.fns) (readyWf : kvWf 0 (fnc s fn).ready)
    (taken : accepts s fn = true) : ∃ t, Does (.submissionQueueDoorbell fn ⟨sq, entries⟩) s t ∧
      (fnc t fn).waiting sq = (fnc s fn).waiting sq + entries ∧ t.host.cmds = s.host.cmds ∧ t.zones = s.zones := by
  refine ⟨_, congrArg Host.Outcome.next (if_pos taken), ?_, rfl, rfl⟩
  calc (fnc (setFn s fn { fnc s fn with
          ready := kvPut 0 sq ((fnc s fn).waiting sq + entries) (fnc s fn).ready }) fn).waiting sq
      = kvGet 0 sq (kvPut 0 sq ((fnc s fn).waiting sq + entries) (fnc s fn).ready) := by rw [fnc_setFn _ wf]; rfl
    _ = (fnc s fn).waiting sq + entries := kvGet_put_self _ _ _ _ readyWf

/-- A function whose queue has had its head entry fetched. -/
def queueTurned (f : Fn) (sq : Nat) : Fn :=
  { f with sqPtr := sq + 1, ready := kvPut 0 sq (f.waiting sq - 1) f.ready }

/-- The slot that a fetched entry makes. -/
def fetchedSlot (s : State) (op : IoOp) (c : IoCmd) : Slot :=
  { op := op, io := c, gen := curGen s c.fn, order := s.host.fetchOrder }

/-- The state once function n is v after a fetch, and its slots have been looked at again. -/
def fetched (s : State) (n : Nat) (v : Fn) : State :=
  retagFn (setFn { s with host.fetchOrder := s.host.fetchOrder + 1 } n v) n

section
variable {op : IoOp} {c : IoCmd} (fetching : fetches s c.fn = true) (turn : fetchTurn (fnc s c.fn) c.sq = true)
include fetching turn

theorem entryFetched_write (write : writeSlot op = true) (free : (fnc s c.fn).wr = none) :
    Does (.submissionEntryFetched op c) s
      (fetched s c.fn { queueTurned (fnc s c.fn) c.sq with wr := some (fetchedSlot s op c) }) := by
  show execSubmissionEntryFetched op c s = _
  simp only [execSubmissionEntryFetched, fetching, turn, write, free]
  rfl

theorem entryFetched_read (read : writeSlot op = false) (free : (fnc s c.fn).rd = none) :
    Does (.submissionEntryFetched op c) s
      (fetched s c.fn { queueTurned (fnc s c.fn) c.sq with rd := some (fetchedSlot s op c) }) := by
  show execSubmissionEntryFetched op c s = _
  simp only [execSubmissionEntryFetched, fetching, turn, read, free]
  rfl

end

theorem fetched_says (wf : kvWf {} s.host.fns) (n : Nat) (v : Fn) :
    Retagged v (fnc (fetched s n v) n) ∧ (fetched s n v).host.fetchOrder = s.host.fetchOrder + 1 :=
  retagFn_setFn (s := { s with host.fetchOrder := s.host.fetchOrder + 1 }) wf n v

theorem queueTurned_waiting {f : Fn} (sq : Nat) (wf : kvWf 0 f.ready) :
    kvGet 0 sq (queueTurned f sq).ready = f.waiting sq - 1 := kvGet_put_self _ _ _ _ wf

end

/-- Settles O6: the doorbell's event, and the fetch into the write slot and into the read slot. -/
theorem submissionFillsSlots : Obligations.SubmissionFillsSlots := by
  unfold Obligations.SubmissionFillsSlots
  intro s fn sq entries op c wf readyWf
  refine ⟨doorbell_rings wf readyWf, fun fetching turn entriesWf => ⟨fun write free => ?_, fun read free => ?_⟩⟩
  · obtain ⟨same, order⟩ := fetched_says wf c.fn
      { queueTurned (fnc s c.fn) c.sq with wr := some (fetchedSlot s op c) }
    obtain ⟨sl, found, isOp, isCmd⟩ := same.wr rfl
    obtain ⟨ptr, waiting⟩ := same.queues
    exact ⟨_, sl, entryFetched_write fetching turn write free, found, isOp, isCmd, ptr,
      (congrFun waiting c.sq).trans (queueTurned_waiting c.sq entriesWf), order⟩
  · obtain ⟨same, order⟩ := fetched_says wf c.fn
      { queueTurned (fnc s c.fn) c.sq with rd := some (fetchedSlot s op c) }
    obtain ⟨sl, found, isOp, isCmd⟩ := same.rd rfl
    obtain ⟨ptr, waiting⟩ := same.queues
    exact ⟨_, sl, entryFetched_read fetching turn read free, found, isOp, isCmd, ptr,
      (congrFun waiting c.sq).trans (queueTurned_waiting c.sq entriesWf), order⟩

/-! The refill of the token buckets (R349; log entry 43). -/

section
variable {s : State}

/-- A function's buckets after a microsecond. -/
def refilled (s : State) (n : Nat) : Fn :=
  { fnc s n with rdTok := refill (od s 0x6200 0x01 n) (od s 0x6200 0x02 n) (fnc s n).rdTok
                 wrTok := refill (od s 0x6200 0x03 n) (od s 0x6200 0x04 n) (fnc s n).wrTok }

def refillFn (s : State) (n : Nat) : State := setFn s n (refilled s n)

theorem foldl_refillFn (wf : kvWf {} s.host.fns) (m : Nat) :
    let t := (List.range m).foldl refillFn s
    FnsDiffer s t ∧ ∀ n < m, fnc t n = refilled s n := by
  have each (t : State) (n : Nat) (differ : FnsDiffer s t) (found : fnc t n = fnc s n) :
      FnBecomes t (refillFn t n) n (refilled s n) := by
    have same : refilled t n = refilled s n := by simp only [refilled, found, differ.od]
    rw [refillFn, same]
    exact setFn_fnBecomes differ.wf _ _
  obtain ⟨differ, done, _⟩ := foldl_fnBecomes (first := 0) wf each m
  exact ⟨differ, fun n below => done n (Nat.zero_le n) below⟩

theorem tokenRefill_refills (wf : kvWf {} s.host.fns) : ∃ t, Does .tokenRefill s t ∧ KeepsStores s t ∧
    ∀ n < 513, Retagged (refilled s n) (fnc t n) := by
  obtain ⟨differ, done⟩ := foldl_refillFn wf 513
  obtain ⟨_, stores, _, fns⟩ := retag_retagsOnly differ.wf
  exact ⟨_, rfl, differ.keepsStores.trans stores, fun n below => done n below ▸ fns n⟩

end

/-- Settles O7: each function is refilled once, and looking at the slots again leaves the buckets. -/
theorem tokensAreRefilled : Obligations.TokensAreRefilled := by
  unfold Obligations.TokensAreRefilled
  intro s wf
  obtain ⟨t, does, ⟨zones, dies, dram⟩, fns⟩ := tokenRefill_refills wf
  exact ⟨t, does, zones, dies, dram, fun n below => (fns n below).tokens⟩

/-! The lens arbiter (R350). -/

section
variable {s : State} {n : Nat} {sl : Slot} {wr : Bool}

/-- What the functions offer, each with its function. -/
def offers (s : State) : List (Nat × Slot × Bool) :=
  s.host.fns.filterMap fun e => (offered e.2).map fun o => (e.1, o)

def offerTag (o : Nat × Slot × Bool) : Nat := o.2.1.tag.getD 0

theorem mem_offers {o : Nat × Slot × Bool} : o ∈ offers s ↔ ∃ e ∈ s.host.fns, offered e.2 = some o.2 ∧ e.1 = o.1 := by
  simp only [offers, List.mem_filterMap, Option.map_eq_some_iff]
  refine exists_congr fun e => and_congr_right fun _ => ⟨?_, fun ⟨found, same⟩ => ⟨o.2, found, by rw [same]⟩⟩
  rintro ⟨_, found, rfl⟩
  exact ⟨found, rfl⟩

/-- The first function n of a list offers a slot: the first offer of n is that slot. -/
theorem find_offer {l : Kv Fn} {o : Slot × Bool}
    (found : (l.find? fun e => e.1 == n).map (fun e => offered e.2) = some (some o)) :
    (l.filterMap fun e => (offered e.2).map fun o => (e.1, o)).find? (fun o => o.1 == n) = some (n, o) := by
  induction l with
  | nil => cases found
  | cons e l ih =>
    by_cases own : e.1 = n
    · rw [List.find?_cons_of_pos (by simpa using own)] at found
      have offer : offered e.2 = some o := by simpa using found
      simp [offer, own]
    · rw [List.find?_cons_of_neg (by simpa using own)] at found
      have rest := ih found
      cases offer : offered e.2 with
      | none => simpa [offer] using rest
      | some x => simpa [offer, own] using rest

variable (least : ∀ e ∈ s.host.fns, ∀ o, offered e.2 = some o → sl.tag.getD 0 ≤ o.1.tag.getD 0)
  (found : (s.host.fns.find? fun e => e.1 == n).map (fun e => offered e.2) = some (some (sl, wr)))
  (alone : ∀ e ∈ s.host.fns, ∀ o, e.1 ≠ n → offered e.2 = some o → sl.tag.getD 0 < o.1.tag.getD 0)

include found in
theorem offer_mem : (n, sl, wr) ∈ offers s := List.mem_of_find?_eq_some (find_offer found)

include least found in
theorem offers_minTag : ((offers s).map offerTag).min? = some (sl.tag.getD 0) := by
  refine List.min?_eq_some_iff.2 ⟨List.mem_map.2 ⟨_, offer_mem found, rfl⟩, fun tag listed => ?_⟩
  obtain ⟨o, here, rfl⟩ := List.mem_map.1 listed
  obtain ⟨e, ofFn, offer, _⟩ := mem_offers.1 here
  exact least e ofFn _ offer

include found alone in
theorem offers_pick (ptr : Nat) :
    rotPick ptr (((offers s).filter fun o => offerTag o == sl.tag.getD 0).map (·.1)) = some n := by
  have own : (n, sl, wr) ∈ (offers s).filter fun o => offerTag o == sl.tag.getD 0 :=
    List.mem_filter.2 ⟨offer_mem found, by simp [offerTag]⟩
  refine rotPick_only _ _ _ (List.mem_map.2 ⟨_, own, rfl⟩) fun x listed => ?_
  obtain ⟨o, smallest, rfl⟩ := List.mem_map.1 listed
  obtain ⟨here, tag⟩ := List.mem_filter.1 smallest
  obtain ⟨e, ofFn, offer, same⟩ := mem_offers.1 here
  by_contra other
  exact absurd (alone e ofFn _ (same ▸ other) offer) (eq_of_beq tag).not_gt

end

/-- Settles O8: the tag is the least of the offers, the rotation has this one function to pick, and its offer is found. -/
theorem smallestTagIsGranted : Obligations.SmallestTagIsGranted := by
  unfold Obligations.SmallestTagIsGranted
  intro s n sl wr least found alone
  have offer : (offers (retag s)).find? (fun o => o.1 == n) = some (n, sl, wr) := find_offer found
  have tag := offers_minTag least found
  have pick := offers_pick found alone (retag s).host.rrPtr
  unfold offers at offer tag pick
  unfold offerTag at tag pick
  show execLensSubmissionGrant s = _
  simp only [execLensSubmissionGrant, tag, pick, offer]

end Sys2Proof.Machine

namespace Sys2Proof.Machine

open Sys2Proof

/-! VF Enable and VF Disable (R342, R345). -/

section
variable {s : State} {n lens : Nat}

/-- A function once VF Enable covers it. -/
def vfEnabled (f : Fn) : Fn := if f.lens = .disabled then { f with lens := .offline } else f

theorem vfEnabled_disabled {f : Fn} (disabled : f.lens = .disabled) : (vfEnabled f).lens = .offline := by
  rw [vfEnabled, if_pos disabled]

theorem vfEnabled_other {f : Fn} (other : f.lens ≠ .disabled) : vfEnabled f = f := if_neg other

/-- The turn of lens i + 1 in VF Enable. -/
def vfEnableTurn (t : State) (i : Nat) : State :=
  if (fnc t (i + 1)).lens = .disabled then setFn t (i + 1) { fnc t (i + 1) with lens := .offline } else t

theorem vfEnableTurn_fnBecomes {t : State} (wf : kvWf {} t.host.fns) (i : Nat) :
    FnBecomes t (vfEnableTurn t i) (i + 1) (vfEnabled (fnc t (i + 1))) := by
  unfold vfEnableTurn vfEnabled
  split
  · exact setFn_fnBecomes wf _ _
  · exact ⟨⟨_, wf, rfl⟩, rfl, fun _ _ => rfl⟩

theorem vfEnable_covers (wf : kvWf {} s.host.fns) (n : Nat) : ∃ t, Does (.vfEnable n) s t ∧
    t.host.numVfs = Nat.max n s.host.numVfs ∧ t.zones = s.zones ∧
    (∀ i, 1 ≤ i → i ≤ n → fnc t i = vfEnabled (fnc s i)) ∧ ∀ i, i = 0 ∨ n < i → fnc t i = fnc s i := by
  obtain ⟨differ, covered, others⟩ := foldl_fnBecomes (s := { s with host.numVfs := Nat.max n s.host.numVfs })
    (turn := vfEnableTurn) (new := fun i => vfEnabled (fnc s i)) (first := 1) wf
    (fun t i differ found => congrArg vfEnabled found ▸ vfEnableTurn_fnBecomes differ.wf i) n
  exact ⟨_, rfl, differ.numVfs, differ.keepsStores.1, fun i low high => covered i low (by omega),
    fun i outside => others i (by omega)⟩

/-- The lenses that VF Disable takes to Disabled. -/
def lensesAbove (s : State) (n : Nat) : List Nat :=
  (s.host.fns.map (·.1)).filter fun m => decide (n < m) && (fnc s m).lens != .disabled

theorem lensesAbove_none (wf : kvWf {} s.host.fns) (gone : ∀ e ∈ s.host.fns, e.1 ≤ n ∨ e.2.lens = .disabled) :
    lensesAbove s n = [] := by
  refine List.filter_eq_nil_iff.2 fun m listed => ?_
  obtain ⟨e, here, rfl⟩ := List.mem_map.1 listed
  have own : fnc s e.1 = e.2 := kvGet_of_mem _ _ wf e here
  obtain below | disabled := gone e here
  · simp [Nat.not_lt.2 below]
  · simp [own, disabled]

theorem vfDisable_none (noLens : lensesAbove s n = []) :
    Does (.vfDisable n) s { s with host.numVfs := Nat.min n s.host.numVfs } := by
  show execVfDisable n s = _
  unfold lensesAbove at noLens
  rw [execVfDisable, noLens]
  rfl

theorem vfDisable_one (one : lensesAbove s n = [lens]) :
    let u := lensTo { s with host.numVfs := Nat.min n s.host.numVfs } lens .disabled
    Does (.vfDisable n) s (resetCloseFree (setFn { u with
      host.freeVq := u.host.freeVq + (fnc u lens).vq, host.freeVi := u.host.freeVi + (fnc u lens).vi } lens
      { fnc u lens with vq := 0, vi := 0, tdisp := .unlocked }) lens) := by
  intro u
  show execVfDisable n s = _
  unfold lensesAbove at one
  rw [execVfDisable, one]
  simp only [List.foldl_cons, List.foldl_nil]
  rfl

end

/-! Virtualization Management of a lens that is not locked (R342, R343, R345, R353, R354). -/

section
variable {s : State} {a : Adm} {lens : Nat} (served : AdminServed s a) (notLocked : tdLocked (fnc s lens) = false)
include served notLocked

theorem virtualizationOnline_probation (offline : (fnc s lens).lens = .offline) (queues : (fnc s lens).vq ≠ 0)
    (vectors : (fnc s lens).vi ≠ 0) (fits : od s 0x6210 0x02 lens ≠ 0 ∨ lensContractOk s lens = true) :
    Does (.virtualizationOnline a lens) s (adminDone
      (setFn (increment s lens) lens { fnc (increment s lens) lens with lens := .probation }) a 0) := by
  have ready : ¬((fnc s lens).lens ≠ .offline ∨ (fnc s lens).vq = 0 ∨ (fnc s lens).vi = 0) := by
    simp [offline, queues, vectors]
  have mayGo : ¬(od s 0x6210 0x02 lens = 0 ∧ (!lensContractOk s lens) = true) := by
    simpa [imp_iff_not_or] using fits
  show execVirtualizationOnline a lens s = _
  simp only [execVirtualizationOnline, withAdmin_served served, notLocked, if_neg ready, if_neg mayGo]
  rfl

theorem virtualizationOnline_refused (notOffline : (fnc s lens).lens ≠ .offline) :
    Does (.virtualizationOnline a lens) s (adminDone s a stCtrlState) := by
  show execVirtualizationOnline a lens s = _
  simp [execVirtualizationOnline, withAdmin_served served, notLocked, notOffline]

theorem virtualizationOffline_working (working : (fnc s lens).lens = .online ∨ (fnc s lens).lens = .probation) :
    Does (.virtualizationOffline a lens) s (adminDone (resetCloseFree (lensTo s lens .offline) lens) a 0) := by
  show execVirtualizationOffline a lens s = _
  obtain online | probation := working
  · simp [execVirtualizationOffline, withAdmin_served served, notLocked, online, stOk]
  · simp [execVirtualizationOffline, withAdmin_served served, notLocked, probation, stOk]

theorem virtualizationOffline_disabled (disabled : (fnc s lens).lens = .disabled) :
    Does (.virtualizationOffline a lens) s (adminDone s a stCtrlState) := by
  show execVirtualizationOffline a lens s = _
  simp [execVirtualizationOffline, withAdmin_served served, notLocked, disabled]

theorem virtualizationAssign_assigns {vq vi : Nat} (offline : (fnc s lens).lens = .offline) (queues : vq ≤ 256)
    (vectors : vi ≤ 257) (queuesFree : vq ≤ s.host.freeVq + (fnc s lens).vq)
    (vectorsFree : vi ≤ s.host.freeVi + (fnc s lens).vi) :
    Does (.virtualizationAssign a lens vq vi) s (adminDone (setFn { s with
      host.freeVq := s.host.freeVq + (fnc s lens).vq - vq, host.freeVi := s.host.freeVi + (fnc s lens).vi - vi } lens
      { fnc s lens with vq := vq, vi := vi }) a 0) := by
  have fits : ¬(256 < vq ∨ 257 < vi ∨ s.host.freeVq + (fnc s lens).vq < vq ∨ s.host.freeVi + (fnc s lens).vi < vi) := by
    omega
  show execVirtualizationAssign a lens vq vi s = _
  simp only [execVirtualizationAssign, withAdmin_served served, notLocked, offline, if_neg fits, stOk]
  rfl

end

/-! The end of probation, for a lens whose old work is gone (R345, R346). -/

section
variable {s : State} {lens : Nat} (probation : (fnc s lens).lens = .probation) (settled : (fnc s lens).genWait = none)
  (noCmd : ∀ k ∈ s.host.cmds, k.origin = 0 → k.io.fn ≠ lens) (noGrant : ∀ g ∈ s.host.granted, g.io.fn ≠ lens)

include noCmd noGrant in
theorem noOldWork : ((s.host.cmds.any fun k => k.io.fn == lens && k.origin == 0) ||
    s.host.granted.any fun g => g.io.fn == lens) = false := by
  simp only [Bool.or_eq_false_iff, List.any_eq_false, Bool.and_eq_true, beq_iff_eq, not_and]
  exact ⟨fun k here ofLens host => noCmd k here host ofLens, noGrant⟩

include probation settled noCmd noGrant

theorem probationChecksPass_online (pass : probationCheck s lens 0 = 0) :
    Does (.probationChecksPass lens 0 []) s (setFn s lens { fnc s lens with lens := .online }) := by
  show execProbationChecksPass lens 0 [] s = _
  simp [execProbationChecksPass, probation, settled, noOldWork noCmd noGrant, pass]

theorem probationChecksPass_failed {c : Nat} (failed : c ≠ 0) (notCipher : c ≠ 2) :
    Does (.probationChecksPass lens c []) s
      (loupe (setFn s lens { fnc s lens with lens := .offline, failedCheck := c }) 345 0x61 5 [lens, c]) := by
  have named : probationCheck s lens c = c := if_pos failed
  show execProbationChecksPass lens c [] s = _
  simp [execProbationChecksPass, probation, settled, noOldWork noCmd noGrant, named, notCipher]

end

/-- Settles O31: each change of a lens's state, by the lemma about its command. -/
theorem lensLifeCycle : Obligations.LensLifeCycle := by
  unfold Obligations.LensLifeCycle
  intro s n lens a wf
  refine ⟨?_, fun gone => vfDisable_none (lensesAbove_none wf gone), vfDisable_one, fun served notLocked =>
      ⟨virtualizationOnline_probation served notLocked, virtualizationOffline_working served notLocked,
        fun disabled => ⟨virtualizationOnline_refused served notLocked (by simp [disabled]),
          virtualizationOffline_disabled served notLocked disabled⟩,
        fun _ _ => virtualizationAssign_assigns served notLocked⟩,
    fun probation settled noCmd noGrant => ⟨probationChecksPass_online probation settled noCmd noGrant,
      fun _ => probationChecksPass_failed probation settled noCmd noGrant⟩⟩
  obtain ⟨t, does, numVfs, zones, covered, others⟩ := vfEnable_covers wf n
  refine ⟨t, does, numVfs, zones, fun i low high disabled => ?_, fun i kept => ?_⟩
  · rw [covered i low high, vfEnabled_disabled disabled]
  · by_cases outside : i = 0 ∨ n < i
    · exact others i outside
    · have other := (or_assoc.2 kept).resolve_left outside
      rw [covered i (by omega) (by omega), vfEnabled_other other]

end Sys2Proof.Machine

namespace Sys2Proof.Machine

open Sys2Proof

/-! Function level resets and CC.EN (R345, R359, R360, R606). -/

section
variable {s : State} {fn : Nat}

theorem flr_physical (s : State) (twin : Bool) :
    Does (.flr ⟨0, twin⟩) s (resetClose (clearCtrl (endWork s 0) 0) 0 twin) := rfl

theorem flr_locked (twin : Bool) (ofLens : fn ≠ 0) (locked : tdLocked (fnc s fn) = true) :
    Does (.flr ⟨fn, twin⟩) s (resetClose (toError s fn) fn twin) := by
  show execFlr ⟨fn, twin⟩ s = _
  simp [execFlr, ofLens, locked]

theorem flr_online (twin : Bool) (ofLens : fn ≠ 0) (online : (fnc s fn).lens = .online)
    (notLocked : tdLocked (fnc s fn) = false) :
    Does (.flr ⟨fn, twin⟩) s (resetClose (lensTo s fn .probation) fn twin) := by
  show execFlr ⟨fn, twin⟩ s = _
  simp [execFlr, ofLens, notLocked, online]

theorem ccEnClear_clear (twin : Bool) (clear : (fnc s fn).en = false) : Does (.ccEnClear ⟨fn, twin⟩) s s := by
  show execCcEnClear ⟨fn, twin⟩ s = _
  simp [execCcEnClear, clear]

theorem ccEnClear_physical (twin : Bool) (enabled : (fnc s 0).en = true) :
    Does (.ccEnClear ⟨0, twin⟩) s (resetClose (clearCtrl (endWork s 0) 0) 0 twin) := by
  show execCcEnClear ⟨0, twin⟩ s = _
  simp [execCcEnClear, enabled]

theorem ccEnClear_online (twin : Bool) (ofLens : fn ≠ 0) (enabled : (fnc s fn).en = true)
    (online : (fnc s fn).lens = .online) :
    Does (.ccEnClear ⟨fn, twin⟩) s (resetClose (lensTo s fn .probation) fn twin) := by
  show execCcEnClear ⟨fn, twin⟩ s = _
  simp [execCcEnClear, ofLens, enabled, online]

/-- The device once a controller is enabled: a completed shutdown is over (R286). -/
def shutdownOver (s : State) : State := if s.power.shutdown = 2 then { s with power.shutdown := 0 } else s

theorem ccEnSet_enables (clear : (fnc s fn).en = false) (mayEnable : fn = 0 ∨ (fnc s fn).lens = .online) :
    Does (.ccEnSet fn) s (setFn (shutdownOver s) fn
      { fnc s fn with en := true, rdy := (shutdownOver s).rst.life == .service, shn := 0, shst := 0 }) := by
  have goes : ¬((fnc s fn).en = true ∨ (fn ≠ 0 ∧ (fnc s fn).lens ≠ .online)) := by
    simpa [clear, or_iff_not_imp_left] using mayEnable
  exact congrArg Host.Outcome.next (if_neg goes)

theorem ccEnSet_noShutdown (clear : (fnc s fn).en = false) (mayEnable : fn = 0 ∨ (fnc s fn).lens = .online)
    (noShutdown : s.power.shutdown ≠ 2) : Does (.ccEnSet fn) s
      (setFn s fn { fnc s fn with en := true, rdy := s.rst.life == .service, shn := 0, shst := 0 }) := by
  have enables := ccEnSet_enables clear mayEnable
  rwa [show shutdownOver s = s from if_neg noShutdown] at enables

theorem ccEnSet_endsShutdown (clear : (fnc s fn).en = false) (mayEnable : fn = 0 ∨ (fnc s fn).lens = .online)
    (shutdown : s.power.shutdown = 2) : Does (.ccEnSet fn) s (setFn { s with power.shutdown := 0 } fn
      { fnc s fn with en := true, rdy := s.rst.life == .service, shn := 0, shst := 0 }) := by
  have enables := ccEnSet_enables clear mayEnable
  rwa [show shutdownOver s = { s with power.shutdown := 0 } from if_pos shutdown] at enables

end

/-! Write log swaps and pauses (R363, R367, R368). -/

section
variable {s : State} {lens : Nat}

theorem writeLogSwap_asks (enabled : od s 0x6300 0x01 lens = 1) (noSwap : (fnc s lens).swapping = false) :
    Does (.writeLogSwap lens) s (setFn s lens { fnc s lens with swapping := true }) :=
  congrArg Host.Outcome.next (if_neg (by simp [enabled, noSwap]))

theorem writeLogSwap_disabled (disabled : od s 0x6300 0x01 lens ≠ 1) : Does (.writeLogSwap lens) s s :=
  congrArg Host.Outcome.next (if_pos (.inl disabled))

theorem swapComplete_closesA (swapping : (fnc s lens).swapping = true) (activeA : (fnc s lens).logActive = 0) :
    Does (.swapComplete lens) s (setFn s lens { fnc s lens with
      seqA := Nat.max (fnc s lens).seqA (fnc s lens).seqB + 1, logActive := 1, swapping := false }) := by
  show execSwapComplete lens s = _
  simp [execSwapComplete, swapping, activeA]

theorem swapComplete_closesB (swapping : (fnc s lens).swapping = true) (activeB : (fnc s lens).logActive = 1) :
    Does (.swapComplete lens) s (setFn s lens { fnc s lens with
      seqB := Nat.max (fnc s lens).seqA (fnc s lens).seqB + 1, logActive := 0, swapping := false }) := by
  show execSwapComplete lens s = _
  simp [execSwapComplete, swapping, activeB]

theorem lensPause_sets {v : Nat} (valid : v ≤ 1) :
    Does (.lensPause lens v) s (retagFn (odSet s 0x6210 0x05 lens v) lens) :=
  congrArg Host.Outcome.next (if_pos valid)

end

/-- Settles O32: the resets, CC.EN, the swap and the pause, each by its lemma. -/
theorem controllerResetsAndWriteLog : Obligations.ControllerResetsAndWriteLog := by
  unfold Obligations.ControllerResetsAndWriteLog
  exact ⟨fun s fn twin => ⟨flr_physical s twin, flr_online twin, flr_locked twin, ccEnClear_physical twin,
      ccEnClear_online twin, ccEnClear_clear twin, ccEnSet_noShutdown, ccEnSet_endsShutdown⟩,
    fun s lens v => ⟨writeLogSwap_asks, writeLogSwap_disabled, swapComplete_closesA, swapComplete_closesB, lensPause_sets⟩⟩

end Sys2Proof.Machine

namespace Sys2Proof.Machine

open Sys2Proof

/-- Every command answers a next state with the queue, the DRAM bytes and the minimum version kept as Clears says, or is
one of the three that carry a DRAM address. -/
theorem exec_runs_or_dram (c : Instr) (s : State) : Runs s (exec c s) ∨ (∃ ch l p, c = .dramRequestGrant ch l p) ∨
    (∃ a p b, c = .scrubRead a p b) ∨ ∃ b, c = .dramInitBlock b :=
  match c with
  | .submissionQueueDoorbell .. => .inl (execSubmissionQueueDoorbell_runs ..)
  | .submissionEntryFetched .. => .inl (execSubmissionEntryFetched_runs ..)
  | .tokenRefill => .inl (execTokenRefill_runs ..)
  | .lensSubmissionGrant => .inl (execLensSubmissionGrant_runs ..)
  | .flush .. => .inl (execFlush_runs ..)
  | .write .. => .inl (execWrite_runs ..)
  | .read .. => .inl (execRead_runs ..)
  | .compare .. => .inl (execCompare_runs ..)
  | .writeZeroes .. => .inl (execWriteZeroes_runs ..)
  | .datasetManagement .. => .inl (execDatasetManagement_runs ..)
  | .verify .. => .inl (execVerify_runs ..)
  | .reservationRegister .. => .inl (execReservationRegister_runs ..)
  | .reservationReport .. => .inl (execReservationReport_runs ..)
  | .reservationAcquire .. => .inl (execReservationAcquire_runs ..)
  | .reservationRelease .. => .inl (execReservationRelease_runs ..)
  | .zoneAppend .. => .inl (execZoneAppend_runs ..)
  | .openZone .. => .inl (execOpenZone_runs ..)
  | .closeZone .. => .inl (execCloseZone_runs ..)
  | .finishZone .. => .inl (execFinishZone_runs ..)
  | .resetZone .. => .inl (execResetZone_runs ..)
  | .offlineZone .. => .inl (execOfflineZone_runs ..)
  | .setZoneDescriptorExtension .. => .inl (execSetZoneDescriptorExtension_runs ..)
  | .reportZones .. => .inl (execReportZones_runs ..)
  | .extendedReportZones .. => .inl (execExtendedReportZones_runs ..)
  | .unsupportedIoCommand .. => .inl (execUnsupportedIoCommand_runs ..)
  | .asnSequencerPick => .inl (execAsnSequencerPick_runs ..)
  | .admissionHoldRelease .. => .inl (execAdmissionHoldRelease_runs ..)
  | .writeDataFetch .. => .inl (execWriteDataFetch_runs ..)
  | .postWriteCompletion .. => .inl (execPostWriteCompletion_runs ..)
  | .ledgerRowProgram => .inl (execLedgerRowProgram_runs ..)
  | .remapRecordProgram => .inl (execRemapRecordProgram_runs ..)
  | .journalPageProgram => .inl (execJournalPageProgram_runs ..)
  | .checkpointBegin => .inl (execCheckpointBegin_runs ..)
  | .checkpointEnd => .inl (execCheckpointEnd_runs ..)
  | .resetStepUnmap .. => .inl (execResetStepUnmap_runs ..)
  | .dieReadIssue .. => .inl (execDieReadIssue_runs ..)
  | .dieReadDone .. => .inl (execDieReadDone_runs ..)
  | .readRetryStep .. => .inl (execReadRetryStep_runs ..)
  | .softDecode .. => .inl (execSoftDecode_runs ..)
  | .dieProgramIssue .. => .inl (execDieProgramIssue_runs ..)
  | .dieProgramReady .. => .inl (execDieProgramReady_runs ..)
  | .dieEraseIssue .. => .inl (execDieEraseIssue_runs ..)
  | .dieEraseReady .. => .inl (execDieEraseReady_runs ..)
  | .eraseSuspend .. => .inl (execEraseSuspend_runs ..)
  | .eraseSuspendDone .. => .inl (execEraseSuspendDone_runs ..)
  | .eraseResume .. => .inl (execEraseResume_runs ..)
  | .wrdyTimeout .. => .inl (execWrdyTimeout_runs ..)
  | .operationTimeout .. => .inl (execOperationTimeout_runs ..)
  | .scriptInstructionLimit .. => .inl (execScriptInstructionLimit_runs ..)
  | .nop .. => .inl (execNop_runs ..)
  | .cmd .. => .inl (execCmd_runs ..)
  | .addr .. => .inl (execAddr_runs ..)
  | .dout .. => .inl (execDout_runs ..)
  | .din .. => .inl (execDin_runs ..)
  | .doutb .. => .inl (execDoutb_runs ..)
  | .dinb .. => .inl (execDinb_runs ..)
  | .sel .. => .inl (execSel_runs ..)
  | .dsel .. => .inl (execDsel_runs ..)
  | .wrdy .. => .inl (execWrdy_runs ..)
  | .dieReady .. => .inl (execDieReady_runs ..)
  | .stat .. => .inl (execStat_runs ..)
  | .dly .. => .inl (execDly_runs ..)
  | .phy .. => .inl (execPhy_runs ..)
  | .movi .. => .inl (execMovi_runs ..)
  | .movh .. => .inl (execMovh_runs ..)
  | .aluAdd .. => .inl (execAluAdd_runs ..)
  | .aluSubtract .. => .inl (execAluSubtract_runs ..)
  | .aluAnd .. => .inl (execAluAnd_runs ..)
  | .aluOr .. => .inl (execAluOr_runs ..)
  | .aluXor .. => .inl (execAluXor_runs ..)
  | .aluShiftLeft .. => .inl (execAluShiftLeft_runs ..)
  | .aluShiftRight .. => .inl (execAluShiftRight_runs ..)
  | .aluiAdd .. => .inl (execAluiAdd_runs ..)
  | .aluiSubtract .. => .inl (execAluiSubtract_runs ..)
  | .aluiAnd .. => .inl (execAluiAnd_runs ..)
  | .aluiOr .. => .inl (execAluiOr_runs ..)
  | .aluiXor .. => .inl (execAluiXor_runs ..)
  | .aluiShiftLeft .. => .inl (execAluiShiftLeft_runs ..)
  | .aluiShiftRight .. => .inl (execAluiShiftRight_runs ..)
  | .br .. => .inl (execBr_runs ..)
  | .bst .. => .inl (execBst_runs ..)
  | .call .. => .inl (execCall_runs ..)
  | .ret .. => .inl (execRet_runs ..)
  | .gets .. => .inl (execGets_runs ..)
  | .cnt .. => .inl (execCnt_runs ..)
  | .endOp .. => .inl (execEndOp_runs ..)
  | .slotBoundary => .inl (execSlotBoundary_runs ..)
  | .frameBoundary => .inl (execFrameBoundary_runs ..)
  | .channelScriptSwap .. => .inl (execChannelScriptSwap_runs ..)
  | .rewriteStep .. => .inl (execRewriteStep_runs ..)
  | .rowTableSwitch .. => .inl (execRowTableSwitch_runs ..)
  | .patrolRead .. => .inl (execPatrolRead_runs ..)
  | .probationPhaseEnd .. => .inl (execProbationPhaseEnd_runs ..)
  | .phase3FacetRepair .. => .inl (execPhase3FacetRepair_runs ..)
  | .gcStep .. => .inl (execGcStep_runs ..)
  | .keyRotationStep .. => .inl (execKeyRotationStep_runs ..)
  | .plnFallingEdge .. => .inl (execPlnFallingEdge_runs ..)
  | .plnQualified => .inl (execPlnQualified_runs ..)
  | .plnGlitch => .inl (execPlnGlitch_runs ..)
  | .holdupDrainDone .. => .inl (execHoldupDrainDone_runs ..)
  | .holdupSealDone => .inl (execHoldupSealDone_runs ..)
  | .powerLostRelease => .inl (execPowerLostRelease_runs ..)
  | .pwrdisQualified => .inl (execPwrdisQualified_runs ..)
  | .ccShnShutdown .. => .inl (execCcShnShutdown_runs ..)
  | .shutdownComplete => .inl (execShutdownComplete_runs ..)
  | .restartScan .. => .inl (execRestartScan_runs ..)
  | .pairBootWaitExpiry => .inl (execPairBootWaitExpiry_runs ..)
  | .imageAreaRelease => .inl (execImageAreaRelease_runs ..)
  | .keepaliveSend => .inl (execKeepaliveSend_runs ..)
  | .keepalive .. => .inl (execKeepalive_runs ..)
  | .linkLoss => .inl (execLinkLoss_runs ..)
  | .promotionWaitExpiry => .inl (execPromotionWaitExpiry_runs ..)
  | .pairHbInAbsent => .inl (execPairHbInAbsent_runs ..)
  | .pairHbInPresent => .inl (execPairHbInPresent_runs ..)
  | .linkTrained .. => .inl (execLinkTrained_runs ..)
  | .holdingAcknowledgement .. => .inl (execHoldingAcknowledgement_runs ..)
  | .holdingAckLate .. => .inl (execHoldingAckLate_runs ..)
  | .linkAcknowledgement .. => .inl (execLinkAcknowledgement_runs ..)
  | .fastRetrainTimeout .. => .inl (execFastRetrainTimeout_runs ..)
  | .attachFrame .. => .inl (execAttachFrame_runs ..)
  | .handoverFrame .. => .inl (execHandoverFrame_runs ..)
  | .detachFrame .. => .inl (execDetachFrame_runs ..)
  | .powerLossNotice .. => .inl (execPowerLossNotice_runs ..)
  | .preserveReport .. => .inl (execPreserveReport_runs ..)
  | .forkReport .. => .inl (execForkReport_runs ..)
  | .forcedResetFrame .. => .inl (execForcedResetFrame_runs ..)
  | .pairRootTransfer .. => .inl (execPairRootTransfer_runs ..)
  | .keySwitchAsnFrame .. => .inl (execKeySwitchAsnFrame_runs ..)
  | .admissionRequest .. => .inl (execAdmissionRequest_runs ..)
  | .ledgerRecords .. => .inl (execLedgerRecords_runs ..)
  | .fetchRequest .. => .inl (execFetchRequest_runs ..)
  | .conventionalOrder .. => .inl (execConventionalOrder_runs ..)
  | .writeDataFrame .. => .inl (execWriteDataFrame_runs ..)
  | .fetchResponse .. => .inl (execFetchResponse_runs ..)
  | .catchingUpDone => .inl (execCatchingUpDone_runs ..)
  | .resyncZoneCopy .. => .inl (execResyncZoneCopy_runs ..)
  | .zoneResyncDone => .inl (execZoneResyncDone_runs ..)
  | .keyUpdate .. => .inl (execKeyUpdate_runs ..)
  | .forwardedCommand h op c index fn gen cls first check tag =>
    .inl (execForwardedCommand_runs h op c index fn gen cls first check tag s)
  | .memberCompletion .. => .inl (execMemberCompletion_runs ..)
  | .cascadeLinkLoss .. => .inl (execCascadeLinkLoss_runs ..)
  | .memberProbationPass .. => .inl (execMemberProbationPass_runs ..)
  | .memberRemove .. => .inl (execMemberRemove_runs ..)
  | .vfEnable .. => .inl (execVfEnable_runs ..)
  | .vfDisable .. => .inl (execVfDisable_runs ..)
  | .virtualizationOnline .. => .inl (execVirtualizationOnline_runs ..)
  | .virtualizationOffline .. => .inl (execVirtualizationOffline_runs ..)
  | .virtualizationAssign .. => .inl (execVirtualizationAssign_runs ..)
  | .probationChecksPass .. => .inl (execProbationChecksPass_runs ..)
  | .flr .. => .inl (execFlr_runs ..)
  | .ccEnClear .. => .inl (execCcEnClear_runs ..)
  | .ccEnSet .. => .inl (execCcEnSet_runs ..)
  | .lockInterface .. => .inl (execLockInterface_runs ..)
  | .getDeviceInterfaceReport .. => .inl (execGetDeviceInterfaceReport_runs ..)
  | .getDeviceInterfaceState .. => .inl (execGetDeviceInterfaceState_runs ..)
  | .startInterface .. => .inl (execStartInterface_runs ..)
  | .stopInterface .. => .inl (execStopInterface_runs ..)
  | .ideIntegrityFailure .. => .inl (execIdeIntegrityFailure_runs ..)
  | .mmioRequest .. => .inl (execMmioRequest_runs ..)
  | .writeLogSwap .. => .inl (execWriteLogSwap_runs ..)
  | .swapComplete .. => .inl (execSwapComplete_runs ..)
  | .lensPause .. => .inl (execLensPause_runs ..)
  | .cipherMessageGrant .. => .inl (execCipherMessageGrant_runs ..)
  | .cipherAlarm .. => .inl (execCipherAlarm_runs ..)
  | .alarmClearRecover => .inl (execAlarmClearRecover_runs ..)
  | .entropyHealthFailure => .inl (execEntropyHealthFailure_runs ..)
  | .drbgReseed .. => .inl (execDrbgReseed_runs ..)
  | .laneReturn .. => .inl (execLaneReturn_runs ..)
  | .keyRotationStart .. => .inl (execKeyRotationStart_runs ..)
  | .firmwareCommitReplace .. => .inl (execFirmwareCommitReplace_runs ..)
  | .firmwareCommitReplaceActivate .. => .inl (execFirmwareCommitReplaceActivate_runs ..)
  | .firmwareCommitActivate .. => .inl (execFirmwareCommitActivate_runs ..)
  | .firmwareCommitImmediate .. => .inl (execFirmwareCommitImmediate_runs ..)
  | .raiseMinimum .. => .inl (execRaiseMinimum_runs ..)
  | .negotiateAlgorithms .. => .inl (execNegotiateAlgorithms_runs ..)
  | .getCertificate .. => .inl (execGetCertificate_runs ..)
  | .challenge .. => .inl (execChallenge_runs ..)
  | .getMeasurements .. => .inl (execGetMeasurements_runs ..)
  | .keyExchange b secret => .inl (execKeyExchange_runs b secret s)
  | .setCertificate .. => .inl (execSetCertificate_runs ..)
  | .vendorDefinedRequest .. => .inl (execVendorDefinedRequest_runs ..)
  | .levelChangeStart => .inl (execLevelChangeStart_runs ..)
  | .levelChangeDone => .inl (execLevelChangeDone_runs ..)
  | .vddPgRise => .inl (execVddPgRise_runs ..)
  | .vddPgTimeout => .inl (execVddPgTimeout_runs ..)
  | .vddPgFall => .inl (execVddPgFall_runs ..)
  | .idleTimerExpiry => .inl (execIdleTimerExpiry_runs ..)
  | .sleepEntry => .inl (execSleepEntry_runs ..)
  | .sleepBlockAnswer .. => .inl (execSleepBlockAnswer_runs ..)
  | .sleepAnswerTimeout => .inl (execSleepAnswerTimeout_runs ..)
  | .sleepRetry => .inl (execSleepRetry_runs ..)
  | .wakeEvent .. => .inl (execWakeEvent_runs ..)
  | .setFeaturesPowerManagement .. => .inl (execSetFeaturesPowerManagement_runs ..)
  | .apstTransition .. => .inl (execApstTransition_runs ..)
  | .pciD3hot .. => .inl (execPciD3hot_runs ..)
  | .managementSleepRequest .. => .inl (execManagementSleepRequest_runs ..)
  | .adcPeriod .. => .inl (execAdcPeriod_runs ..)
  | .thermalCriticalExit => .inl (execThermalCriticalExit_runs ..)
  | .thermalTrip => .inl (execThermalTrip_runs ..)
  | .temperatureSample => .inl (execTemperatureSample_runs ..)
  | .healthSave => .inl (execHealthSave_runs ..)
  | .pcapPRisingEdge .. => .inl (execPcapPRisingEdge_runs ..)
  | .pcapPTimeout => .inl (execPcapPTimeout_runs ..)
  | .pcapPFallback => .inl (execPcapPFallback_runs ..)
  | .pcapPRestore => .inl (execPcapPRestore_runs ..)
  | .loopTick => .inl (execLoopTick_runs ..)
  | .loopOverrun .. => .inl (execLoopOverrun_runs ..)
  | .loopInstructionLimit .. => .inl (execLoopInstructionLimit_runs ..)
  | .loopNop .. => .inl (execLoopNop_runs ..)
  | .lda .. => .inl (execLda_runs ..)
  | .add .. => .inl (execAdd_runs ..)
  | .sub .. => .inl (execSub_runs ..)
  | .mpy .. => .inl (execMpy_runs ..)
  | .mac .. => .inl (execMac_runs ..)
  | .msu .. => .inl (execMsu_runs ..)
  | .sha .. => .inl (execSha_runs ..)
  | .sts .. => .inl (execSts_runs ..)
  | .clp .. => .inl (execClp_runs ..)
  | .min .. => .inl (execMin_runs ..)
  | .max .. => .inl (execMax_runs ..)
  | .ldi .. => .inl (execLdi_runs ..)
  | .mov .. => .inl (execMov_runs ..)
  | .cmp .. => .inl (execCmp_runs ..)
  | .loopBr .. => .inl (execLoopBr_runs ..)
  | .adi .. => .inl (execAdi_runs ..)
  | .loopEnd .. => .inl (execLoopEnd_runs ..)
  | .loopProgramLoad .. => .inl (execLoopProgramLoad_runs ..)
  | .engineReturn .. => .inl (execEngineReturn_runs ..)
  | .engineSelfTestDone .. => .inl (execEngineSelfTestDone_runs ..)
  | .engineShadowDone .. => .inl (execEngineShadowDone_runs ..)
  | .dramRequestGrant .. => .inr (.inl ⟨_, _, _, rfl⟩)
  | .agePromotion .. => .inl (execAgePromotion_runs ..)
  | .rowClose .. => .inl (execRowClose_runs ..)
  | .dramRefresh ch bank atLimit => .inl (execDramRefresh_runs ch bank atLimit s)
  | .mr4Poll .. => .inl (execMr4Poll_runs ..)
  | .selfRefreshEntry .. => .inl (execSelfRefreshEntry_runs ..)
  | .retrainStart => .inl (execRetrainStart_runs ..)
  | .retrainPause .. => .inl (execRetrainPause_runs ..)
  | .fullRetraining .. => .inl (execFullRetraining_runs ..)
  | .scrubRead .. => .inr (.inr (.inl ⟨_, _, _, rfl⟩))
  | .dramInitBlock .. => .inr (.inr (.inr ⟨_, rfl⟩))
  | .bufferAllocate .. => .inl (execBufferAllocate_runs ..)
  | .bufferReturn .. => .inl (execBufferReturn_runs ..)
  | .freeListRebuildDone .. => .inl (execFreeListRebuildDone_runs ..)
  | .bufferWaitTimeout .. => .inl (execBufferWaitTimeout_runs ..)
  | .powerOn => .inl (execPowerOn_runs ..)
  | .coreBrownOut => .inl (execCoreBrownOut_runs ..)
  | .aonBrownOut => .inl (execAonBrownOut_runs ..)
  | .perstAssert => .inl (execPerstAssert_runs ..)
  | .perstDeassert => .inl (execPerstDeassert_runs ..)
  | .perstGlitch => .inl (execPerstGlitch_runs ..)
  | .preResetFlushSeal => .inl (execPreResetFlushSeal_runs ..)
  | .preResetFlushLimit => .inl (execPreResetFlushLimit_runs ..)
  | .watchdogExpiry => .inl (execWatchdogExpiry_runs ..)
  | .bootTimerExpiry => .inl (execBootTimerExpiry_runs ..)
  | .managementReset => .inl (execManagementReset_runs ..)
  | .releaseCountDone .. => .inl (execReleaseCountDone_runs ..)
  | .refclkLoss => .inl (execRefclkLoss_runs ..)
  | .refclkRestore => .inl (execRefclkRestore_runs ..)
  | .testModeHold .. => .inl (execTestModeHold_runs ..)
  | .stage1Loader .. => .inl (execStage1Loader_runs ..)
  | .stage2Sealed .. => .inl (execStage2Sealed_runs ..)
  | .stage3Ftl => .inl (execStage3Ftl_runs ..)
  | .strapCheck .. => .inl (execStrapCheck_runs ..)
  | .blockResetFlashChannel .. => .inl (execBlockResetFlashChannel_runs ..)
  | .blockResetCipherLane .. => .inl (execBlockResetCipherLane_runs ..)
  | .blockResetSoftDecoder .. => .inl (execBlockResetSoftDecoder_runs ..)
  | .blockResetPlacementEngine .. => .inl (execBlockResetPlacementEngine_runs ..)
  | .blockResetLoopEngine .. => .inl (execBlockResetLoopEngine_runs ..)
  | .blockResetMirrorLink => .inl (execBlockResetMirrorLink_runs ..)
  | .blockResetCascadePort .. => .inl (execBlockResetCascadePort_runs ..)
  | .blockResetTracePort => .inl (execBlockResetTracePort_runs ..)
  | .blockResetLoupe => .inl (execBlockResetLoupe_runs ..)
  | .maintenanceRequest .. => .inl (execMaintenanceRequest_runs ..)
  | .bootFailureClear => .inl (execBootFailureClear_runs ..)
  | .logicBistStart => .inl (execLogicBistStart_runs ..)
  | .logicBistDone .. => .inl (execLogicBistDone_runs ..)
  | .onlinePassStart => .inl (execOnlinePassStart_runs ..)
  | .memoryBistStep .. => .inl (execMemoryBistStep_runs ..)
  | .deviceSelfTestShort .. => .inl (execDeviceSelfTestShort_runs ..)
  | .deviceSelfTestExtended .. => .inl (execDeviceSelfTestExtended_runs ..)
  | .loupeTriggerPeriod .. => .inl (execLoupeTriggerPeriod_runs ..)
  | .loupeFlush => .inl (execLoupeFlush_runs ..)
  | .loupeEmpty => .inl (execLoupeEmpty_runs ..)
  | .loupeResume => .inl (execLoupeResume_runs ..)
  | .alertReleaseRead => .inl (execAlertReleaseRead_runs ..)
  | .namespaceCreate .. => .inl (execNamespaceCreate_runs ..)
  | .namespaceDelete .. => .inl (execNamespaceDelete_runs ..)
  | .namespaceAttach .. => .inl (execNamespaceAttach_runs ..)
  | .namespaceDetach .. => .inl (execNamespaceDetach_runs ..)
  | .formatNvmNoSecureErase .. => .inl (execFormatNvmNoSecureErase_runs ..)
  | .formatNvmUserDataErase .. => .inl (execFormatNvmUserDataErase_runs ..)
  | .formatNvmCryptoErase .. => .inl (execFormatNvmCryptoErase_runs ..)
  | .sanitizeBlockErase .. => .inl (execSanitizeBlockErase_runs ..)
  | .sanitizeCryptoErase .. => .inl (execSanitizeCryptoErase_runs ..)
  | .sanitizeOverwrite .. => .inl (execSanitizeOverwrite_runs ..)
  | .abort .. => .inl (execAbort_runs ..)
  | .setFeaturesFdp .. => .inl (execSetFeaturesFdp_runs ..)
  | .admissionLedgerLog .. => .inl (execAdmissionLedgerLog_runs ..)
  | .mediaHealthLog .. => .inl (execMediaHealthLog_runs ..)
  | .lensContractLog .. => .inl (execLensContractLog_runs ..)
  | .loupeLog .. => .inl (execLoupeLog_runs ..)
  | .smartHealthLog .. => .inl (execSmartHealthLog_runs ..)
  | .changedZoneListLog .. => .inl (execChangedZoneListLog_runs ..)
  | .fdpLogs .. => .inl (execFdpLogs_runs ..)
  | .telemetryLog .. => .inl (execTelemetryLog_runs ..)
  | .dictRead .. => .inl (execDictRead_runs ..)
  | .dictReadStaged .. => .inl (execDictReadStaged_runs ..)
  | .dictDescribe .. => .inl (execDictDescribe_runs ..)
  | .dictWrite .. => .inl (execDictWrite_runs ..)
  | .commit .. => .inl (execCommit_runs ..)
  | .commitDurable .. => .inl (execCommitDurable_runs ..)
  | .discard .. => .inl (execDiscard_runs ..)
  | .stagingSetExpiry .. => .inl (execStagingSetExpiry_runs ..)
  | .dieScriptLoad .. => .inl (execDieScriptLoad_runs ..)
  | .dieReturn .. => .inl (execDieReturn_runs ..)
  | .channelReturn .. => .inl (execChannelReturn_runs ..)
  | .pairAttach => .inl (execPairAttach_runs ..)
  | .pairDetach => .inl (execPairDetach_runs ..)
  | .handover => .inl (execHandover_runs ..)
  | .discardHistoryAndAttach => .inl (execDiscardHistoryAndAttach_runs ..)
  | .clearPairing => .inl (execClearPairing_runs ..)
  | .setEndpointId .. => .inl (execSetEndpointId_runs ..)
  | .getEndpointId .. => .inl (execGetEndpointId_runs ..)
  | .getMctpVersionSupport .. => .inl (execGetMctpVersionSupport_runs ..)
  | .getMessageTypeSupport .. => .inl (execGetMessageTypeSupport_runs ..)
  | .getVendorDefinedMessageSupport .. => .inl (execGetVendorDefinedMessageSupport_runs ..)
  | .nvmeMiMessage .. => .inl (execNvmeMiMessage_runs ..)
  | .setdasa .. => .inl (execSetdasa_runs ..)
  | .entdaa .. => .inl (execEntdaa_runs ..)
  | .targetResetPattern .. => .inl (execTargetResetPattern_runs ..)
  | .smbusSclTimeout .. => .inl (execSmbusSclTimeout_runs ..)
  | .supplyWithinRange .. => .inl (execSupplyWithinRange_runs ..)
  | .thermalTripRelease => .inl (execThermalTripRelease_runs ..)
  | .fastRetrainDone .. => .inl (execFastRetrainDone_runs ..)
  | .frameCheckFailure .. => .inl (execFrameCheckFailure_runs ..)
  | .flitCheckFailure .. => .inl (execFlitCheckFailure_runs ..)
  | .periodicChannelRetraining .. => .inl (execPeriodicChannelRetraining_runs ..)
  | .korlaCoreMachineCheck => .inl (execKorlaCoreMachineCheck_runs ..)
  | .ftlFirmwareAssertion => .inl (execFtlFirmwareAssertion_runs ..)
  | .hdrEntry .. => .inl (execHdrEntry_runs ..)
  | .hdrExitPattern .. => .inl (execHdrExitPattern_runs ..)
  | .endSession .. => .inl (execEndSession_runs ..)
  | .asynchronousEventRequest .. => .inl (execAsynchronousEventRequest_runs ..)

/-- Where any command answers a next state, it keeps the queue and does not lower the minimum version. -/
theorem does_moves {c : Instr} {s t : State} (does : Does c s t) : Moves s t := by
  obtain ⟨u, runs, clears⟩ | ⟨ch, l, p, rfl⟩ | ⟨a, p, b, rfl⟩ | ⟨b, rfl⟩ := exec_runs_or_dram c s
  · cases does.symm.trans runs
    exact clears.moves
  · exact dramGrant_moves ch l p s t does
  · exact scrubRead_moves a p b s t does
  · exact dramInitBlock_moves b s t does

/-- The idle step and the front command alike leave the minimum version at least as high (R419). -/
theorem step_otpMin_le {s t : State} (steps : step s = .next t) : s.ciph.otpMin ≤ t.ciph.otpMin := by
  cases waiting : s.pending with
  | nil =>
    cases (step_idle waiting).symm.trans steps
    obtain ⟨-, -, kept⟩ := idle_keeps s
    exact kept.ge
  | cons c rest =>
    have does : Does c { s with pending := rest } t := by rwa [step, waiting] at steps
    obtain ⟨-, -, noLower⟩ := does_moves does
    exact noLower

/-- Settles O59: the three commands with a DRAM address are the only ones of the dispatch that may not run. -/
theorem everyCommandRuns : Obligations.EveryCommandRuns := by
  unfold Obligations.EveryCommandRuns
  refine ⟨⟨fun c s notGrant notScrub notInit => ?_, fun c s t does => ?_⟩, fun s t steps => step_otpMin_le steps⟩
  · obtain ⟨t, runs, pending, mem, -⟩ | ⟨ch, l, p, grant⟩ | ⟨a, p, b, scrub⟩ | ⟨b, init⟩ := exec_runs_or_dram c s
    · exact ⟨t, runs, pending, mem⟩
    · exact absurd grant (notGrant ch l p)
    · exact absurd scrub (notScrub a p b)
    · exact absurd init (notInit b)
  · obtain ⟨pending, -, -⟩ := does_moves does
    exact pending

end Sys2Proof.Machine

namespace Sys2Proof.Machine

open Sys2Proof

/-! Grants of the cipher lane arbiter (R383, R388 to R392). -/

section
variable {s : State} {l : List CipherReq} {r : CipherReq} {passed : Nat} {urgent : Bool}

/-- The state in which a granted message meets its page: the lanes have run on, and the rotation of its class has moved
past the page (R40, R389). -/
def arbitrated (s : State) (passed : Nat) (r : CipherReq) (urgent : Bool) : State :=
  let u := runLanes s passed
  if urgent then { u with ciph.urgentPtr := r.page + 1 } else { u with ciph.normalPtr := r.page + 1 }

theorem arbitrated_root : (arbitrated s passed r urgent).ciph.root = s.ciph.root := by
  unfold arbitrated
  split <;> rfl

/-- A message is discarded for want of the root only (R404). -/
theorem arbitrated_notDiscarded (root : s.ciph.root.isSome = true) :
    ¬(r.page ≤ 512 ∧ (arbitrated s passed r urgent).ciph.root.isNone = true) := by
  simp [arbitrated_root, Option.isSome_iff_ne_none.1 root]

theorem cipherGrant_none (noPick : cipherPick (runLanes s passed) l = none) :
    Does (.cipherMessageGrant l passed) s (runLanes s passed) := by
  show execCipherMessageGrant l passed s = _
  simp only [execCipherMessageGrant, noPick]

variable (pick : cipherPick (runLanes s passed) l = some (r, urgent))
include pick

/-- What becomes of the arbiter's choice: discarded without the root, refused without a key, or put on a lane. -/
theorem cipherGrant_takes : Does (.cipherMessageGrant l passed) s
    (let u := arbitrated s passed r urgent
     if r.page ≤ 512 ∧ u.ciph.root.isNone then u
     else if !holdsKey u r && !mayDerive u r then refuseKey u r
     else
       let t := if r.page ≤ 512 then useKey u r.page (r.nsid, r.gen) else u
       let t := { t with ciph.drbgUsed := t.ciph.drbgUsed + 15 * blocksOf t r }
       takeLane t (msgOf t r urgent)) := by
  show execCipherMessageGrant l passed s = _
  simp only [execCipherMessageGrant, pick]
  rfl

theorem cipherGrant_link (notHost : 512 < r.page) (linkPage : r.page ≤ 520) : Does (.cipherMessageGrant l passed) s
    (let u := arbitrated s passed r urgent
     let t := { u with ciph.drbgUsed := u.ciph.drbgUsed + 15 * blocksOf u r }
     takeLane t (msgOf t r urgent)) := by
  have takes := cipherGrant_takes pick
  have derives : mayDerive (arbitrated s passed r urgent) r = true := by simp [mayDerive, notHost, linkPage]
  rwa [if_neg (fun h => absurd h.1 (Nat.not_le.2 notHost)), if_neg (by simp [derives]),
    if_neg (Nat.not_le.2 notHost)] at takes

theorem cipherGrant_host (host : r.page ≤ 512) (root : s.ciph.root.isSome = true)
    (keyed : holdsKey (arbitrated s passed r urgent) r = true ∨ mayDerive (arbitrated s passed r urgent) r = true) :
    Does (.cipherMessageGrant l passed) s
      (let t := useKey (arbitrated s passed r urgent) r.page (r.nsid, r.gen)
       let t := { t with ciph.drbgUsed := t.ciph.drbgUsed + 15 * blocksOf t r }
       takeLane t (msgOf t r urgent)) := by
  have takes := cipherGrant_takes pick
  have notRefused :
      ¬(!holdsKey (arbitrated s passed r urgent) r && !mayDerive (arbitrated s passed r urgent) r) = true := by
    rcases keyed with keyed | keyed <;> simp [keyed]
  rwa [if_neg (arbitrated_notDiscarded root), if_neg notRefused, if_pos host] at takes

theorem cipherGrant_refused (root : s.ciph.root.isSome = true)
    (noKey : holdsKey (arbitrated s passed r urgent) r = false)
    (mayNot : mayDerive (arbitrated s passed r urgent) r = false) :
    Does (.cipherMessageGrant l passed) s (refuseKey (arbitrated s passed r urgent) r) := by
  have takes := cipherGrant_takes pick
  rwa [if_neg (arbitrated_notDiscarded root), if_pos (by simp [noKey, mayNot])] at takes

theorem cipherGrant_discarded (host : r.page ≤ 512) (noRoot : s.ciph.root = none) :
    Does (.cipherMessageGrant l passed) s (arbitrated s passed r urgent) := by
  have takes := cipherGrant_takes pick
  rwa [if_pos ⟨host, by simp [arbitrated_root, noRoot]⟩] at takes

end

/-! Lanes and the DRBG (R388, R393, R394). -/

section
variable {s : State} {n : Nat}

theorem takeLane_free {m : Msg} (free : (lanesUp s).find? (fun l => (lane s l).run.isNone) = some n) :
    takeLane s m = setLane s n { run := some m, saved := none } := by
  simp only [takeLane, free]

theorem laneReturn_passes (out : n ∈ s.ciph.badLanes) : Does (.laneReturn n true) s
    { s with ciph.badLanes := s.ciph.badLanes.filter fun l => l != n } :=
  congrArg Host.Outcome.next (if_neg (by simp [out]))

theorem laneReturn_fails (out : n ∈ s.ciph.badLanes) :
    Does (.laneReturn n false) s (loupe s 394 0x70 5 [n]) :=
  congrArg Host.Outcome.next (if_neg (by simp [out]))

theorem entropyHealthFailure_stops :
    Does .entropyHealthFailure s (loupe { s with ciph.drbgOk := false } 393 0x70 6 []) := rfl

theorem drbgReseed_passes : Does (.drbgReseed true) s { s with ciph.drbgOk := true, ciph.drbgUsed := 0 } := rfl

theorem drbgReseed_fails : Does (.drbgReseed false) s (loupe { s with ciph.drbgOk := false } 393 0x70 6 []) := rfl

end

/-! Alarms (R403 to R406). -/

/-- The state that an alarm leaves before it turns to the work at hand: counted, recorded and with the keys erased. -/
def alarmed (s : State) (alarm : Nat) : State :=
  let t := odKeep s 0x7000 0x04 (od s 0x7000 0x04 alarm + 1) alarm
  loupe (eraseKeys { t with ciph.alarms := setBit alarm s.ciph.alarms }) 403 0x70 (alarmSeverity alarm) [alarm]

section
variable {s : State} {alarm : Nat}

/-- The event that records the alarm leaves the cipher engine as the erasure did. -/
theorem alarmed_ciph : (alarmed s alarm).ciph =
    (eraseKeys { s with ciph.alarms := setBit alarm s.ciph.alarms }).ciph := (loupe_tells ..).ciph

theorem alarmed_erases : (alarmed s alarm).ciph.root = none ∧ (alarmed s alarm).ciph.erased = true ∧
    (alarmed s alarm).ciph.cache = [] ∧ (alarmed s alarm).ciph.alarms = setBit alarm s.ciph.alarms ∧
    (alarmed s alarm).ciph.loaded = s.ciph.loaded.filter (fun p => decide (512 < p)) := by
  rw [alarmed_ciph]
  exact ⟨rfl, rfl, rfl, rfl, rfl⟩

/-- Outside boot an alarm ends the work that needs a key, and tells the hosts of a serving pair (R404). -/
theorem cipherAlarm_serving (real : alarm < 5) (serving : s.rst.life = .service) : Does (.cipherAlarm alarm) s
    (let v := alarmLenses (alarmWork (alarmed s alarm))
     if pairRole v ≠ 0 ∧ v.pair.ana ≠ 3 then (enabledFns v).foldl (fun s n => aen s n 2 3) v else v) := by
  show execCipherAlarm alarm s = _
  simp only [execCipherAlarm, if_neg (Nat.not_le.2 real), serving]
  rfl

theorem cipherAlarm_alone (real : alarm < 5) (serving : s.rst.life = .service)
    (alone : pairRole (alarmLenses (alarmWork (alarmed s alarm))) = 0) :
    Does (.cipherAlarm alarm) s (alarmLenses (alarmWork (alarmed s alarm))) := by
  have does := cipherAlarm_serving real serving
  rwa [if_neg fun h => h.1 alone] at does

theorem cipherAlarm_paired (real : alarm < 5) (serving : s.rst.life = .service)
    (paired : pairRole (alarmLenses (alarmWork (alarmed s alarm))) ≠ 0)
    (answering : (alarmLenses (alarmWork (alarmed s alarm))).pair.ana ≠ 3) : Does (.cipherAlarm alarm) s
      (let v := alarmLenses (alarmWork (alarmed s alarm))
       (enabledFns v).foldl (fun s n => aen s n 2 3) v) := by
  have does := cipherAlarm_serving real serving
  rwa [if_pos ⟨paired, answering⟩] at does

/-- In boot stage 1 an alarm is an internal fatal reset (R405). -/
theorem cipherAlarm_booting (real : alarm < 5) (booting : s.rst.life = .stage1) : Does (.cipherAlarm alarm) s
    (raise { alarmed s alarm with ciph.alarmResets := (alarmed s alarm).ciph.alarmResets + 1 } 8 2) := by
  show execCipherAlarm alarm s = _
  simp only [execCipherAlarm, if_neg (Nat.not_le.2 real), booting]
  rfl

theorem cipherAlarm_unknown (unknown : 5 ≤ alarm) : Does (.cipherAlarm alarm) s s :=
  congrArg Host.Outcome.next (if_pos unknown)

theorem alarmClearRecover_alone (alone : pairRole s = 0) :
    Does .alarmClearRecover s { s with ciph.alarms := 0 } :=
  congrArg Host.Outcome.next (if_pos (.inr (.inl alone)))

/-- The state of a paired twin that has its root again, in a session of its own (R305, R406). -/
def recovered (s : State) : State :=
  let t := sendFrame { s with ciph.alarms := 0, pair.session := true, pair.secret := freeVal s
                              pair.sessionId := freeVal (useFree s), free := s.free + 2 } 0 0x05 [0xE4]
  { t with ciph.root := t.ciph.stored, ciph.erased := false }

theorem alarmClearRecover_paired (paired : pairRole s ≠ 0) (erased : s.ciph.erased = true)
    (linked : s.pair.linkUp = true) (noAnswer : s.pair.ana = 3) : Does .alarmClearRecover s (recovered s) := by
  have mayRecover :
      ¬((!s.ciph.erased) = true ∨ pairRole { s with ciph.alarms := 0 } = 0 ∨ (!s.pair.linkUp) = true) := by
    rw [erased, linked]
    rintro (h | h | h)
    · cases h
    · exact paired h
    · cases h
  have ana : ¬(recovered s).pair.ana ≠ 3 := not_not.2 noAnswer
  exact congrArg Host.Outcome.next ((if_neg mayRecover).trans (if_neg ana))

end

/-- Settles O34: a grant by what the arbiter's choice finds, an alarm by where it comes, the recovery by the pair. -/
theorem cipherLanesDrawsAndAlarms : Obligations.CipherLanesDrawsAndAlarms := by
  unfold Obligations.CipherLanesDrawsAndAlarms
  refine ⟨fun s lane passed l r => ⟨fun urgent pick => ?_, cipherGrant_none, fun m => takeLane_free, laneReturn_passes,
    laneReturn_fails, entropyHealthFailure_stops, drbgReseed_passes, drbgReseed_fails⟩, fun s alarm => ⟨fun real => ?_,
    cipherAlarm_unknown, alarmClearRecover_alone, alarmClearRecover_paired⟩⟩
  · exact ⟨cipherGrant_link pick, cipherGrant_host pick, cipherGrant_refused pick, cipherGrant_discarded pick⟩
  · obtain ⟨root, erased, cache, alarms, loaded⟩ := alarmed_erases (s := s) (alarm := alarm)
    exact ⟨root, erased, cache, alarms, loaded, cipherAlarm_alone real, cipherAlarm_paired real,
      cipherAlarm_booting real⟩

end Sys2Proof.Machine

namespace Sys2Proof.Machine

open Sys2Proof

/-! Firmware Commit (R418 to R421): what each action does with a slot that exists. -/

section
variable {s : State} {a : Adm} {slot i : Nat} {f : ImageFacts} (served : AdminServed s a)
  (names : fwSlotIndex s slot = some i)
include served names

/-- An accepted image replaces the slot's, and is chosen where the action activates. -/
theorem fwStore_stores (valid : imageStatus s f = none) (choose : Bool) : fwStore s a slot f choose =
    (let t := { s with ciph.slots := s.ciph.slots.set i (slotOf f) }
     adminDone (if choose then { t with ciph.chosen := i } else t) a 0) := by
  simp only [fwStore, withAdmin_served served, names, valid, stOk]

theorem fwStore_fails {st : Nat} (fails : imageStatus s f = some st) (choose : Bool) :
    fwStore s a slot f choose = adminDone s a st := by
  simp only [fwStore, withAdmin_served served, names, fails]

theorem commitReplace_stores (valid : imageStatus s f = none) : Does (.firmwareCommitReplace a slot f) s
    (adminDone { s with ciph.slots := s.ciph.slots.set i (slotOf f) } a 0) :=
  congrArg Host.Outcome.next (fwStore_stores served names valid false)

theorem commitReplaceActivate_stores (valid : imageStatus s f = none) : Does (.firmwareCommitReplaceActivate a slot f) s
    (adminDone { s with ciph.slots := s.ciph.slots.set i (slotOf f), ciph.chosen := i } a 0) :=
  congrArg Host.Outcome.next (fwStore_stores served names valid true)

theorem commitReplace_fails {st : Nat} (fails : imageStatus s f = some st) :
    Does (.firmwareCommitReplace a slot f) s (adminDone s a st) :=
  congrArg Host.Outcome.next (fwStore_fails served names fails false)

theorem commitReplaceActivate_fails {st : Nat} (fails : imageStatus s f = some st) :
    Does (.firmwareCommitReplaceActivate a slot f) s (adminDone s a st) :=
  congrArg Host.Outcome.next (fwStore_fails served names fails true)

theorem commitActivate_chooses (valid : storedStatus s i = none) :
    Does (.firmwareCommitActivate a slot) s (adminDone { s with ciph.chosen := i } a 0) := by
  show execFirmwareCommitActivate a slot s = _
  simp only [execFirmwareCommitActivate, withAdmin_served served, names, valid, stOk]

theorem commitActivate_fails {st : Nat} (fails : storedStatus s i = some st) :
    Does (.firmwareCommitActivate a slot) s (adminDone s a st) := by
  show execFirmwareCommitActivate a slot s = _
  simp only [execFirmwareCommitActivate, withAdmin_served served, names, fails]

end

theorem commitImmediate_fails {s : State} {a : Adm} (served : AdminServed s a) :
    Does (.firmwareCommitImmediate a) s (adminDone s a 0x002) :=
  congrArg Host.Outcome.next (withAdmin_served served true _)

theorem raiseMinimum_raises {s : State} {v : Nat} (above : s.ciph.otpMin < v) (inRange : v ≤ 63) :
    Does (.raiseMinimum v) s { s with ciph.otpMin := v } :=
  congrArg Host.Outcome.next (if_neg (by omega))

theorem raiseMinimum_keeps {s : State} {v : Nat} (refused : v ≤ s.ciph.otpMin ∨ 63 < v) : Does (.raiseMinimum v) s s :=
  congrArg Host.Outcome.next (if_pos refused)

/-- Settles O35: each action by what the check of its image or of its slot answers. -/
theorem firmwareCommits : Obligations.FirmwareCommits := by
  unfold Obligations.FirmwareCommits
  intro s a slot i v f
  refine ⟨fun served names => ⟨fun valid => ?_, fun st fails => ?_, commitActivate_chooses served names,
    fun st => commitActivate_fails served names⟩, commitImmediate_fails, raiseMinimum_raises, raiseMinimum_keeps⟩
  · exact ⟨commitReplace_stores served names valid, commitReplaceActivate_stores served names valid⟩
  · exact ⟨commitReplace_fails served names fails, commitReplaceActivate_fails served names fails⟩

end Sys2Proof.Machine

namespace Sys2Proof.Machine

open Sys2Proof

/-! SPDM (R413 to R417): the answers of a device whose attestation is up. -/

section
variable {s : State} {b slot nonce c : Nat} (up : spdmUp s = true)
include up

theorem withSpdm_up (f : State → State) : withSpdm s f = f s := if_pos up

theorem negotiateAlgorithms_answers : Does (.negotiateAlgorithms b true true true true true) s
    (spdmOut { s with ciph.negotiated := addTo b s.ciph.negotiated } b 0x63 []) :=
  congrArg Host.Outcome.next (withSpdm_up up _)

theorem getCertificate_answers (chain : certChain s slot = some c) :
    Does (.getCertificate b slot) s (spdmOut s b 0x02 [slot, c]) := by
  show execGetCertificate b slot s = _
  simp only [execGetCertificate, withSpdm_up up, chain]

theorem challenge_answers (chain : certChain s slot = some c) (entropy : s.ciph.drbgOk = true) :
    Does (.challenge b slot nonce) s (spdmOut (useDraw s) b 0x03
      [slot, Config.sha384 0 c, draw s, signature (nonce + draw s * 2 ^ 256)]) := by
  show execChallenge b slot nonce s = _
  simp [execChallenge, withSpdm_up up, chain, entropy]

/-- One of the 16 digests, asked for alone and unsigned. -/
theorem getMeasurements_answers {i : Nat} (first : 1 ≤ i) (last : i ≤ 16) :
    Does (.getMeasurements b i nonce false) s (spdmOut s b 0x60 [i, 0x08, s.ciph.ms.getD (i - 1) 0]) := by
  have digest : measurement s i = some (0x08, s.ciph.ms.getD (i - 1) 0) := if_pos ⟨first, last⟩
  have notAll : i ≠ 0xFF := by omega
  have notCount : i ≠ 0 := by omega
  show execGetMeasurements b i nonce false s = _
  simp [execGetMeasurements, withSpdm_up up, digest, notAll, notCount]

theorem keyExchange_opens (secret : Nat) (free : sessionsFull s b = false) (entropy : s.ciph.drbgOk = true) :
    Does (.keyExchange b secret) s (spdmOut { useDraw s with ciph.sessions := s.ciph.sessions ++ [b] } b 0x64
      [draw (useDraw s), signature (draw (useDraw s))]) := by
  show execKeyExchange b secret s = _
  simp [execKeyExchange, withSpdm_up up, free, entropy]

/-- The end of a session takes it off the list, and the link of a link binding loses its session with it (R386). -/
theorem endSession_ends (inSession : b ∈ s.ciph.sessions) : Does (.endSession b) s (spdmOut
    (let t := { s with ciph.sessions := s.ciph.sessions.erase b }
     if b = 4 then { t with pair.session := false }
     else if 5 ≤ b then setMember t (b - 4) { member t (b - 4) with session := false } else t) b 0x6C []) := by
  show execEndSession b s = _
  simp [execEndSession, withSpdm_up up, inSession]

theorem endSession_local (inSession : b ∈ s.ciph.sessions) (noLink : b < 4) :
    Does (.endSession b) s (spdmOut { s with ciph.sessions := s.ciph.sessions.erase b } b 0x6C []) := by
  have ends := endSession_ends up inSession
  rwa [if_neg (show b ≠ 4 by omega), if_neg (show ¬5 ≤ b by omega)] at ends

theorem endSession_mirror (inSession : 4 ∈ s.ciph.sessions) : Does (.endSession 4) s
    (spdmOut { s with ciph.sessions := s.ciph.sessions.erase 4, pair.session := false } 4 0x6C []) :=
  endSession_ends up inSession

theorem endSession_cascade {p : Nat} (port : 1 ≤ p) (inSession : p + 4 ∈ s.ciph.sessions) : Does (.endSession (p + 4)) s
    (spdmOut (setMember { s with ciph.sessions := s.ciph.sessions.erase (p + 4) } p
      { member s p with session := false }) (p + 4) 0x6C []) := by
  have ends := endSession_ends up inSession
  rwa [if_neg (show p + 4 ≠ 4 by omega), if_pos (show 5 ≤ p + 4 by omega), Nat.add_sub_cancel] at ends

theorem setCertificate_writes (chain : Nat) (inSession : b ∈ s.ciph.sessions) :
    Does (.setCertificate b 1 chain identityKey true) s
      (spdmOut { s with ciph.slot1 := some chain } b 0x6E [1]) := by
  show execSetCertificate b 1 chain identityKey true s = _
  simp [execSetCertificate, withSpdm_up up, inSession]

theorem vendorDefinedRequest_answers {sequence : Nat} {r : BootRec} (found : recordOf s sequence = some r) :
    Does (.vendorDefinedRequest b 3 0x1F3B sequence) s (spdmOut s b 0x7E [0, r.value]) := by
  show execVendorDefinedRequest b 3 0x1F3B sequence s = _
  simp [execVendorDefinedRequest, withSpdm_up up, found]

end

/-- Settles O36: each request by the lemma of its answer. -/
theorem spdmAnswers : Obligations.SpdmAnswers := by
  unfold Obligations.SpdmAnswers
  intro s b slot nonce c up
  exact ⟨negotiateAlgorithms_answers up, getCertificate_answers up, challenge_answers up,
    fun i => getMeasurements_answers up, fun secret free entropy => ⟨_, keyExchange_opens up secret free entropy⟩,
    endSession_local up, endSession_mirror up, fun p => endSession_cascade up, setCertificate_writes up,
    fun sequence r => vendorDefinedRequest_answers up⟩

end Sys2Proof.Machine

namespace Sys2Proof.Machine

open Sys2Proof

/-! Stage 1 (R407, R543 to R548): where it halts, and what it hands over. -/

/-- The state in which stage 1 looks for a slot, with a valid loader and no failed logic partition. -/
def slotsRead (s : State) (f : BootFacts) : State :=
  readSlots { s with pins.pcieIdle := false, pins.i3cOn := true } f

section
variable {s : State} {f : BootFacts}

theorem stage1Loader_elsewhere (elsewhere : s.rst.life ≠ .stage0) : Does (.stage1Loader f) s s :=
  congrArg Host.Outcome.next (if_pos elsewhere)

theorem slotsRead_noFailed (noFailed : s.rst.logicFailed = 0) : failedPartitions (slotsRead s f) = [] := by
  simp [failedPartitions, slotsRead, readSlots, noFailed]

variable (stage0 : s.rst.life = .stage0)
include stage0

theorem stage1Loader_badLoader (bad : f.stage1Valid = false) :
    Does (.stage1Loader f) s (bootHalt { s with pins.pcieIdle := false } 0) :=
  congrArg Host.Outcome.next ((if_neg (not_not.2 stage0)).trans (if_pos (by simp [bad])))

variable (noFailed : s.rst.logicFailed = 0) (valid : f.stage1Valid = true)
include noFailed valid

/-- With a valid loader and no failed partition, stage 1 halts on the conditions of R546 and R547 or boots its slot. -/
theorem stage1Loader_loads : Does (.stage1Loader f) s
    (if 3 ≤ s.rst.bootFailures ∨ 3 ≤ s.ciph.alarmResets ∨ f.dramConfigOk = false ∨ f.dramRate = 0 then
      bootHalt (slotsRead s f) 1
    else match slotBooted (slotsRead s f) with
      | none => bootHalt (slotsRead s f) 1
      | some slot => stage1Run (slotsRead s f) f slot) := by
  refine congrArg Host.Outcome.next ((if_neg (not_not.2 stage0)).trans ((if_neg (by simp [valid])).trans ?_))
  show (let u := (failedPartitions (slotsRead s f)).foldl partitionOut (slotsRead s f)
    if (failedPartitions u).any haltPartitions.contains ∨ 3 ≤ u.rst.bootFailures ∨ 3 ≤ u.ciph.alarmResets ∨
      !f.dramConfigOk ∨ f.dramRate = 0 then bootHalt u 1
    else match slotBooted u with
      | none => bootHalt u 1
      | some slot => stage1Run u f slot) = _
  simp only [slotsRead_noFailed noFailed, List.foldl_nil, List.any_nil, Bool.false_eq_true, false_or,
    Bool.not_eq_true']
  rfl

theorem stage1Loader_halts (cannot : f.dramRate = 0 ∨ 3 ≤ s.rst.bootFailures) :
    Does (.stage1Loader f) s (bootHalt (slotsRead s f) 1) := by
  have loads := stage1Loader_loads stage0 noFailed valid
  rwa [if_pos (cannot.elim (.inr ∘ .inr ∘ .inr) .inl)] at loads

theorem stage1Loader_boots {slot : Nat} (rate : f.dramRate ≠ 0) (config : f.dramConfigOk = true)
    (fewFailures : s.rst.bootFailures < 3) (fewAlarms : s.ciph.alarmResets < 3)
    (found : slotBooted (readSlots s f) = some slot) :
    Does (.stage1Loader f) s (stage1Run (slotsRead s f) f slot) := by
  have loads := stage1Loader_loads stage0 noFailed valid
  have found' : slotBooted (slotsRead s f) = some slot := found
  rwa [if_neg (by simp [rate, config, fewFailures, fewAlarms]), found'] at loads

end

/-! Stage 2 (R393, R409 to R411, R540). -/

section
variable {s : State} {g : SealFacts}

/-- A lane found bad at boot is put out of service with an event; the reset state and the DRBG's health stay. -/
theorem badLanes_keep (l : List Nat) :
    let t := l.foldl (fun s l => loupe { s with ciph.badLanes := addTo l s.ciph.badLanes } 394 0x70 5 [l]) s
    t.rst = s.rst ∧ t.ciph.drbgOk = s.ciph.drbgOk :=
  foldl_holds (fun t => t.rst = s.rst ∧ t.ciph.drbgOk = s.ciph.drbgOk) _
    (fun t l kept => by rwa [(loupe_tells ..).rst, (loupe_tells ..).ciph]) l s ⟨rfl, rfl⟩

/-- Stage 2 captures and clears the causes, and leaves the boot record fresh and retained. -/
theorem stage2Run_says (s : State) (g : SealFacts) : (stage2Run s g).rst.life = .stage2 ∧
    (stage2Run s g).rst.captured = s.rst.cause ∧ (stage2Run s g).rst.cause = 0 ∧ (stage2Run s g).pins.hbOut = true ∧
    (stage2Run s g).ciph.drbgOk = s.ciph.drbgOk ∧ (stage2Run s g).ciph.fresh.isSome = true ∧
    (stage2Run s g).ciph.retained = (stage2Run s g).ciph.fresh := by
  obtain ⟨rst, drbgOk⟩ := badLanes_keep (s := s) g.badLanes
  exact ⟨rfl, congrArg (·.cause) rst, rfl, rfl, drbgOk, rfl, rfl⟩

variable (stage1 : s.rst.life = .stage1)
include stage1

theorem stage2Sealed_halts (bad : g.unitsOk = false) : Does (.stage2Sealed g) s (bootHalt s 2) :=
  congrArg Host.Outcome.next ((if_neg (not_not.2 stage1)).trans (if_pos (by simp [bad])))

theorem stage2Sealed_seals (units : g.unitsOk = true) (entropy : g.entropyOk = true) : Does (.stage2Sealed g) s
    (stage2Run { s with ciph.drbgOk := true, ciph.drbgUsed := 0 } g) :=
  congrArg Host.Outcome.next ((if_neg (not_not.2 stage1)).trans
    ((if_neg (by simp [units])).trans (if_neg (by simp [entropy]))))

end

/-! Stage 3, the boot halt and the maintenance request (R542, R547, R551). -/

section
variable {s : State}

theorem stage3Ftl_applies (stage2 : s.rst.life = .stage2) : ∃ t, Does .stage3Ftl s t ∧ t.rst.life = .stage3 ∧
    t.pins.ioApplied = true ∧ t.pins.clkreq = true ∧ t.zones = s.zones :=
  ⟨_, congrArg Host.Outcome.next (if_neg (not_not.2 stage2)), rfl, rfl, rfl, rfl⟩

theorem stage3Ftl_elsewhere (elsewhere : s.rst.life ≠ .stage2) : Does .stage3Ftl s s :=
  congrArg Host.Outcome.next (if_pos elsewhere)

theorem bootFailureClear_inHalt {n : Nat} (halted : s.rst.life = .halt n) :
    Does .bootFailureClear s { s with rst.bootFailures := 0 } :=
  congrArg Host.Outcome.next (if_pos (by simp [inHalt, halted]))

theorem bootFailureClear_inService (serving : s.rst.life = .service) : Does .bootFailureClear s s :=
  congrArg Host.Outcome.next (if_neg (by simp [inHalt, serving]))

end

/-- Settles O49: stage 1 by what it finds, stage 2 by its units and entropy, the rest by the state it comes in. -/
theorem bootStages : Obligations.BootStages := by
  unfold Obligations.BootStages
  intro s f g
  refine ⟨fun stage0 bad => ?_, fun stage0 noFailed valid cannot => ?_,
    fun slot stage0 noFailed valid rate config fewFailures fewAlarms found => ?_, stage1Loader_elsewhere,
    fun stage1 bad => ?_, fun stage1 units entropy => ?_, stage3Ftl_applies, stage3Ftl_elsewhere,
    fun n => bootFailureClear_inHalt, bootFailureClear_inService, rfl, rfl⟩
  · exact ⟨_, stage1Loader_badLoader stage0 bad, rfl, rfl, rfl, rfl⟩
  · exact ⟨_, stage1Loader_halts stage0 noFailed valid cannot, rfl, rfl⟩
  · exact ⟨_, stage1Loader_boots stage0 noFailed valid rate config fewFailures fewAlarms found, rfl, rfl⟩
  · exact ⟨_, stage2Sealed_halts stage1 bad, rfl, rfl⟩
  · exact ⟨_, stage2Sealed_seals stage1 units entropy, stage2Run_says _ g⟩

end Sys2Proof.Machine

namespace Sys2Proof.Machine

open Sys2Proof

/-! Loop instructions (R443 to R447). A command whose meaning is one loopStep has its body's effect where it is ready
(loopRuns); an accumulator or data word instruction is one whose body writes its value (accRuns, wordRuns). -/

section
variable {s : State} {k op : Nat} {w : Word32}

/-- A command that runs one loop instruction has its body's effect in the state where the instruction is counted. -/
theorem loopRuns {i : Instr} {body : State → Engine → State} {t : State} (ready : LoopReady s k op w)
    (means : exec i s = .next (loopStep s k op w body)) (effect : body (loopNext s k) (loopTicked s k) = t) :
    Does i s t := by
  rw [Does, means, loopStep_ready ready, effect]

theorem accRuns {i : Instr} {f : Engine → Int} {v : Int} (ready : LoopReady s k op w)
    (means : exec i s = .next (loopAcc k op w s f)) (value : f (loopTicked s k) = v) :
    Does i s (accWrites s k w v) := by
  rw [Does, means, loopAcc_ready ready, value]

theorem wordRuns {i : Instr} {f : Engine → Int} {v : Int} (ready : LoopReady s k op w) (writable : 0x20 ≤ lwM w)
    (means : exec i s = .next (loopWord k op w s f)) (value : f (loopTicked s k) = v) :
    Does i s (wordWrites s k w v) := by
  rw [Does, means, loopWord_ready ready writable, value]

/-! sha (R447): a left shift by 0 to 15, an arithmetic right shift by 1 to 16. -/

theorem sha_shiftsLeft (ready : LoopReady s k 0x07 w) (low : 0 ≤ lwXs w) (high : lwXs w ≤ 15) :
    Does (.sha k w) s (accWrites s k w ((eng s k).acc (lwA w) * 2 ^ (lwXs w).toNat)) :=
  accRuns ready (congrArg Host.Outcome.next (if_pos ⟨by omega, high⟩)) (if_pos low)

theorem sha_shiftsRight (ready : LoopReady s k 0x07 w) (low : -16 ≤ lwXs w) (high : lwXs w < 0) :
    Does (.sha k w) s (accWrites s k w (((eng s k).acc (lwA w)).fdiv (2 ^ (-lwXs w).toNat))) :=
  accRuns ready (congrArg Host.Outcome.next (if_pos ⟨low, by omega⟩)) (if_neg (Int.not_le.2 high))

/-! Data words (R444, R447). -/

theorem sts_stores (ready : LoopReady s k 0x08 w) (writable : 0x20 ≤ lwM w) :
    Does (.sts k w) s (let r := ((eng s k).acc (lwA w) + 2 ^ 14).fdiv (2 ^ 15)
      setEng (loopNext s k) k { loopTicked s k with
        d := kvPut 0 (lwM w) (max (-32768) (min 32767 r)) (eng s k).d
        s := (eng s k).s || (max (-32768) (min 32767 r) != r) }) := by
  refine loopRuns ready rfl ((if_neg (Nat.not_lt.2 writable)).trans ?_)
  rw [q15Sat_eq]
  rfl

theorem mov_protected (ready : LoopReady s k 0x0D w) (input : lwM w < 0x20) :
    Does (.mov k w) s (engineFault (loopNext s k) k 3) := loopRuns ready rfl (if_pos input)

/-! Branches (R447). -/

/-- A branch whose condition the spec defines takes no free value. -/
theorem br_decides {taken : Bool} (ready : LoopReady s k 0x0F w)
    (cond : loopCond (eng s k) ((eng s k).acc (lwA w)) (lwN w) = some taken) : Does (.loopBr k w) s
      (if !taken then loopNext s k
       else if loopLen (eng s k) ≤ lwX w then engineFault (loopNext s k) k 4
       else setEng (loopNext s k) k { loopTicked s k with pc := lwX w }) := by
  have same : loopCond (loopTicked s k) ((loopTicked s k).acc (lwA w)) (lwN w) = some taken := cond
  refine loopRuns ready rfl ?_
  dsimp only
  rw [same]
  rfl

theorem br_jumps (ready : LoopReady s k 0x0F w)
    (cond : loopCond (eng s k) ((eng s k).acc (lwA w)) (lwN w) = some true) (inCode : lwX w < loopLen (eng s k)) :
    Does (.loopBr k w) s (setEng (loopNext s k) k { loopTicked s k with pc := lwX w }) :=
  (br_decides ready cond).trans (congrArg Host.Outcome.next (if_neg (Nat.not_le.2 inCode)))

theorem br_pastCode (ready : LoopReady s k 0x0F w)
    (cond : loopCond (eng s k) ((eng s k).acc (lwA w)) (lwN w) = some true) (pastCode : loopLen (eng s k) ≤ lwX w) :
    Does (.loopBr k w) s (engineFault (loopNext s k) k 4) :=
  (br_decides ready cond).trans (congrArg Host.Outcome.next (if_pos pastCode))

/-! end (R443, R451): a shadow run is counted and gives nothing out, a run in service gives out its outputs. -/

theorem end_shadow (ready : LoopReady s k 0x1F w) (shadow : (eng s k).phase = 2) :
    Does (.loopEnd k w) s (setEng (loopNext s k) k { loopTicked s k with
      running := false, lastD := (eng s k).d, ticks := (eng s k).ticks + 1, shadow := (eng s k).shadow + 1 }) := by
  refine loopRuns ready rfl ?_
  simp only [shadow, if_true, if_neg (show ¬2 = 3 by decide)]

theorem end_givesOut (ready : LoopReady s k 0x1F w) (service : (eng s k).phase = 3) :
    Does (.loopEnd k w) s (loopOutputs (setEng (loopNext s k) k { loopTicked s k with
      running := false, lastD := (eng s k).d, ticks := (eng s k).ticks + 1 }) k (loopTicked s k)) := by
  refine loopRuns ready rfl ?_
  simp only [service, if_true, if_neg (show ¬3 = 2 by decide)]

end

/-- Settles O40: the accumulator instructions by accRuns, those that write a word by wordRuns, the others by their
bodies. -/
theorem loopInstructions : Obligations.LoopInstructions := by
  unfold Obligations.LoopInstructions
  refine ⟨fun s k w _ => ?accumulators, fun s k w _ => ?words, fun s k w _ => ?control⟩
  case accumulators =>
    exact ⟨fun ready => loopRuns ready rfl rfl, fun ready => accRuns ready rfl rfl, fun ready => accRuns ready rfl rfl,
      fun ready => accRuns ready rfl rfl, fun ready => accRuns ready rfl rfl, fun ready => accRuns ready rfl rfl,
      fun ready => accRuns ready rfl rfl, sha_shiftsLeft, sha_shiftsRight⟩
  case words =>
    exact ⟨sts_stores, fun ready writable => wordRuns ready writable rfl rfl,
      fun ready writable => wordRuns ready writable rfl rfl, fun ready writable => wordRuns ready writable rfl rfl,
      fun ready writable => wordRuns ready writable rfl rfl,
      fun ready writable => wordRuns ready writable rfl (q15Sat_eq _), mov_protected⟩
  case control =>
    exact ⟨fun ready => loopRuns ready rfl rfl, fun ready => loopRuns ready rfl rfl, br_jumps, br_pastCode, br_decides,
      end_shadow, end_givesOut⟩

end Sys2Proof.Machine

namespace Sys2Proof.Machine

open Sys2Proof

/-! The parts of a tick (R441, R442, R449). -/

section
variable {s : State} {k : Nat}

@[simp] theorem eng_setEng_self (s : State) (k : Nat) (v : Engine) : eng (setEng s k v) k = v := by
  by_cases zero : k = 0 <;> simp [eng, setEng, zero]

theorem eng_zero (s : State) : eng s 0 = s.loop.e0 := rfl

theorem eng_one (s : State) : eng s 1 = s.loop.e1 := rfl

theorem setEng_zero_e1 (s : State) (v : Engine) : (setEng s 0 v).loop.e1 = s.loop.e1 := rfl

theorem overrun_running (running : (eng s k).running = true) : overrun s k = engineFault s k 6 := if_pos running

theorem overrun_stopped (stopped : (eng s k).running = false) : overrun s k = s := if_neg (by simp [stopped])

theorem swapProgram_noImage (noImage : (eng s k).image = none) : swapProgram s k = s := by
  rw [swapProgram, noImage]

/-- An accepted program of engine 0 starts no run, and leaves engine 1, the mode and the free values. -/
theorem swapProgram_zero (s : State) : (eng (swapProgram s 0) 0).running = (eng s 0).running ∧
    (swapProgram s 0).loop.e1 = s.loop.e1 ∧ (swapProgram s 0).loop.mode = s.loop.mode ∧
    (swapProgram s 0).free = s.free := by
  unfold swapProgram
  split <;> exact ⟨rfl, rfl, rfl, rfl⟩

theorem startRun_starts (runs : (eng s k).phase = 2 ∨ (eng s k).phase = 3) : startRun s k = setEng s k
    { eng s k with running := true, pc := 0, count := 0, z := false, n := false, s := false, c := false } :=
  if_pos runs

theorem latch_zero (s : State) : latch s 0 =
    { s with loop.e0 := { s.loop.e0 with d := kvPutRun 0 0 (inputWords s 0) s.loop.e0.d } } := rfl

theorem latch_one (s : State) : latch s 1 =
    { s with loop.e1 := { s.loop.e1 with d := kvPutRun 0 0 (inputWords s 1) s.loop.e1.d } } := rfl

/-- A tick once the programs are swapped: both engines have their inputs, and the tick is counted. -/
def ticksOn (s : State) : State :=
  let t := latch (latch s 0) 1
  { t with free := t.free + 16, loop.e1.tickNo := t.loop.e1.tickNo + 1 }

theorem ticksOn_says (s : State) :
    eng (ticksOn s) 0 = { eng s 0 with d := kvPutRun 0 0 (inputWords s 0) (eng s 0).d } ∧
    (eng (ticksOn s) 1).running = (eng s 1).running ∧ (ticksOn s).loop.mode = s.loop.mode ∧
    (ticksOn s).loop.e1.tickNo = s.loop.e1.tickNo + 1 ∧ (ticksOn s).free = s.free + 16 := by
  simp only [ticksOn, latch_zero, latch_one, eng_zero, eng_one, and_self]

/-! The tick itself. -/

theorem loopTick_down (down : loopUp s = false) : Does .loopTick s s :=
  congrArg Host.Outcome.next (if_pos (by simp [down]))

/-- A tick of two stopped engines, of which engine 1 keeps its program. -/
theorem loopTick_stopped (up : loopUp s = true) (stopped0 : (eng s 0).running = false)
    (stopped1 : (eng s 1).running = false) (noImage1 : s.loop.e1.image = none) : Does .loopTick s
    (let t := ticksOn (swapProgram s 0)
     let t := if t.loop.mode = 0 then t else startRun t 0
     if t.loop.mode = 2 ∧ t.loop.e1.tickNo % (Nat.max 1 (od t 0x8200 0x02)) = 0 then startRun t 1 else t) := by
  have noImage : (eng (swapProgram s 0) 1).image = none := by
    obtain ⟨-, e1, -⟩ := swapProgram_zero s
    exact (congrArg Engine.image e1).trans noImage1
  refine congrArg Host.Outcome.next ((if_neg (by simp [up])).trans ?_)
  rw [overrun_stopped stopped0, overrun_stopped stopped1, swapProgram_noImage noImage]
  rfl

/-- With a fixed set-point no run starts; a program of engine 0 may come in. -/
theorem loopTick_fixed (up : loopUp s = true) (fixed : s.loop.mode = 0) (stopped0 : (eng s 0).running = false)
    (stopped1 : (eng s 1).running = false) (noImage1 : s.loop.e1.image = none) : ∃ t, Does .loopTick s t ∧
    (eng t 0).running = false ∧ (eng t 1).running = false ∧ t.loop.e1.tickNo = s.loop.e1.tickNo + 1 ∧
    t.free = s.free + 16 := by
  obtain ⟨running0, e1, mode, free⟩ := swapProgram_zero s
  obtain ⟨engine0, running1, mode', tickNo, free'⟩ := ticksOn_says (swapProgram s 0)
  have mode0 : (ticksOn (swapProgram s 0)).loop.mode = 0 := (mode'.trans mode).trans fixed
  have tick := loopTick_stopped up stopped0 stopped1 noImage1
  simp only [mode0, if_true] at tick
  rw [if_neg (by omega)] at tick
  refine ⟨_, tick, ?_, ?_, ?_, ?_⟩
  · rw [engine0, ← stopped0, ← running0]
  · rw [running1, ← stopped1]
    exact congrArg Engine.running e1
  · rw [tickNo, e1]
  · rw [free', free]

/-- In single mode engine 0 runs on the inputs it latched, and engine 1 does not. -/
theorem loopTick_single (up : loopUp s = true) (single : s.loop.mode = 1) (stopped0 : (eng s 0).running = false)
    (stopped1 : (eng s 1).running = false) (noImage0 : (eng s 0).image = none) (noImage1 : (eng s 1).image = none)
    (runs : (eng s 0).phase = 2 ∨ (eng s 0).phase = 3) : ∃ t, Does .loopTick s t ∧ (eng t 0).running = true ∧
    (eng t 0).pc = 0 ∧ (eng t 0).count = 0 ∧ (eng t 0).d = kvPutRun 0 0 (inputWords s 0) (eng s 0).d ∧
    (eng t 1).running = false ∧ t.loop.e1.tickNo = s.loop.e1.tickNo + 1 ∧ t.free = s.free + 16 := by
  obtain ⟨engine0, running1, mode, tickNo, free⟩ := ticksOn_says s
  have runs' : (eng (ticksOn s) 0).phase = 2 ∨ (eng (ticksOn s) 0).phase = 3 := by rwa [engine0]
  have tick := loopTick_stopped up stopped0 stopped1 noImage1
  simp only [swapProgram_noImage noImage0, mode, single, startRun_starts runs', setEng_loop_mode,
    one_ne_zero, OfNat.one_ne_ofNat, false_and, if_false] at tick
  refine ⟨_, tick, ?_⟩
  simp only [eng_setEng_self, engine0, eng_one, setEng_zero_e1, setEng_free, free, true_and, and_true]
  exact ⟨running1.trans stopped1, tickNo⟩

/-! Faults of a run, program loads and the return of an engine (R447 to R449, R451). -/

theorem loopOverrun_faults (running : (eng s k).running = true) : Does (.loopOverrun k) s (engineFault s k 6) :=
  congrArg Host.Outcome.next (overrun_running running)

theorem loopOverrun_none (stopped : (eng s k).running = false) : Does (.loopOverrun k) s s :=
  congrArg Host.Outcome.next (overrun_stopped stopped)

theorem instructionLimit_faults (running : (eng s k).running = true) (spent : 4096 ≤ (eng s k).count) :
    Does (.loopInstructionLimit k) s (engineFault s k 5) := congrArg Host.Outcome.next (if_pos ⟨running, spent⟩)

theorem programLoad_refused {image : Nat} (unacceptable : loopImageOk s k image = false) :
    Does (.loopProgramLoad k image) s (loupe s 212 0x82 4 [k]) :=
  congrArg Host.Outcome.next (if_neg (by simp [unacceptable]))

/-- An acceptable image waits for the tick, and is measured. -/
theorem programLoad_accepted {image : Nat} (acceptable : loopImageOk s k image = true) :
    Does (.loopProgramLoad k image) s (let dig := Config.sha384 (imgLen image) image
      extend (odSave (setEng s k { eng s k with image := some image }) 0x8210 0x06 k dig) 12 dig) :=
  congrArg Host.Outcome.next (if_pos acceptable)

@[simp] theorem extend_eng (s : State) (i d k : Nat) : eng (extend s i d) k = eng s k := rfl

theorem engineReturn_selfTests (out : (eng s k).phase = 4) :
    Does (.engineReturn k) s (setEng s k { eng s k with phase := 1, running := false }) :=
  congrArg Host.Outcome.next (if_pos (.inr out))

theorem selfTest_passes (selfTest : (eng s k).phase = 1) : Does (.engineSelfTestDone k (Config.goldenLoop k)) s
    (setEng s k { eng s k with
      phase := 2, shadow := 0, a1 := if k = 0 then s.loop.uInForce * 2 ^ 15 else (eng s k).a1 }) :=
  congrArg Host.Outcome.next ((if_neg (not_not.2 selfTest)).trans (if_pos rfl))

theorem selfTest_fails {g : Nat} (selfTest : (eng s k).phase = 1) (differs : g ≠ Config.goldenLoop k) :
    Does (.engineSelfTestDone k g) s
      (loupe (odSet (setEng s k { eng s k with phase := 0 }) 0x8210 0x04 k 7) 451 0x82 5 [k]) :=
  congrArg Host.Outcome.next ((if_neg (not_not.2 selfTest)).trans (if_neg differs))

theorem shadowDone_serves (shadow : (eng s k).phase = 2) (enough : 1024 ≤ (eng s k).shadow) :
    Does (.engineShadowDone k) s (setEng s k { eng s k with phase := 3, late := true }) :=
  congrArg Host.Outcome.next (if_pos ⟨shadow, enough⟩)

theorem shadowDone_waits (fewer : (eng s k).shadow < 1024) : Does (.engineShadowDone k) s s :=
  congrArg Host.Outcome.next (if_neg fun both => Nat.not_le.2 fewer both.2)

end

/-- Settles O41: the tick by the loop's mode, the rest by the engine's state. -/
theorem loopControl : Obligations.LoopControl := by
  unfold Obligations.LoopControl
  intro s k image _
  exact ⟨loopTick_down, loopTick_fixed, loopTick_single, loopOverrun_faults, loopOverrun_none, instructionLimit_faults,
    programLoad_refused, fun acceptable => ⟨_, programLoad_accepted acceptable, by simp⟩, engineReturn_selfTests,
    selfTest_passes, fun g => selfTest_fails, shadowDone_serves, fun _ => shadowDone_waits⟩

end Sys2Proof.Machine

namespace Sys2Proof.Machine

open Sys2Proof

/-! Level changes and the VDD regulator (R424, R579, R581). -/

section
variable {s : State}

/-- A change is driven with the window over both levels; the level in force stays. -/
theorem levelChangeStart_drives (idle : s.pwr.step = .idle) (changes : levelChoice s ≠ s.pwr.level)
    (awake : s.pwr.sleep = 0) : Does .levelChangeStart s
    (let u := setWindow s (Nat.min (levelMv (levelChoice s)) (levelMv s.pwr.level))
        (Nat.max (levelMv (levelChoice s)) (levelMv s.pwr.level))
     { u with pwr.target := levelChoice s, pwr.step := .voltage, pwr.prevVsel := s.pwr.vsel
              pwr.vsel := levelChoice s, pwr.clk := Nat.max s.pwr.clk (levelChoice s)
              pwr.bias := Nat.max s.pwr.bias (levelChoice s) }) :=
  congrArg Host.Outcome.next (if_neg (by simp [idle, changes, awake]))

theorem levelChangeStart_none (same : levelChoice s = s.pwr.level) : Does .levelChangeStart s s :=
  congrArg Host.Outcome.next (if_pos (.inr (.inl same)))

theorem vddPgRise_endsStep (voltage : s.pwr.step = .voltage) : Does .vddPgRise s (setWindow
    { s with pwr.vddPg := true, pwr.step := .bias } (levelMv s.pwr.target) (levelMv s.pwr.target)) :=
  congrArg Host.Outcome.next (if_pos voltage)

theorem vddPgRise_only (noStep : s.pwr.step ≠ .voltage) : Does .vddPgRise s { s with pwr.vddPg := true } :=
  congrArg Host.Outcome.next (if_neg noStep)

theorem levelChangeDone_takesEffect (bias : s.pwr.step = .bias) : Does .levelChangeDone s
    (odBump { s with pwr.level := s.pwr.target, pwr.clk := s.pwr.target, pwr.bias := s.pwr.target
                     pwr.step := .idle } 0x8000 0x05) :=
  congrArg Host.Outcome.next (if_neg (not_not.2 bias))

/-- The previous code is driven again, and the level in force becomes the fastest one. -/
theorem vddPgTimeout_fallsBack (voltage : s.pwr.step = .voltage) : ∃ t, Does .vddPgTimeout s t ∧
    t.pwr.level = s.pwr.level ∧ t.pwr.vsel = s.pwr.prevVsel ∧ t.pwr.step = .idle ∧ t.pwr.pgCap = s.pwr.level := by
  refine ⟨_, congrArg Host.Outcome.next (if_neg (not_not.2 voltage)), ?_⟩
  rw [(loupe_tells ..).pwr]
  exact ⟨rfl, rfl, rfl, rfl⟩

theorem vddPgTimeout_none (noStep : s.pwr.step ≠ .voltage) : Does .vddPgTimeout s s :=
  congrArg Host.Outcome.next (if_pos noStep)

theorem vddPgFall_tells (idle : s.pwr.step = .idle) :
    Does .vddPgFall s (loupe { s with pwr.vddPg := false } 579 0xB0 5 []) := congrArg Host.Outcome.next (if_pos idle)

theorem vddPgFall_only (changing : s.pwr.step ≠ .idle) : Does .vddPgFall s { s with pwr.vddPg := false } :=
  congrArg Host.Outcome.next (if_neg changing)

/-! PCAP_P (R440). -/

/-- A period of 10 µs to 1 ms, in 10 ns, is in band. -/
theorem inBand {period : Nat} (low : 1000 ≤ period) (high : period ≤ 100000) : ¬(period < 1000 ∨ 100000 < period) := by
  omega

theorem pcapEdge_measures {period : Nat} (high : Nat) (low : 1000 ≤ period) (most : period ≤ 100000)
    (valid : s.pwr.pcapCond = 0) : Does (.pcapPRisingEdge period high) s
    { s with pwr.pcapGood := s.pwr.pcapGood + 1, pwr.pcapCount := s.pwr.pcapCount + 1
             pwr.pcapSum := s.pwr.pcapSum + od s 0x8100 0x02 * 1000 +
               Nat.min high period * (od s 0x8100 0x03 - od s 0x8100 0x02) * 1000 / period } :=
  congrArg Host.Outcome.next ((if_neg (inBand low most)).trans (if_pos valid))

theorem pcapEdge_counts {period : Nat} (high : Nat) (low : 1000 ≤ period) (most : period ≤ 100000)
    (fallen : s.pwr.pcapCond ≠ 0) :
    Does (.pcapPRisingEdge period high) s { s with pwr.pcapGood := s.pwr.pcapGood + 1 } :=
  congrArg Host.Outcome.next ((if_neg (inBand low most)).trans (if_neg fallen))

theorem pcapEdge_outOfBand {period : Nat} (high : Nat) (out : period < 1000 ∨ 100000 < period) :
    Does (.pcapPRisingEdge period high) s (outOfBand s) := congrArg Host.Outcome.next (if_pos out)

theorem pcapFallback_fallsBack (outside : s.pwr.pcapCond = 1) (noCycle : s.pwr.pcapGood = 0) : Does .pcapPFallback s
    (loupe (odBump { s with pwr.pcapCond := 2 } 0x8100 0x07) 440 0x81 4 []) :=
  congrArg Host.Outcome.next (if_neg (by simp [outside, noCycle]))

theorem pcapRestore_restores (fallen : s.pwr.pcapCond ≠ 0) (enough : 16 ≤ s.pwr.pcapGood) : Does .pcapPRestore s
    (loupe { s with pwr.pcapCond := 0, pwr.pcapSum := 0, pwr.pcapCount := 0 } 440 0x81 2 []) :=
  congrArg Host.Outcome.next (if_neg (by omega))

theorem pcapRestore_waits (fewer : s.pwr.pcapGood < 16) : Does .pcapPRestore s s :=
  congrArg Host.Outcome.next (if_pos (.inr fewer))

end

/-- Settles O37: the regulator's events by the step of the change, those of PCAP_P by its condition. -/
theorem levelChangesAndPowerCap : Obligations.LevelChangesAndPowerCap := by
  unfold Obligations.LevelChangesAndPowerCap
  refine ⟨fun s => ?levels, fun s period high => ?powerCap⟩
  case levels =>
    exact ⟨fun idle changes awake =>
        ⟨_, levelChangeStart_drives idle changes awake, rfl, rfl, rfl, rfl, rfl, rfl, rfl, rfl, rfl⟩,
      levelChangeStart_none, vddPgRise_endsStep, vddPgRise_only, levelChangeDone_takesEffect, vddPgTimeout_fallsBack,
      vddPgTimeout_none, vddPgFall_tells, vddPgFall_only⟩
  case powerCap =>
    exact ⟨pcapEdge_measures high, pcapEdge_counts high, pcapEdge_outOfBand high, rfl, pcapFallback_fallsBack,
      pcapRestore_restores, pcapRestore_waits⟩

end Sys2Proof.Machine

namespace Sys2Proof.Machine

open Sys2Proof

/-! A refused management request (R432): the hold-off that the FTL would report is a free value (log entry 5), and the
refusal takes it whichever block refuses. -/

section
variable {s : State} {level b : Nat}

theorem managementSleep_refused (within : level ≤ 3) (refused : sleepRefused s level = some b) :
    Does (.managementSleepRequest level) s (useFree (rollBack s b (blockHoldOff b (freeVal s % 2 ^ 32)))) := by
  refine congrArg Host.Outcome.next ((if_neg (Nat.not_lt.2 within)).trans ?_)
  rw [requestSleep, refused]

/-- No state is one free value ahead of itself. -/
theorem useFree_ne (s : State) : useFree s ≠ s := fun same => absurd (congrArg State.free same) (Nat.succ_ne_self s.free)

/-- A device in service whose recorder still writes its entries out, which block 6 refuses SL1 for (R431). -/
def recorderFlushes : State := { State.reset with rst.life := .service, loupe.flushing := true }

theorem recorderFlushes_refuses : sleepRefused recorderFlushes 1 = some 6 := by decide

end

/-- Refutes O38: a refused management request also uses up a free value, which the statement's end state does not. The
recorder of recorderFlushes refuses SL1, and the state after the request has free 1 higher than the one stated. -/
theorem not_sleepAndWake : ¬ Obligations.SleepAndWake := by
  unfold Obligations.SleepAndWake
  rintro ⟨requests, -⟩
  obtain ⟨-, -, -, -, -, -, stated, -⟩ := requests recorderFlushes ⟨0, 0, 0, 0⟩ 0 1 0
  have does := managementSleep_refused (by decide) recorderFlushes_refuses
  have states := stated 6 (by decide) recorderFlushes_refuses
  exact useFree_ne _ (Host.Outcome.next.inj (does.symm.trans states))

end Sys2Proof.Machine

namespace Sys2Proof.Machine

open Sys2Proof

/-! The DRAM bytes stay in canonical form (R497). -/

/-- The idle step changes no byte, and the front command changes the bytes only as Moves says. -/
theorem step_keeps_canonical {s t : State} (canonical : kvWf 0 s.dram.mem) (steps : step s = .next t) :
    kvWf 0 t.dram.mem := by
  cases waiting : s.pending with
  | nil =>
    cases (step_idle waiting).symm.trans steps
    obtain ⟨-, sameBytes, -⟩ := idle_keeps s
    exact sameBytes ▸ canonical
  | cons c rest =>
    have does : Does c { s with pending := rest } t := by rwa [step, waiting] at steps
    obtain ⟨-, keepsForm, -⟩ := does_moves does
    exact keepsForm canonical

/-- Settles O58: a step with a command in front is that command's, and every command keeps the canonical form. -/
theorem dramStaysCanonical : Obligations.DramStaysCanonical := by
  unfold Obligations.DramStaysCanonical
  exact fun s t => step_keeps_canonical

end Sys2Proof.Machine

namespace Sys2Proof.Machine

open Sys2Proof

/-! The initialisation of a block (R503). -/

/-- The initialisation of a block changes the DRAM alone. -/
theorem initBlock_writes (s : State) (b : Nat) : ∃ d, initBlock s b = { s with dram := d } := by
  unfold initBlock
  split
  · exact ⟨s.dram, rfl⟩
  · exact ⟨_, rfl⟩

theorem initBlock_chans (s : State) (b : Nat) : (initBlock s b).dram.chans = s.dram.chans := by
  unfold initBlock
  split <;> rfl

/-- A block that was not ready reads zero; every other byte reads as before. -/
theorem initBlock_byte (s : State) (b a : Nat) : kvGet 0 a (initBlock s b).dram.mem =
    if a / 65536 = b ∧ blockReady s b = false then 0 else kvGet 0 a s.dram.mem := by
  cases ready : blockReady s b with
  | true => rw [initBlock_ready s b ready]; simp
  | false => rw [initBlock_mem s b ready, kvGet_filter 0 (fun k => k / 65536 != b)]; by_cases a / 65536 = b <;> simp [*]

theorem initBlock_canonical {s : State} (b : Nat) (canonical : kvWf 0 s.dram.mem) :
    kvWf 0 (initBlock s b).dram.mem := by
  obtain ⟨-, keepsForm, -⟩ := initBlock_moves s b
  exact keepsForm canonical

/-! A grant of a DRAM channel's arbiter (R497, R501, R511). -/

/-- The state in which the channel has chosen a request of class k: the rotation of the class has moved past its port,
and the port is promoted no more (R511). -/
def dramChosen (s : State) (ch k : Nat) (r : DramReq) : State :=
  setDchan s ch { dchan s ch with
    ptr := (dchan s ch).ptr.set k (r.req.port + 1)
    promoted := (dchan s ch).promoted.filter fun x => x != r.req.port }

/-- The state in which a chosen request meets its codeword: its block is initialised, its channel is awake, its rows have been opened, and the access is counted (R501 to R503, R513, R515). -/
def dramOpened (s : State) (r : DramReq) : State :=
  let l := dramLoc s.dram.ranks r.address
  let u := initBlock s (r.address / 65536)
  let c := useBurst (openRow (dchan u l.chan) l.bankNo l.row) l
  odBump (setDchan u l.chan { afterAccess (od u 0x9000 0x04) c l with state := 0 }) 0x9010 0x08 l.chan

section
variable {s : State} {ch k : Nat} {l : List DramReq} {r : DramReq}

theorem dramOpened_mem : (dramOpened s r).dram.mem = (initBlock s (r.address / 65536)).dram.mem := rfl

/-- Opening the codeword of a request changes the DRAM and a counter of the dictionary. -/
theorem dramOpened_writes : ∃ d o, dramOpened s r = { s with dram := d, dict := o } := by
  obtain ⟨d, writes⟩ := initBlock_writes s (r.address / 65536)
  unfold dramOpened
  dsimp only
  rw [writes]
  exact ⟨_, _, rfl⟩

theorem dramOpened_awake (chans : kvWf {} s.dram.chans) :
    (dchan (dramOpened s r) (dramLoc s.dram.ranks r.address).chan).state = 0 := by
  unfold dramOpened
  dsimp only
  rw [odBump_dchan, dchan_setDchan _ _ _ (by rw [initBlock_chans]; exact chans)]

/-- A write of a whole codeword is written, whatever the path code found there before (R501). -/
theorem dramServe_wholeWrite {data : List Byte} (write : r.write = some data) (aligned : r.address % 64 = 0)
    (whole : data.length = 64) (p : PathRes) : dramServe s r p = noteWritten { dramOpened s r with
      dram.mem := kvPutRun 0 r.address data (dramOpened s r).dram.mem } r.address 64 := by
  have covers : wholeWrite r.address r.write = true := by simp [wholeWrite, write, aligned, whole]
  have all : data.take (64 - r.address % 64) = data := List.take_of_length_le (by omega)
  refine (if_pos covers).trans ?_
  simp only [write, all, whole]
  rfl

/-- A clean read is delivered (R501, R527). -/
theorem dramServe_cleanRead (read : r.write = none) : dramServe s r .clean = { dramOpened s r with
    dram.delivered := some (r.req.port, r.req.id, deliver (dramOpened s r) r.req.port r.address) } := by
  refine (if_neg (by simp [wholeWrite, read])).trans ?_
  simp only [read]
  rfl

/-- The chosen request is served, whatever it asks for. -/
theorem dramRequestGrant_serves (awake : (dchan s ch).state < 2) (picked : dramPick (dchan s ch) l = some (r, k))
    (below : r.address < dramCapacity s) (here : (dramLoc s.dram.ranks r.address).chan = ch) (p : PathRes) :
    Does (.dramRequestGrant ch l p) s (dramServe (dramChosen s ch k r) r p) := by
  show execDramRequestGrant ch l p s = _
  unfold execDramRequestGrant
  simp only [picked]
  rw [if_neg (by omega), if_neg (by omega), if_neg (not_not.2 here)]
  rfl

theorem dramRequestGrant_beyond (awake : (dchan s ch).state < 2) (picked : dramPick (dchan s ch) l = some (r, k))
    (beyond : dramCapacity s ≤ r.address) (p : PathRes) :
    exec (.dramRequestGrant ch l p) s = .fault (.noSuchAddress r.address) := by
  show execDramRequestGrant ch l p s = _
  unfold execDramRequestGrant
  simp only [picked]
  rw [if_neg (by omega), if_pos beyond]

/-- The owner's note changes the pools alone (R527). -/
theorem noteWritten_writes (s : State) (a len : Nat) : ∃ q, noteWritten s a len = { s with pools := q } := by
  unfold noteWritten
  split
  · exact ⟨_, rfl⟩
  · exact ⟨s.pools, rfl⟩

/-- A written codeword lies at its address over the initialised block, and the write leaves zones, host and dies. -/
theorem dramServe_wholeWrite_says {data : List Byte} (write : r.write = some data) (aligned : r.address % 64 = 0)
    (whole : data.length = 64) (p : PathRes) :
    (dramServe s r p).dram.mem = kvPutRun 0 r.address data (initBlock s (r.address / 65536)).dram.mem ∧
      (dramServe s r p).zones = s.zones ∧ (dramServe s r p).host = s.host ∧ (dramServe s r p).dies = s.dies := by
  rw [dramServe_wholeWrite write aligned whole, ← dramOpened_mem (s := s) (r := r)]
  obtain ⟨d, o, opened⟩ := dramOpened_writes (s := s) (r := r)
  obtain ⟨q, noted⟩ := noteWritten_writes
    { dramOpened s r with dram.mem := kvPutRun 0 r.address data (dramOpened s r).dram.mem } r.address 64
  rw [noted, opened]
  exact ⟨rfl, rfl, rfl, rfl⟩

end

/-- Settles O42: the granted write is its run of bytes over the initialised block. -/
theorem dramWriteReadsBack : Obligations.DramWriteReadsBack := by
  unfold Obligations.DramWriteReadsBack
  intro s ch k l p r data canonical awake picked
  refine ⟨fun beyond => dramRequestGrant_beyond awake picked beyond p, fun below here write aligned whole => ?_⟩
  obtain ⟨mem, zones, host, dies⟩ :=
    dramServe_wholeWrite_says (s := dramChosen s ch k r) write aligned whole p
  have initialised : kvWf 0 (initBlock (dramChosen s ch k r) (r.address / 65536)).dram.mem :=
    initBlock_canonical _ canonical
  have outside : ∀ a, a < r.address ∨ r.address + 64 ≤ a →
      kvGet 0 a (dramServe (dramChosen s ch k r) r p).dram.mem =
        if a / 65536 = r.address / 65536 ∧ blockReady s (r.address / 65536) = false then 0
        else kvGet 0 a s.dram.mem := fun a apart => by
    rw [mem, kvGet_putRun_other _ _ _ _ _ initialised (by rwa [whole]), initBlock_byte]
    rfl
  refine ⟨_, dramRequestGrant_serves awake picked below here p, fun i inside => ?_, fun a apart kept => ?_,
    fun a apart inBlock fresh => ?_, zones, host, dies⟩
  · rw [mem]
    exact kvGet_putRun_self _ _ _ _ _ initialised inside
  · rw [outside a apart, if_neg]
    rintro ⟨inBlock, fresh⟩
    exact kept.elim (· inBlock) (by simp [fresh])
  · rw [outside a apart, if_pos ⟨inBlock, fresh⟩]

end Sys2Proof.Machine

namespace Sys2Proof.Machine

open Sys2Proof

/-! A granted clean read (R501, R515, R527). -/

section
variable {s : State} {ch k : Nat} {l : List DramReq} {r : DramReq}

/-- A clean read of an initialised block changes no byte and delivers what its port may see. -/
theorem dramServe_cleanRead_says (read : r.write = none) (ready : blockReady s (r.address / 65536) = true) :
    (dramServe s r .clean).dram.mem = s.dram.mem ∧
      (dramServe s r .clean).dram.delivered = some (r.req.port, r.req.id, deliver s r.req.port r.address) := by
  have mem : (dramOpened s r).dram.mem = s.dram.mem := by rw [dramOpened_mem, initBlock_ready _ _ ready]
  have pools : (dramOpened s r).pools = s.pools := by
    obtain ⟨d, o, opened⟩ := dramOpened_writes (s := s) (r := r)
    rw [opened]
  rw [dramServe_cleanRead read, deliver_of _ _ mem pools]
  exact ⟨mem, rfl⟩

theorem dramServe_cleanRead_awake (read : r.write = none) (chans : kvWf {} s.dram.chans) :
    (dchan (dramServe s r .clean) (dramLoc s.dram.ranks r.address).chan).state = 0 := by
  rw [dramServe_cleanRead read]
  exact dramOpened_awake chans

theorem dramChosen_chans (chans : kvWf {} s.dram.chans) : kvWf {} (dramChosen s ch k r).dram.chans :=
  kvWf_put _ _ _ _ chans

end

/-! The upkeep of a channel (R494, R503, R506, R511 to R515). -/

section
variable {s : State} {ch : Nat}

theorem agePromotion_promotes {port : Nat} (waits : (dchan s ch).promoted.contains port = false) :
    Does (.agePromotion ch port) s (odBump (setDchan s ch
      { dchan s ch with promoted := (dchan s ch).promoted ++ [port] }) 0x9010 0x09 ch) :=
  congrArg Host.Outcome.next (if_neg (by rw [waits]; decide))

theorem agePromotion_again {port : Nat} (promoted : (dchan s ch).promoted.contains port = true) :
    Does (.agePromotion ch port) s s :=
  congrArg Host.Outcome.next (if_pos promoted)

theorem dramRefresh_closes {bank : Nat} (lim : Bool) (awake : (dchan s ch).state ≠ 1) :
    Does (.dramRefresh ch bank lim) s (setDchan s ch { dchan s ch with
      open_ := kvPut 0 bank 0 (dchan s ch).open_, refreshes := (dchan s ch).refreshes + 1 }) :=
  congrArg Host.Outcome.next (if_neg awake)

theorem dramRefresh_asleep {bank : Nat} (lim : Bool) (asleep : (dchan s ch).state = 1) :
    Does (.dramRefresh ch bank lim) s s :=
  congrArg Host.Outcome.next (if_pos asleep)

theorem selfRefreshEntry_enters (enabled : od s 0x9000 0x05 ≠ 0) (idle : (dchan s ch).state = 0)
    (notDue : (dchan s ch).retrain = false) (running : s.power.hold = .running) :
    Does (.selfRefreshEntry ch) s
      (odBump (setDchan s ch { dchan s ch with state := 1, open_ := [] }) 0x9010 0x05 ch) :=
  congrArg Host.Outcome.next (if_neg (by simp [enabled, idle, notDue, running]))

theorem dramInitBlock_inits {block : Nat} (below : block * 65536 < dramCapacity s) :
    Does (.dramInitBlock block) s (initBlock s block) := if_neg (Nat.not_le.2 below)

theorem dramInitBlock_beyond {block : Nat} (beyond : dramCapacity s ≤ block * 65536) :
    exec (.dramInitBlock block) s = .fault (.noSuchAddress (block * 65536)) := if_pos beyond

/-- A clean scrub read at most takes its channel out of self-refresh. -/
theorem scrubRead_clean {a : Nat} (below : a < dramCapacity s) (ready : blockReady s (a / 65536) = true) :
    Does (.scrubRead a .clean false) s
      (if (dchan s (dramLoc s.dram.ranks a).chan).state = 1 then setDchan s (dramLoc s.dram.ranks a).chan
          { dchan s (dramLoc s.dram.ranks a).chan with state := 0 } else s) :=
  (if_neg (Nat.not_le.2 below)).trans (if_neg (by simp [ready]))

theorem scrubRead_beyond {a : Nat} (beyond : dramCapacity s ≤ a) :
    exec (.scrubRead a .clean false) s = .fault (.noSuchAddress a) := if_pos beyond

end

/-- Settles O43: the read by what it delivers, each event of the upkeep by its lemma. -/
theorem dramReadsAndUpkeep : Obligations.DramReadsAndUpkeep := by
  unfold Obligations.DramReadsAndUpkeep
  refine ⟨fun s ch k l r awake picked below here read ready => ?read, fun s ch port bank code block a lim => ?upkeep⟩
  case read =>
    obtain ⟨mem, delivered⟩ := dramServe_cleanRead_says (s := dramChosen s ch k r) read ready
    have sees : deliver (dramChosen s ch k r) r.req.port r.address = deliver s r.req.port r.address :=
      deliver_of _ _ rfl rfl
    rw [sees] at delivered
    refine ⟨_, dramRequestGrant_serves awake picked below here .clean, mem, delivered, fun within => ?_,
      fun chans => ?_⟩
    · rw [delivered, deliver_within s _ _ within]
    · have woken := dramServe_cleanRead_awake read (dramChosen_chans (ch := ch) (k := k) (r := r) chans)
      rwa [show (dramLoc (dramChosen s ch k r).dram.ranks r.address).chan = ch from here] at woken
  case upkeep =>
    refine ⟨agePromotion_promotes, agePromotion_again, rfl, dramRefresh_closes lim, dramRefresh_asleep lim, rfl,
      selfRefreshEntry_enters, fun below fresh canonical => ?_, fun below ready => ?_, scrubRead_beyond,
      dramInitBlock_beyond⟩
    · refine ⟨_, dramInitBlock_inits below, fun x inBlock => ?_, fun x apart => ?_⟩
      · rw [initBlock_byte, if_pos ⟨inBlock, fresh⟩]
      · rw [initBlock_byte, if_neg fun inside => apart inside.1]
    · refine ⟨_, scrubRead_clean below ready, ?_, ?_⟩ <;> split <;> rfl

end Sys2Proof.Machine

namespace Sys2Proof.Machine

open Sys2Proof

/-! Retraining (R516 to R518). -/

section
variable {s : State} {ch : Nat}

/-- The retrain that a start leaves at its channel: a new one, or the one still due, which is late now. -/
def retrainDue (c : DChan) : DChan :=
  if c.retrain then { c with late := true } else { c with retrain := true, pauses := 0, again := false, late := false }

theorem retrainDue_retrain (c : DChan) : (retrainDue c).retrain = true := by
  unfold retrainDue
  split
  · assumption
  · rfl

theorem retrainStart_starts (s : State) : Does .retrainStart s (setDchan
    { s with dram.nextRetrain := (s.dram.nextRetrain + 1) % 8 } s.dram.nextRetrain
    (retrainDue (dchan s s.dram.nextRetrain))) := rfl

/-- What a pause that is taken leaves, by the pauses before it. -/
def pauseTaken (s : State) (ch : Nat) (drift : Int) (inRange : Bool) (c : DChan) : State :=
  match c.pauses with
  | 0 => setDchan s ch { c with pauses := 1 }
  | 1 =>
    if inRange then setDchan (odSet s 0x9010 0x06 ch (ofSigned 16 drift)) ch { c with pauses := 2 }
    else if !c.again then setDchan s ch { c with pauses := 0, again := true }
    else loupe (setDchan s ch { c with state := 3 }) 518 0x90 5 [ch]
  | _ => retrainDone s ch

section
variable (due : (dchan s ch).retrain = true) (notFull : (dchan s ch).state ≠ 3) (running : s.power.hold = .running)
include due notFull running

/-- With no burst of class 0 waiting, a pause is taken. -/
theorem retrainPause_takes (drift : Int) (inRange : Bool) : Does (.retrainPause ch false drift inRange) s
    (pauseTaken s ch drift inRange (dchan s ch)) :=
  congrArg Host.Outcome.next (if_neg (by simp [due, notFull, running]))

/-- A late pause is taken before a burst of class 0, which is counted. -/
theorem retrainPause_late (late : (dchan s ch).late = true) (drift : Int) (inRange : Bool) :
    Does (.retrainPause ch true drift inRange) s
      (pauseTaken (odBump s 0x9010 0x03 ch) ch drift inRange (dchan s ch)) :=
  congrArg Host.Outcome.next (if_neg (by simp [due, notFull, running, late]))

end

/-- A burst of class 0 goes before a pause that is not late. -/
theorem retrainPause_gives (notLate : (dchan s ch).late = false) (drift : Int) (inRange : Bool) :
    Does (.retrainPause ch true drift inRange) s s :=
  congrArg Host.Outcome.next (if_pos (by simp [notLate]))

theorem fullRetraining_fails (full : (dchan s ch).state = 3) :
    Does (.fullRetraining ch false) s (raise (loupe s 518 0x90 7 [ch]) 8 4) :=
  congrArg Host.Outcome.next (if_neg (not_not.2 full))

theorem fullRetraining_passes (full : (dchan s ch).state = 3) :
    Does (.fullRetraining ch true) s (retrainDone (setDchan s ch { dchan s ch with again := false }) ch) :=
  congrArg Host.Outcome.next (if_neg (not_not.2 full))

theorem fullRetraining_notAsked (notFull : (dchan s ch).state ≠ 3) (ok : Bool) : Does (.fullRetraining ch ok) s s :=
  congrArg Host.Outcome.next (if_pos notFull)

/-- A retrain that is over leaves its channel in service with none due. -/
theorem retrainDone_dchan (chans : kvWf {} s.dram.chans) : dchan (retrainDone s ch) ch =
    { dchan s ch with retrain := false, pauses := 0, again := false, late := false, state := 0 } := by
  refine dchan_setDchan _ ch _ ?_
  show kvWf {} (if (dchan s ch).again then _ else _ : State).dram.chans
  split
  · rw [(loupe_tells ..).dram]
    exact chans
  · exact chans

end

/-- Settles O44: the start by what it leaves due, a pause by the pauses before it, the full retraining by its end. -/
theorem dramRetraining : Obligations.DramRetraining := by
  unfold Obligations.DramRetraining
  intro s ch drift chans
  refine ⟨⟨_, retrainStart_starts s, rfl, ?starts, rfl⟩, fun due notFull running => ?pauses, fullRetraining_fails,
    fun full => ?passes, fullRetraining_notAsked⟩
  case starts => exact (congrArg DChan.retrain (dchan_setDchan _ _ _ chans)).trans (retrainDue_retrain _)
  case pauses =>
    have takes := retrainPause_takes due notFull running drift
    refine ⟨fun first => ?_, fun second => ?_, fun second once => ?_, fun second again => ?_, fun first late => ?_,
      fun notLate => retrainPause_gives notLate drift true, fun third => ?_⟩
    · simpa [pauseTaken, first] using takes true
    · simpa [pauseTaken, second] using takes true
    · simpa [pauseTaken, second, once] using takes false
    · simpa [pauseTaken, second, again] using takes false
    · simpa [pauseTaken, first] using retrainPause_late due notFull running late drift true
    · simpa [pauseTaken, third] using takes true
  case passes =>
    have done := retrainDone_dchan (s := setDchan s ch { dchan s ch with again := false }) (ch := ch)
      (kvWf_put _ _ _ _ chans)
    exact ⟨_, fullRetraining_passes full, by rw [done], by rw [done]⟩

end Sys2Proof.Machine

namespace Sys2Proof.Machine

open Sys2Proof

/-! Allocation, returns, rebuilds and timeouts of the buffer pools (R508, R522, R524 to R526, R529). -/

section
variable {s : State} {p : Nat}

theorem bufferAllocate_picks {l : List Req} {r : Req}
    (picked : poolPick (pool (poolWait s p l) p) (pool (poolWait s p l) p).waiting = some r) (ok : Bool) :
    Does (.bufferAllocate p l ok) s (updatePool (poolGrant (poolWait s p l) p r ok) p) := by
  show execBufferAllocate p l ok s = _
  simp only [execBufferAllocate, picked]

theorem bufferAllocate_waits {l : List Req}
    (noPick : poolPick (pool (poolWait s p l) p) (pool (poolWait s p l) p).waiting = none) (ok : Bool) :
    Does (.bufferAllocate p l ok) s (updatePool (poolWait s p l) p) := by
  show execBufferAllocate p l ok s = _
  simp only [execBufferAllocate, noPick]

/-- A request of a tier that is not being rebuilt takes the head of its list, and waits no more. -/
theorem poolGrant_takes {r : Req} {c : Nat} {x : Tier} (whole : ((pool s p).tier (tierOf s p r.cls)).rebuilding = false)
    (taken : ((pool s p).tier (tierOf s p r.cls)).take r.cls = some (c, x)) :
    poolGrant s p r true = setPool s p (let v := (pool s p).setTier (tierOf s p r.cls) x
      { v with ptr := v.ptr.set r.cls (r.port + 1), waiting := v.waiting.filter fun q => q != r
               urgent := if v.urgent = some r then none else v.urgent }) := by
  unfold poolGrant
  dsimp only
  rw [if_neg (by simp [whole]), taken]
  rfl

/-- A returned buffer is out of its pool no more; it goes to the head of its list, or out of use where it is faulty. -/
def tierReturned (x : Tier) (b : Nat) (faulty : Bool) : Tier :=
  { x with allocated := kvPut 0 b 0 x.allocated
           stack := if faulty then x.stack else b :: x.stack
           removed := if faulty then addTo b x.removed else x.removed }

section
variable {a t b : Nat} (found : bufferAt (pool s p) p a = some (t, b))
  (isOut : kvGet 0 b ((pool s p).tier t).allocated ≠ 0) (noneToRemove : ((pool s p).tier t).toRemove = [])
include found isOut noneToRemove

/-- A return changes its pool, and counts a faulty staging buffer. -/
theorem bufferReturn_returns (who : Nat) (faulty : Bool) (uncounted : ¬(faulty = true ∧ t = 0)) :
    Does (.bufferReturn p a who faulty) s
      (updatePool (setPool s p ((pool s p).setTier t (tierReturned ((pool s p).tier t) b faulty))) p) := by
  show execBufferReturn p a who faulty s = _
  unfold execBufferReturn tierReturned
  simp only [found, isOut, if_false, noneToRemove, List.contains_nil, Bool.or_false, List.filter_nil, uncounted]

end

theorem bufferReturn_unknown {a : Nat} (unknown : bufferAt (pool s p) p a = none) (who : Nat) (faulty : Bool) :
    Does (.bufferReturn p a who faulty) s (loupe (odBump s 0x9200 0x0E p) 524 0x92 6 [p, who]) := by
  show execBufferReturn p a who faulty s = _
  simp only [execBufferReturn, unknown]

theorem freeListRebuildDone_rebuilds {t : Nat} (rebuilding : ((pool s p).tier t).rebuilding = true) :
    Does (.freeListRebuildDone p t) s (setPool s p ((pool s p).setTier t { (pool s p).tier t with
      rebuilding := false
      stack := (List.range ((pool s p).tier t).fresh).filter fun b =>
        kvGet 0 b ((pool s p).tier t).allocated == 0 && !((pool s p).tier t).removed.contains b })) :=
  congrArg Host.Outcome.next (if_neg (by simp [rebuilding]))

theorem freeListRebuildDone_none {t : Nat} (whole : ((pool s p).tier t).rebuilding = false) :
    Does (.freeListRebuildDone p t) s s :=
  congrArg Host.Outcome.next (if_pos (by simp [whole]))

section
variable {r : Req} (waits : (pool s p).waiting.contains r = true)
include waits

/-- A request of class 0 that has waited too long is the arbiter's next. -/
theorem bufferWaitTimeout_urgent (urgent : r.cls = 0) (rid : Nat) : Does (.bufferWaitTimeout p r rid) s
    (loupe (setPool (odBump s 0x9200 0x0C p) p { pool s p with urgent := some r }) 529 0x92 6 [p, r.port]) := by
  refine congrArg Host.Outcome.next ((if_neg (by rw [waits]; decide)).trans ?_)
  simp only [urgent]

/-- A host read that has waited too long for its buffer ends with Command Interrupted. -/
theorem bufferWaitTimeout_interrupts (ofRead : r.cls = 1) {rid : Nat} {k : Cmd} (found : cmd? s rid = some k) :
    Does (.bufferWaitTimeout p r rid) s
      (let u := odBump s 0x9200 0x0C p
       let u := setPool u p { pool u p with waiting := (pool u p).waiting.filter fun q => q != r }
       finishCmd { u with reads := u.reads.filter fun x => x.rid != rid } { k with status := 0x021 }) := by
  refine congrArg Host.Outcome.next ((if_neg (by rw [waits]; decide)).trans ?_)
  simp only [ofRead, setPool_cmdOpt, odBump_cmdOpt, found]

end

theorem bufferWaitTimeout_gone {r : Req} (gone : (pool s p).waiting.contains r = false) (rid : Nat) :
    Does (.bufferWaitTimeout p r rid) s s :=
  congrArg Host.Outcome.next (if_pos (by rw [gone]; rfl))

end

/-- Settles O45: a grant by the arbiter's choice, a return by the buffer's state, a timeout by the request's class. -/
theorem bufferPools : Obligations.BufferPools := by
  unfold Obligations.BufferPools
  intro s p l ok r a who t b rid
  exact ⟨fun picked => bufferAllocate_picks picked ok, fun noPick => bufferAllocate_waits noPick ok,
    fun found isOut noneToRemove => bufferReturn_returns found isOut noneToRemove who false (by simp),
    fun unknown => bufferReturn_unknown unknown who false, freeListRebuildDone_rebuilds, freeListRebuildDone_none,
    fun waits urgent => bufferWaitTimeout_urgent waits urgent rid,
    fun k waits ofRead found => bufferWaitTimeout_interrupts waits ofRead found,
    fun gone => bufferWaitTimeout_gone gone rid,
    fun found isOut noneToRemove => bufferReturn_returns found isOut noneToRemove who true (by simp),
    fun u x c => poolGrant_takes⟩

end Sys2Proof.Machine

namespace Sys2Proof.Machine

open Sys2Proof

/-! What the start of a hold-up leaves of the PCIe lanes (R258, R261): they stay as they are. -/

/-- The PCIe lanes stay as they are. -/
def KeepsLanes (s t : State) : Prop := t.pins.pcieIdle = s.pins.pcieIdle

theorem KeepsLanes.trans {s t u : State} (h : KeepsLanes s t) (k : KeepsLanes t u) : KeepsLanes s u := Eq.trans k h

theorem KeepsLanes.ite {s a b : State} (c : Prop) [Decidable c] (ha : KeepsLanes s a) (hb : KeepsLanes s b) :
    KeepsLanes s (if c then a else b) := by split <;> assumption

theorem keepsLanes_of_pins {s t : State} (same : t.pins = s.pins) : KeepsLanes s t := congrArg Pins.pcieIdle same

theorem keepsLanes_foldl {α : Type} (f : State → α → State) (h : ∀ s a, KeepsLanes s (f s a)) (l : List α) (s : State) :
    KeepsLanes s (l.foldl f s) :=
  foldl_holds (KeepsLanes s) f (fun t a kept => kept.trans (h t a)) l s rfl

theorem loupeLive_keepsLanes (s : State) (e : LEntry) : KeepsLanes s (loupeLive s e) := by
  obtain ⟨l, writes⟩ := loupeLive_writes s e
  rw [writes]; rfl

theorem loupeKeep_keepsLanes (s : State) (e : LEntry) : KeepsLanes s (loupeKeep s e) := by
  obtain ⟨l, writes⟩ := loupeKeep_writes s e
  rw [writes]; rfl

/-- Of the pins, an event drives ALERT# and LED0 at most. -/
theorem loupe_keepsLanes (s : State) (rule subject sev : Nat) (detail : List Nat) :
    KeepsLanes s (loupe s rule subject sev detail) := by
  unfold loupe loupeEntry
  extract_lets acts e _ numbered _ live kept _ alerted _ flushing _ told _ stamped counted _
  have stored : KeepsLanes s live := loupeLive_keepsLanes numbered e
  have copied : KeepsLanes s kept := .ite _ (stored.trans (loupeKeep_keepsLanes live e)) stored
  have alert : KeepsLanes s alerted := .ite _ copied copied
  have flush : KeepsLanes s flushing := .ite _ alert alert
  have telemetry : KeepsLanes s told := .ite _ flush flush
  have fault : KeepsLanes s stamped := .ite _ telemetry telemetry
  have trigger : KeepsLanes s counted := by
    show KeepsLanes s (match matchTrigger s (eventCode subject rule) sev with | some t => _ | none => _)
    split <;> exact fault
  exact .ite _ rfl (.ite _ trigger trigger)

theorem aen_keepsLanes (s : State) (n etype info : Nat) : KeepsLanes s (aen s n etype info) := by
  have marked : ∀ (t : State) (r : Nat × Nat), KeepsLanes t (answerAer t n r etype info) := fun t r => by
    obtain ⟨f, d, writes⟩ := dmaWrite_marks t n 0xFFFFFFFF r.2 16
    unfold answerAer
    rw [writes]; rfl
  unfold aen
  dsimp only
  split
  · exact marked _ _
  · rfl

theorem updateGroup_keepsLanes (s : State) (g : Nat) : KeepsLanes s (updateGroup s g) := by
  have suspends : ∀ (t : State) (v : Group) (detail : List Nat), KeepsLanes s t →
      KeepsLanes s (loupe (setGrp t g v) 200 0x31 5 detail) :=
    fun t v detail kept => kept.trans (loupe_keepsLanes (setGrp t g v) 200 0x31 5 detail)
  unfold updateGroup
  extract_lets gr c marked gr'
  have kept : KeepsLanes s marked := .ite _ rfl rfl
  exact .ite _ rfl (.ite _ (suspends _ _ _ kept) (.ite _ (suspends _ _ _ kept) kept))

theorem updateGroups_keepsLanes (s : State) (gs : List Nat) : KeepsLanes s (updateGroups s gs) := by
  refine (keepsLanes_foldl _ updateGroup_keepsLanes gs s).trans (keepsLanes_foldl _ (fun t l => ?_) _ _)
  exact .ite _ (aen_keepsLanes (setFn t l _) l 7 2) (.ite _ (.ite _ (aen_keepsLanes (setFn t l _) l 7 3) rfl) rfl)

theorem sealRecord_keepsLanes (s : State) (asn status check : Nat) : KeepsLanes s (sealRecord s asn status check) := by
  unfold sealRecord
  dsimp only
  refine .ite _ ?_ rfl
  split
  · obtain ⟨-, -, -, pins⟩ := sendFrame_says (copyLedger _) 0 0x11 [recImage _]
    exact keepsLanes_of_pins pins
  · rfl

theorem holdCmdEnd_keepsLanes (s : State) (k : Cmd) : KeepsLanes s (holdCmdEnd s k) := by
  unfold holdCmdEnd
  split
  · exact .ite _ (sealRecord_keepsLanes ..) rfl
  · rfl

theorem holdStart_keepsLanes (s : State) (h : Hold) : KeepsLanes s (holdStart s h) := by
  obtain ⟨l, parts⟩ := holdStart_eq s h
  obtain ⟨-, -, -, notice⟩ := holdNotice_says (holdStops (s.host.cmds.foldl holdCmdEnd s) h)
  have stops : KeepsLanes s (holdStops (s.host.cmds.foldl holdCmdEnd s) h) :=
    keepsLanes_foldl _ holdCmdEnd_keepsLanes s.host.cmds s
  rw [parts]
  exact (stops.trans (keepsLanes_of_pins notice)).trans (updateGroups_keepsLanes _ l)

end Sys2Proof.Machine

namespace Sys2Proof.Machine

open Sys2Proof

/-! Raising a reset source (R532, R534, R539, R540, R547). -/

section
variable {s : State} {b sub : Nat}

theorem testBit_setBit_self (b n : Nat) : (setBit b n).testBit b = true := by
  simp [setBit, Nat.testBit_or, Nat.testBit_shiftLeft]

/-- The state in which a source other than power-on and the AON brown-out has been noted: its level, its boot failure,
its cause bit and sub-cause. -/
def sourceNoted (s : State) (b sub : Nat) : State :=
  setCause (countFailure (if heldSource b then { s with rst.asserted := setBit b s.rst.asserted } else s) b) b sub

/-- What noting a source leaves of the reset controller. -/
def rstNoted (r : Reset) (b sub : Nat) : Reset :=
  { r with
    asserted := if heldSource b then setBit b r.asserted else r.asserted
    bootFailures := if (b = 8 ∨ b = 4) ∧ r.recordDurable = false ∧ r.life ≠ .inReset then r.bootFailures + 1
      else r.bootFailures
    cause := setBit b r.cause + if b = 8 ∧ r.cause.testBit 8 = false then sub * 2 ^ 16 else 0 }

/-- The state in which a source waits for the pre-reset flush. -/
def flushAwaited (s : State) (b : Nat) : State := { s with rst.pending := setBit b s.rst.pending }

theorem sourceNoted_eq (s : State) (b sub : Nat) : sourceNoted s b sub = { s with rst := rstNoted s.rst b sub } := by
  unfold sourceNoted setCause countFailure rstNoted
  by_cases fails : (b = 8 ∨ b = 4) ∧ s.rst.recordDurable = false ∧ s.rst.life ≠ .inReset
  · cases heldSource b <;> simp [fails]
  · cases heldSource b <;> simp [fails]

section
variable (up : s.rst.life ≠ .inReset)
include up

/-- The core brown-out resets at once. -/
theorem raise_coreBrownOut : raise s 1 = deviceReset (sourceNoted s 1 0) false := by
  have stillUp : (sourceNoted s 1 0).rst.life ≠ .inReset := by rw [sourceNoted_eq]; exact up
  exact (if_neg stillUp).trans (if_pos (.inl rfl))

variable (running : s.power.hold = .running) (soft : 2 < b) (notAlarm : ¬(b = 8 ∧ sub = 1))
include running soft notAlarm

/-- Any source but the supplies and the third alarm flushes first where hold-up is armed and the supplies stand. -/
theorem raise_soft : raise s b sub =
    if s.power.armed = true ∧ (Nat.land s.rst.asserted 7 == 0) = true then
      holdStart (flushAwaited (sourceNoted s b sub) b) .flush
    else deviceReset (sourceNoted s b sub) false := by
  have warm : (b == 0 || b == 2) = false := by simp; omega
  have notHard : ¬(hardSource b = true ∨ (b = 8 ∧ sub = 1)) := by simp [hardSource, notAlarm]; omega
  have stillUp : (sourceNoted s b sub).rst.life ≠ .inReset := by rw [sourceNoted_eq]; exact up
  have stillRunning : (sourceNoted s b sub).power.hold = .running := by rw [sourceNoted_eq]; exact running
  have sameArmed : (sourceNoted s b sub).power.armed = s.power.armed := by rw [sourceNoted_eq]
  unfold raise
  extract_lets cold clean _ _ _ u
  have isNoted : u = sourceNoted s b sub := rfl
  clear_value u
  subst isNoted
  rw [if_neg (show ¬cold = true by simp [cold, warm]), if_neg stillUp, if_neg notHard, stillRunning, ← sameArmed]
  rfl

/-- The source is noted, and the device resets at once or, armed, stops its commands for the flush first. -/
theorem raise_soft_says (clean : Nat.land s.rst.asserted 7 = 0) :
    (raise s b sub).rst.cause = (rstNoted s.rst b sub).cause ∧
      (raise s b sub).rst.asserted = (rstNoted s.rst b sub).asserted ∧
      (raise s b sub).rst.bootFailures = (rstNoted s.rst b sub).bootFailures ∧
      (s.power.armed = false → (raise s b sub).rst.life = .inReset) ∧
      (s.power.armed = true → (raise s b sub).rst.life = s.rst.life ∧ (raise s b sub).power.hold = .flush ∧
        (raise s b sub).host.cmds = []) ∧
      (s.pins.pcieIdle = true → (raise s b sub).pins.pcieIdle = true) := by
  have noted : (sourceNoted s b sub).rst = rstNoted s.rst b sub := by rw [sourceNoted_eq]
  have sameLife : (sourceNoted s b sub).rst.life = s.rst.life := by rw [noted]; rfl
  rw [← noted]
  cases armed : s.power.armed with
  | false =>
    rw [raise_soft up running soft notAlarm, if_neg (by simp [armed])]
    exact ⟨rfl, rfl, rfl, fun _ => rfl, nofun, fun _ => rfl⟩
  | true =>
    rw [raise_soft up running soft notAlarm, if_pos ⟨armed, beq_iff_eq.2 clean⟩]
    obtain ⟨rst, hold, cmds⟩ := holdStart_says (flushAwaited (sourceNoted s b sub) b) .flush
    rw [rst]
    refine ⟨rfl, rfl, rfl, nofun, fun _ => ⟨sameLife, hold, cmds⟩, fun idle => ?_⟩
    have idleNoted : (sourceNoted s b sub).pins.pcieIdle = true := by rw [sourceNoted_eq]; exact idle
    exact Eq.trans (holdStart_keepsLanes _ .flush) idleNoted

end

/-- Power-on and the AON brown-out reset every block and the retained memory, and leave their cause bit alone. -/
theorem raise_cold (cold : b = 0 ∨ b = 2) : (raise s b).rst.life = .inReset ∧ (raise s b).rst.cause = setBit b 0 ∧
    (raise s b).loupe.kept = [] ∧ (raise s b).ciph.retained = none ∧
    (raise s b).dict.durable = s.dict.durable := by
  obtain rfl | rfl := cold <;> exact ⟨rfl, rfl, rfl, rfl, rfl⟩

end

/-! The rows of the reset sources (R534, R537, R541). -/

section
variable {s : State}

theorem perstAssert_raises : Does .perstAssert s
    (raise { s with pins.pcieIdle := true, host.bifurcated := od s 0x1000 0x03 == 1 } 3) := rfl

theorem watchdogExpiry_raises (serving : s.rst.life = .service) : Does .watchdogExpiry s (raise s 4) :=
  congrArg Host.Outcome.next (if_pos (.inr serving))

theorem watchdogExpiry_stopped (maintenance : s.rst.life = .maintenance) : Does .watchdogExpiry s s :=
  congrArg Host.Outcome.next (if_neg (by simp [maintenance]))

theorem bootTimerExpiry_raises (booting : s.rst.life = .stage1) : Does .bootTimerExpiry s (raise s 8 7) := by
  show execBootTimerExpiry s = _
  simp [execBootTimerExpiry, booting]

theorem bootTimerExpiry_stopped (serving : s.rst.life = .service) : Does .bootTimerExpiry s s := by
  show execBootTimerExpiry s = _
  simp [execBootTimerExpiry, serving]

theorem ftlFirmwareAssertion_raises (up : s.rst.life ≠ .inReset) : Does .ftlFirmwareAssertion s (raise s 8 8) :=
  congrArg Host.Outcome.next (if_neg up)

theorem korlaCoreMachineCheck_raises (up : s.rst.life ≠ .inReset) : Does .korlaCoreMachineCheck s (raise s 8 9) :=
  congrArg Host.Outcome.next (if_neg up)

/-- A first internal fatal but the third alarm, on a device that is not armed, resets with its sub-cause, and is a boot
failure before the running boot's record is durable (R540, R547). -/
theorem raise_fatal {sub : Nat} (up : s.rst.life ≠ .inReset) (running : s.power.hold = .running)
    (clean : Nat.land s.rst.asserted 7 = 0) (first : s.rst.cause.testBit 8 = false) (unarmed : s.power.armed = false)
    (early : s.rst.recordDurable = false) (notAlarm : sub ≠ 1) : (raise s 8 sub).rst.life = .inReset ∧
      (raise s 8 sub).rst.cause = setBit 8 s.rst.cause + sub * 2 ^ 16 ∧
      (raise s 8 sub).rst.bootFailures = s.rst.bootFailures + 1 := by
  obtain ⟨cause, -, failures, resets, -⟩ :=
    raise_soft_says (b := 8) up running (by decide) (fun alarm => notAlarm alarm.2) clean
  exact ⟨resets unarmed, by rw [cause]; simp [rstNoted, first], by rw [failures]; simp [rstNoted, early, up]⟩

end

/-- Settles O47: each source by its row and by what raising it says. -/
theorem resetSources : Obligations.ResetSources := by
  unfold Obligations.ResetSources
  intro s up clean running
  refine ⟨⟨_, rfl, raise_cold (.inl rfl)⟩, ⟨_, rfl, raise_cold (.inr rfl)⟩, ?coreBrownOut, ?perst, ?management,
    fun serving durable => ?watchdog, fun first unarmed early => ⟨?_, ?_, fun booting => ?_⟩, bootTimerExpiry_stopped,
    watchdogExpiry_stopped⟩
  case coreBrownOut =>
    refine ⟨_, rfl, ?_⟩
    rw [raise_coreBrownOut up, sourceNoted_eq]
    exact ⟨rfl, rfl, rfl, rfl⟩
  case perst =>
    obtain ⟨cause, asserted, -, resets, flushes, lanes⟩ := raise_soft_says (b := 3) (sub := 0)
      (s := { s with pins.pcieIdle := true, host.bifurcated := od s 0x1000 0x03 == 1 }) up running
      (by decide) (by decide) clean
    exact ⟨_, perstAssert_raises, lanes rfl, asserted ▸ testBit_setBit_self 3 _, cause, resets, flushes⟩
  case management =>
    obtain ⟨cause, -, -, resets, flushes, -⟩ :=
      raise_soft_says (b := 6) (sub := 0) up running (by decide) (by decide) clean
    exact ⟨_, rfl, cause, resets, flushes⟩
  case watchdog =>
    obtain ⟨cause, -, failures, resets, -⟩ :=
      raise_soft_says (b := 4) (sub := 0) up running (by decide) (by decide) clean
    exact ⟨_, watchdogExpiry_raises serving, cause, by rw [failures]; simp [rstNoted, durable], resets⟩
  · exact ⟨_, ftlFirmwareAssertion_raises up, raise_fatal up running clean first unarmed early (by decide)⟩
  · exact ⟨_, korlaCoreMachineCheck_raises up, raise_fatal up running clean first unarmed early (by decide)⟩
  · exact ⟨_, bootTimerExpiry_raises booting, raise_fatal up running clean first unarmed early (by decide)⟩

end Sys2Proof.Machine

namespace Sys2Proof.Machine

open Sys2Proof

/-! The ends of the reset sources and of the pre-reset flush (R532, R534, R535, R573). -/

section
variable {s : State}

theorem releaseSource_held {b : Nat} (held : s.rst.asserted.testBit b = true) :
    releaseSource s b = { s with rst.asserted := s.rst.asserted - 2 ^ b } := by
  unfold releaseSource
  rw [if_pos held]

theorem releaseSource_free {b : Nat} (free : s.rst.asserted.testBit b = false) : releaseSource s b = s := by
  unfold releaseSource
  rw [if_neg (by simp [free])]

theorem perstDeassert_releases (held : s.rst.asserted.testBit 3 = true) :
    Does .perstDeassert s { s with rst.asserted := s.rst.asserted - 8 } :=
  congrArg Host.Outcome.next (releaseSource_held held)

theorem perstDeassert_free (free : s.rst.asserted.testBit 3 = false) : Does .perstDeassert s s :=
  congrArg Host.Outcome.next (releaseSource_free free)

/-- AON within range ends power-on and its brown-out together. -/
theorem supplyWithinRange_aon (both : s.rst.asserted = 5) :
    Does (.supplyWithinRange 0) s { s with rst.asserted := 0 } := by
  have powerOn : releaseSource s 0 = { s with rst.asserted := 4 } := by
    rw [releaseSource_held (by rw [both]; decide), both]
    rfl
  refine congrArg Host.Outcome.next ((if_pos rfl).trans ?_)
  rw [powerOn]
  exact releaseSource_held (s := { s with rst.asserted := 4 }) (show Nat.testBit 4 2 = true by decide)

theorem supplyWithinRange_core {supply : Nat} (held : s.rst.asserted.testBit 1 = true) (core : supply ≠ 0) :
    Does (.supplyWithinRange supply) s { s with rst.asserted := s.rst.asserted - 2 } :=
  congrArg Host.Outcome.next ((if_neg core).trans (releaseSource_held held))

theorem thermalTripRelease_releases (held : s.rst.asserted.testBit 7 = true) : Does .thermalTripRelease s
    { s with rst.asserted := s.rst.asserted - 128, pins.trip := false } := by
  show execThermalTripRelease s = _
  rw [execThermalTripRelease, releaseSource_held held]
  rfl

/-- A device reset leaves the stored images. -/
theorem deviceReset_power (s : State) (cold : Bool) :
    (deviceReset s cold).power = { s.power with hold := .running, armed := false, shutdown := 0 } := rfl

theorem preResetFlushSeal_resets (flushing : s.power.hold = .flush) (written : flushWritten s = true) :
    Does .preResetFlushSeal s (deviceReset (sealImage s) false) :=
  congrArg Host.Outcome.next (if_pos ⟨flushing, written⟩)

/-- The seal leaves no image of the running flush unsealed. -/
theorem sealImage_seals : ∀ i ∈ (sealImage s).power.images, i.seq = (sealImage s).power.imageSeq → i.sealed = true := by
  obtain ⟨-, images⟩ := sealImage_says s
  have sameSeq : (sealImage s).power.imageSeq = s.power.imageSeq := by
    unfold sealImage
    dsimp only
    rw [(onDurables_say _ _).2]
  rw [images, sameSeq]
  intro i inImages
  obtain ⟨j, -, rfl⟩ := List.mem_map.1 inImages
  split
  · exact fun _ => rfl
  · exact fun same => absurd same ‹_›

theorem preResetFlushLimit_resets (flushing : s.power.hold = .flush) :
    Does .preResetFlushLimit s (deviceReset s false) := congrArg Host.Outcome.next (if_pos flushing)

theorem preResetFlush_none (running : s.power.hold = .running) :
    Does .preResetFlushSeal s s ∧ Does .preResetFlushLimit s s :=
  ⟨congrArg Host.Outcome.next (if_neg (by simp [running])), congrArg Host.Outcome.next (if_neg (by simp [running]))⟩

end

/-! The release counter and the straps (R539, R540, R543, R574, R576). -/

section
variable {s : State} {v : Nat}

theorem releaseCountDone_releases (inReset : s.rst.life = .inReset) (noSource : s.rst.asserted = 0)
    (released : s.rst.testHold = false) : Does (.releaseCountDone v) s
      { s with rst.life := if v / 8 % 4 = 3 then .qspiRelease else .stage0
               rst.cause := if s.rst.cause / 2 ^ 24 % 16 < 15 then s.rst.cause + 2 ^ 24 else s.rst.cause
               rst.straps := v % 256 } := by
  have count : field 27 24 s.rst.cause = s.rst.cause / 2 ^ 24 % 16 := by
    simp [field, Nat.shiftRight_eq_div_pow]
  have boot : field 4 3 (v % 256) = v / 8 % 4 := by rw [field, Nat.shiftRight_eq_div_pow]; omega
  refine congrArg Host.Outcome.next ((if_neg (by simp [inReset, noSource, released])).trans ?_)
  rw [count]
  show ({ s with rst.life := if field 4 3 (v % 256) = 3 then _ else _
                 rst.cause := _, rst.straps := _ } : State) = _
  rw [boot]

theorem releaseCountDone_waits (waits : s.rst.life ≠ .inReset ∨ s.rst.asserted ≠ 0 ∨ s.rst.testHold = true) :
    Does (.releaseCountDone v) s s := congrArg Host.Outcome.next (if_pos waits)

/-- The straps that read otherwise than latched, and are not recorded as such yet (R574). -/
def strapsMoved (s : State) (v : Nat) : List Nat :=
  (List.range 8).filter fun j => v.testBit j != s.rst.straps.testBit j && !(od s 0xB000 0x07).testBit j

theorem strapCheck_records (up : s.rst.life ≠ .inReset) : Does (.strapCheck v) s ((strapsMoved s v).foldl (fun s i =>
    loupe (odSet s 0xB000 0x07 0 (setBit i (od s 0xB000 0x07))) 574 0xB0 3 [i]) s) :=
  congrArg Host.Outcome.next (if_neg up)

theorem strapsMoved_latched (same : v = s.rst.straps) : strapsMoved s v = [] := by simp [strapsMoved, same]

end

/-- Settles O48: each source by its release, the flush by its seal and its limit, the release by what holds it. -/
theorem resetsEnd : Obligations.ResetsEnd := by
  unfold Obligations.ResetsEnd
  intro s v supply
  refine ⟨perstDeassert_releases, perstDeassert_free, supplyWithinRange_aon, supplyWithinRange_core,
    thermalTripRelease_releases, rfl, fun flushing written => ?sealed, preResetFlush_none, fun flushing => ?limit,
    releaseCountDone_releases, releaseCountDone_waits, fun _ => rfl, rfl, rfl, fun up same => ?same,
    fun i up moved => ?moved⟩
  case sealed =>
    refine ⟨_, preResetFlushSeal_resets flushing written, rfl, rfl, ?_⟩
    rw [deviceReset_power]
    exact sealImage_seals
  case limit => exact ⟨_, preResetFlushLimit_resets flushing, rfl, rfl, rfl⟩
  case same =>
    have records := strapCheck_records (v := v) up
    rwa [strapsMoved_latched same] at records
  case moved =>
    have records := strapCheck_records (v := v) up
    rwa [show strapsMoved s v = [i] from moved] at records

end Sys2Proof.Machine

namespace Sys2Proof.Machine

open Sys2Proof

/-! Block resets (R549, R550). -/

section
variable {s : State} {i : Nat}

/-- A block that exists and is idle is reset. -/
theorem blockResetIf_idle {kind : Nat} (real : i < blockCount kind) (few : i < 256) (idle : blockIdle s kind i = true) :
    blockResetIf s kind i = blockReset s kind i := by
  have kindOf : (kind * 256 + i) / 256 = kind := by omega
  have blockOf : (kind * 256 + i) % 256 = i := by omega
  have accepted : blockResetStatus s (kind * 256 + i) = 0 := by
    simp only [blockResetStatus, kindOf, blockOf, if_neg (Nat.not_le.2 real), idle, if_true]
  exact if_pos ⟨accepted, few⟩

/-- A block that is not idle keeps its state, and so does the device where there is no such block. -/
theorem blockResetIf_refused {kind : Nat} (few : i < 256) (refused : i < blockCount kind → blockIdle s kind i = false) :
    blockResetIf s kind i = s := by
  have kindOf : (kind * 256 + i) / 256 = kind := by omega
  have blockOf : (kind * 256 + i) % 256 = i := by omega
  have nonzero : blockResetStatus s (kind * 256 + i) ≠ 0 := by
    simp only [blockResetStatus, kindOf, blockOf]
    split
    · decide
    · rw [refused (by omega)]; decide
  exact if_neg fun accepted => nonzero accepted.1

theorem blockResetFlashChannel_resets (real : i < 64) (idle : chanIdle s i = true) :
    Does (.blockResetFlashChannel i) s (
    let s := (chanDies i).foldl (fun s d => setCtx s d {}) (setChan s i { chan s i with
      bus := [], ce := none, holder := none, ptrHigh := 0, ptrLow := 0, phyRegs := [], faulted := false })
    if (chan s i).state = 3 then s else setChanState s i 3) :=
  congrArg Host.Outcome.next (blockResetIf_idle (kind := 1) real (by omega) idle)

theorem blockResetFlashChannel_busy (real : i < 64) (busy : chanIdle s i = false) :
    Does (.blockResetFlashChannel i) s s :=
  congrArg Host.Outcome.next (blockResetIf_refused (kind := 1) (by omega) fun _ => busy)

theorem blockResetFlashChannel_none (beyond : 64 ≤ i) (few : i < 256) : Does (.blockResetFlashChannel i) s s :=
  congrArg Host.Outcome.next (blockResetIf_refused (kind := 1) few fun real => absurd real (Nat.not_lt.2 beyond))

theorem blockResetCipherLane_resets (real : i < 16) (bad : i ∈ s.ciph.badLanes) : Does (.blockResetCipherLane i) s
    { s with ciph.lanes := s.ciph.lanes.set i {} } :=
  congrArg Host.Outcome.next (blockResetIf_idle (kind := 2) real (by omega) (List.contains_iff_mem.2 bad))

theorem blockResetCipherLane_good (real : i < 16) (good : i ∉ s.ciph.badLanes) : Does (.blockResetCipherLane i) s s :=
  congrArg Host.Outcome.next (blockResetIf_refused (kind := 2) (by omega) fun _ => by
    simpa [blockIdle] using good)

theorem blockResetSoftDecoder_resets (real : i < 16) :
    Does (.blockResetSoftDecoder i) s { s with sched.softPtr := 0 } :=
  congrArg Host.Outcome.next (blockResetIf_idle (kind := 3) real (by omega) rfl)

theorem blockResetPlacementEngine_resets (real : i < 16) :
    Does (.blockResetPlacementEngine i) s { s with sched.placePtrs := [0, 0, 0] } :=
  congrArg Host.Outcome.next (blockResetIf_idle (kind := 4) real (by omega) rfl)

theorem blockResetLoopEngine_resets (real : i < 2) (idle : (eng s i).phase = 0 ∨ (eng s i).phase = 4) :
    Does (.blockResetLoopEngine i) s (setEng s i
      { phase := 0, code := (eng s i).code, image := (eng s i).image, lastD := (eng s i).lastD
        tickNo := (eng s i).tickNo, ticks := (eng s i).ticks }) :=
  congrArg Host.Outcome.next (blockResetIf_idle (kind := 5) real (by omega) (by simpa [blockIdle] using idle))

theorem blockResetLoopEngine_inService (real : i < 2) (inService : (eng s i).phase = 3) :
    Does (.blockResetLoopEngine i) s s :=
  congrArg Host.Outcome.next (blockResetIf_refused (kind := 5) (by omega) fun _ => by simp [blockIdle, inService])

theorem blockResetMirrorLink_resets (detached : s.pair.detached = true) :
    Does .blockResetMirrorLink s { s with pair := freshLink s.pair } :=
  congrArg Host.Outcome.next (blockResetIf_idle (kind := 6) (by decide) (by decide) (by simp [blockIdle, detached]))

theorem blockResetMirrorLink_attached (attached : s.pair.detached = false) (paired : pairPhase s ≠ 0) :
    Does .blockResetMirrorLink s s :=
  congrArg Host.Outcome.next (blockResetIf_refused (kind := 6) (by decide) fun _ => by
    simp [blockIdle, attached, paired])

theorem blockResetCascadePort_resets (real : i < 3) (removed : od s 0x5110 0x01 (i + 1) = 3) :
    Does (.blockResetCascadePort i) s (setMember s (i + 1) { serial := (member s (i + 1)).serial }) :=
  congrArg Host.Outcome.next (blockResetIf_idle (kind := 7) real (by omega) (by simp [blockIdle, removed]))

theorem blockResetCascadePort_inService (real : i < 3) (inService : od s 0x5110 0x01 (i + 1) = 2) :
    Does (.blockResetCascadePort i) s s :=
  congrArg Host.Outcome.next (blockResetIf_refused (kind := 7) (by omega) fun _ => by simp [blockIdle, inService])

/-- The trace port's reset finds no state of its own to clear. -/
theorem blockResetTracePort_none (s : State) : Does .blockResetTracePort s s := by
  refine congrArg Host.Outcome.next (?_ : (if _ then _ else _) = s)
  split <;> rfl

theorem blockResetLoupe_resets (idle : s.loupe.flushing = false) :
    Does .blockResetLoupe s { s with loupe.live := [] } :=
  congrArg Host.Outcome.next (blockResetIf_idle (kind := 9) (by decide) (by decide) (by simp [blockIdle, idle]))

theorem blockResetLoupe_flushing (flushing : s.loupe.flushing = true) : Does .blockResetLoupe s s :=
  congrArg Host.Outcome.next (blockResetIf_refused (kind := 9) (by decide) fun _ => by simp [blockIdle, flushing])

end

/-! Logic BIST (R552, R554, R556). -/

section
variable {s : State}

theorem logicBistStart_starts (maintenance : s.rst.life = .maintenance) :
    Does .logicBistStart s { s with rst.logicRunning := true } := congrArg Host.Outcome.next (if_pos maintenance)

theorem logicBistStart_elsewhere (elsewhere : s.rst.life ≠ .maintenance) : Does .logicBistStart s s :=
  congrArg Host.Outcome.next (if_neg elsewhere)

theorem logicBistDone_none (notRunning : s.rst.logicRunning = false) (g : List Nat) : Does (.logicBistDone g) s s :=
  congrArg Host.Outcome.next (if_pos (by simp [notRunning]))

/-- A management reset of a device that is not armed leaves what logic BIST recorded. -/
theorem raise_management (up : s.rst.life ≠ .inReset) (running : s.power.hold = .running)
    (unarmed : s.power.armed = false) : (raise s 6).rst.life = .inReset ∧
      (raise s 6).rst.logicRunning = s.rst.logicRunning ∧ (raise s 6).rst.logicFailed = s.rst.logicFailed ∧
      (raise s 6).rst.cause = setBit 6 s.rst.cause := by
  rw [raise_soft up running (by decide) (by decide), if_neg (by simp [unarmed]), sourceNoted_eq]
  exact ⟨rfl, rfl, rfl, rfl⟩

/-- The failing partitions are recorded, and the device resets as a management reset. -/
theorem logicBistDone_records (maintenance : s.rst.life = .maintenance) (testing : s.rst.logicRunning = true)
    (unarmed : s.power.armed = false) (running : s.power.hold = .running) (g : List Nat) :
    ∃ t, Does (.logicBistDone g) s t ∧ t.rst.life = .inReset ∧ t.rst.logicRunning = false ∧ t.rst.logicFailed =
      ((List.range 32).filter fun p => g.getD p 0 != Config.goldenLogic p).foldl (fun m p => m + 2 ^ p) 0 ∧
      t.rst.cause = setBit 6 s.rst.cause := by
  have told := loupes_say (fun s p => loupe s 556 0xA2 5 [128 + p]) (fun _ _ => loupe_says ..)
    ((List.range 8).filter fun p => g.getD (32 + p) 0 != Config.goldenMemory (128 + p)) s
  obtain ⟨l, p, d, events⟩ := told
  refine ⟨_, congrArg Host.Outcome.next (if_neg (by simp [testing, maintenance])), ?_⟩
  dsimp only
  rw [events]
  exact raise_management (by simp [maintenance]) running unarmed

end

/-! Memory BIST (R555, R556) and the self-test (R557). -/

section
variable {s : State}

theorem onlinePassStart_starts (serving : s.rst.life = .service) (idle : s.bist.running = false) :
    Does .onlinePassStart s { s with bist.running := true, bist.next := 0 } :=
  congrArg Host.Outcome.next (if_pos ⟨serving, by simp [idle]⟩)

theorem onlinePassStart_elsewhere (elsewhere : s.rst.life ≠ .service) : Does .onlinePassStart s s :=
  congrArg Host.Outcome.next (if_neg fun starts => elsewhere starts.1)

theorem memoryBistStep_none (idle : s.bist.running = false) (sig : Nat) : Does (.memoryBistStep sig) s s :=
  congrArg Host.Outcome.next (if_pos (by simp [idle]))

/-- The state in which a partition's signature is compared: it is kept, and the test is counted. -/
def signatureKept (s : State) (sig : Nat) : State :=
  odBump { s with bist.sigs := kvPut 0 s.bist.next sig s.bist.sigs } 0xA200 0x06

theorem signatureKept_bist (s : State) (sig : Nat) :
    (signatureKept s sig).bist = { s.bist with sigs := kvPut 0 s.bist.next sig s.bist.sigs } := rfl

/-- A step at a partition beyond the staging segments and before the last one compares it and goes on. -/
theorem memoryBistStep_compares (testing : s.bist.running = true) (running : s.power.hold = .running)
    (noSegment : 96 ≤ s.bist.next) (notLast : s.bist.next < 127) (sig : Nat) : Does (.memoryBistStep sig) s
      (let u := partitionDone (signatureKept s sig) s.bist.next (sig == Config.goldenMemory s.bist.next)
       { u with bist.next := s.bist.next + 1 }) := by
  refine congrArg Host.Outcome.next ((if_neg (by simp [testing, running])).trans ((if_neg (by omega)).trans ?_))
  rw [if_neg (by omega)]
  rfl

theorem partitionDone_passes {p : Nat} (noSegment : 96 ≤ p) (s : State) :
    partitionDone s p true = { s with bist.failed := s.bist.failed.filter fun x => x != p } :=
  (if_pos rfl).trans (if_neg (Nat.not_lt.2 noSegment))

/-- A partition that fails is listed, and its decoder or its placement engine leaves service. -/
theorem partitionDone_fails {p : Nat} (noSegment : 96 ≤ p) (s : State) : (partitionDone s p false).bist =
    if p < 112 then { s.bist with failed := addTo p s.bist.failed, decodersOut := addTo (p - 96) s.bist.decodersOut }
    else { s.bist with failed := addTo p s.bist.failed, enginesOut := addTo (p - 112) s.bist.enginesOut } := by
  have told := (loupe_tells { s with bist.failed := addTo p s.bist.failed } 556 0xA2 5 [p]).bist
  unfold partitionDone
  simp only [Bool.false_eq_true, if_false, if_neg (Nat.not_lt.2 noSegment)]
  split <;> simp only [told]

/-- A self-test of the PF starts an online pass. -/
theorem selfTest_starts {a : Adm} (served : AdminServed s a) (noTest : s.bist.selfTest = 0)
    (idle : s.bist.running = false) (code : Nat) (lanes : List Nat) : selfTest s a code lanes = adminDone { s with
      bist.selfTest := code, bist.selfTestLanes := lanes, bist.running := true, bist.next := 0 } a 0 := by
  refine (withAdmin_served served _ _).trans ((if_neg (not_not.2 served.2)).trans
    ((if_neg (not_not.2 noTest)).trans ?_))
  simp only [idle]
  rfl

theorem selfTest_another {a : Adm} (served : AdminServed s a) (another : s.bist.selfTest ≠ 0) (code : Nat)
    (lanes : List Nat) : selfTest s a code lanes = adminDone s a 0x11D :=
  (withAdmin_served served _ _).trans ((if_neg (not_not.2 served.2)).trans (if_pos another))

end

/-- Settles O50: each block by its reset, logic BIST and the online pass by their steps, the self-test by its start. -/
theorem blockResetsAndSelfTest : Obligations.BlockResetsAndSelfTest := by
  unfold Obligations.BlockResetsAndSelfTest
  refine ⟨fun s i => ?blocks, fun s g sig a lanes => ?tests⟩
  case blocks =>
    exact ⟨blockResetFlashChannel_resets, blockResetFlashChannel_busy, blockResetFlashChannel_none,
      blockResetCipherLane_resets, blockResetCipherLane_good, blockResetSoftDecoder_resets,
      blockResetPlacementEngine_resets, blockResetLoopEngine_resets, blockResetLoopEngine_inService,
      fun detached => ⟨_, blockResetMirrorLink_resets detached, rfl, rfl, rfl, rfl, rfl, rfl, rfl⟩,
      blockResetMirrorLink_attached, blockResetCascadePort_resets, blockResetCascadePort_inService,
      blockResetTracePort_none s, blockResetLoupe_resets, blockResetLoupe_flushing⟩
  case tests =>
    refine ⟨logicBistStart_starts, logicBistStart_elsewhere,
      fun maintenance testing unarmed running => logicBistDone_records maintenance testing unarmed running g,
      fun notRunning => logicBistDone_none notRunning g, onlinePassStart_starts, onlinePassStart_elsewhere,
      fun testing running noSegment notLast good => ?passes, fun testing running noSegment decoder bad => ?decoderFails,
      fun testing running engine notLast bad => ?engineFails, fun idle => memoryBistStep_none idle sig,
      fun served noTest idle => ⟨?_, ?_⟩, fun served another => ⟨?_, ?_⟩⟩
    case passes =>
      refine ⟨_, memoryBistStep_compares testing running noSegment notLast sig, ?_⟩
      rw [show (sig == Config.goldenMemory s.bist.next) = true from beq_iff_eq.2 good, partitionDone_passes noSegment]
      exact ⟨rfl, by simp, rfl, testing⟩
    case decoderFails =>
      refine ⟨_, memoryBistStep_compares testing running noSegment (by omega) sig, ?_⟩
      rw [show (sig == Config.goldenMemory s.bist.next) = false from beq_eq_false_iff_ne.2 bad]
      dsimp only
      rw [partitionDone_fails noSegment, if_pos decoder]
      exact ⟨rfl, mem_addTo .., mem_addTo ..⟩
    case engineFails =>
      refine ⟨_, memoryBistStep_compares testing running (by omega) notLast sig, ?_⟩
      rw [show (sig == Config.goldenMemory s.bist.next) = false from beq_eq_false_iff_ne.2 bad]
      dsimp only
      rw [partitionDone_fails (by omega), if_neg (by omega)]
      exact ⟨rfl, mem_addTo .., mem_addTo ..⟩
    · exact congrArg Host.Outcome.next (selfTest_starts served noTest idle 1 lanes)
    · exact congrArg Host.Outcome.next (selfTest_starts served noTest idle 2 lanes)
    · exact congrArg Host.Outcome.next (selfTest_another served another 1 lanes)
    · exact congrArg Host.Outcome.next (selfTest_another served another 2 lanes)

end Sys2Proof.Machine

namespace Sys2Proof.Machine

open Sys2Proof

/-! The Loupe recorder (R558 to R565). -/

section
variable {s : State} {rule subject sev : Nat} {detail : List Nat}

/-- A full memory stores an entry where some entry in it is of equal or lower severity. -/
theorem storeEntry_stores {cap : Nat} {e : LEntry} {l : List LEntry}
    (room : l.length < cap ∨ ∃ x ∈ l, x.sev ≤ e.sev) : ∃ m, storeEntry cap e l = some m ∧ e ∈ m := by
  unfold storeEntry
  by_cases free : l.length < cap
  · exact ⟨_, if_pos free, by simp⟩
  · obtain ⟨x, inMemory, lower⟩ := room.resolve_left free
    rw [if_neg free]
    cases found : l.findIdx? fun x => decide (x.sev ≤ e.sev) with
    | none => exact absurd lower (by simpa using List.findIdx?_eq_none_iff.1 found x inMemory)
    | some i => exact ⟨_, rfl, by simp⟩

/-- The recorder holds the entry in its live buffer, and gives the next one the number n. -/
def Recorded (n : Nat) (e : LEntry) (u : State) : Prop := u.loupe.nextSeq = n ∧ e ∈ u.loupe.live

theorem Recorded.ite {n : Nat} {e : LEntry} {a b : State} (c : Prop) [Decidable c] (ha : Recorded n e a)
    (hb : Recorded n e b) : Recorded n e (if c then a else b) := by split <;> assumption

theorem loupeLive_records {n : Nat} {e : LEntry} (next : s.loupe.nextSeq = n)
    (room : s.loupe.live.length < 2048 ∨ ∃ x ∈ s.loupe.live, x.sev ≤ e.sev) : Recorded n e (loupeLive s e) := by
  obtain ⟨m, stores, stored⟩ := storeEntry_stores room
  unfold loupeLive
  rw [stores]
  exact ⟨next, stored⟩

theorem loupeKeep_records {n : Nat} {e x : LEntry} (recorded : Recorded n e s) : Recorded n e (loupeKeep s x) := by
  unfold loupeKeep
  split <;> exact recorded

/-- An event that is not dropped takes the next sequence number and, where the live buffer has room, lies in it. -/
theorem loupeEntry_records (t : Option Nat) (notDropped : ¬(s.loupe.frozen = true ∧ sev ≠ 7))
    (room : s.loupe.live.length < 2048 ∨ ∃ x ∈ s.loupe.live, x.sev ≤ sev) :
    ∃ e, Recorded (s.loupe.nextSeq + 1) e (loupeEntry s rule subject sev detail t) ∧ e.seq = s.loupe.nextSeq ∧
      e.sev = sev ∧ e.trigger = t.getD 0xFF ∧ e.nextAsn = s.adm.nextAsn := by
  unfold loupeEntry
  extract_lets acts e _ numbered _ live kept _ alerted _ flushing _ told _ stamped counted _
  refine ⟨e, ?_, rfl, rfl, rfl, rfl⟩
  rw [if_neg (show ¬(numbered.loupe.frozen = true ∧ sev ≠ 7) from notDropped)]
  have stored : Recorded (s.loupe.nextSeq + 1) e live := loupeLive_records rfl room
  have copied : Recorded (s.loupe.nextSeq + 1) e kept := .ite _ (loupeKeep_records stored) stored
  have alert : Recorded (s.loupe.nextSeq + 1) e alerted := .ite _ copied copied
  have flush : Recorded (s.loupe.nextSeq + 1) e flushing := .ite _ alert alert
  have telemetry : Recorded (s.loupe.nextSeq + 1) e told := .ite _ flush flush
  have fault : Recorded (s.loupe.nextSeq + 1) e stamped := .ite _ telemetry telemetry
  have trigger : Recorded (s.loupe.nextSeq + 1) e counted := by cases t <;> exact fault
  exact .ite _ trigger trigger

/-- While the recorder is frozen, an entry below severity 7 is counted as dropped (R564). -/
theorem loupe_frozen (frozen : s.loupe.frozen = true) (below : sev ≠ 7) : loupe s rule subject sev detail = { s with
    loupe.nextSeq := s.loupe.nextSeq + 1
    loupe.liveDrops := kvPut 0 sev (kvGet 0 sev s.loupe.liveDrops + 1) s.loupe.liveDrops
    loupe.droppedSince := s.loupe.droppedSince + 1 } := if_pos ⟨frozen, below⟩

end

/-! The rows of the recorder (R561 to R565). -/

section
variable {s : State}

theorem loupeTriggerPeriod_snapshots {trigger : Nat} (enabled : od s 0xA300 0x01 trigger = 1)
    (periodic : od s 0xA300 0x08 trigger ≠ 0) (real : trigger < 64) (up : s.rst.life ≠ .inReset) :
    Does (.loupeTriggerPeriod trigger) s (loupeEntry s 561 0xA0 0 [] (some trigger)) :=
  congrArg Host.Outcome.next (if_neg (by simp [enabled, periodic, up]; omega))

theorem loupeTriggerPeriod_disabled {trigger : Nat} (disabled : od s 0xA300 0x01 trigger ≠ 1) :
    Does (.loupeTriggerPeriod trigger) s s := congrArg Host.Outcome.next (if_pos (.inl disabled))

theorem loupeFlush_wanted (wanted : s.loupe.flushing = true) : Does .loupeFlush s (loupeFlush s) :=
  congrArg Host.Outcome.next (if_pos wanted)

theorem loupeFlush_notWanted (notWanted : s.loupe.flushing = false) : Does .loupeFlush s s :=
  congrArg Host.Outcome.next (if_neg (by simp [notWanted]))

/-- A flush leaves no entry that is not flushed, and a flush area of its size at most. -/
theorem loupeFlush_says (s : State) : (loupeFlush s).loupe.flushing = false ∧
    (∀ e ∈ (loupeFlush s).loupe.live, e.flushed = true) ∧ (∀ e ∈ (loupeFlush s).loupe.kept, e.flushed = true) ∧
    (loupeFlush s).loupe.flash.length ≤ 262144 ∧ (loupeFlush s).zones = s.zones := by
  have marked : ∀ l : List LEntry, ∀ e ∈ l.map (fun e => { e with flushed := true }), e.flushed = true := by simp
  refine ⟨rfl, marked _, marked _, ?_, rfl⟩
  unfold loupeFlush
  simp only [odBump_loupe, List.length_drop, flushSlots]
  omega

theorem alertReleaseRead_releases (serving : s.rst.life = .service) :
    Does .alertReleaseRead s { s with pins.alert := false } :=
  congrArg Host.Outcome.next (if_neg (by simp [inHalt, serving]))

theorem alertReleaseRead_halted {n : Nat} (halted : s.rst.life = .halt n) : Does .alertReleaseRead s s :=
  congrArg Host.Outcome.next (if_pos (by simp [inHalt, halted]))

end

/-- Settles O51: the snapshot is an entry of severity 0 that is recorded, the flush marks what it writes. -/
theorem loupeRuns : Obligations.LoupeRuns := by
  unfold Obligations.LoupeRuns
  intro s trigger
  refine ⟨fun enabled periodic real up notFrozen room => ?snapshot, loupeTriggerPeriod_disabled,
    fun wanted => ⟨_, loupeFlush_wanted wanted, loupeFlush_says s⟩, loupeFlush_notWanted, rfl, rfl,
    alertReleaseRead_releases, fun n => alertReleaseRead_halted⟩
  obtain ⟨e, ⟨next, isLive⟩, seq, -, ofTrigger, asn⟩ := loupeEntry_records (rule := 561) (subject := 0xA0) (sev := 0)
    (detail := []) (some trigger) (by simp [notFrozen]) (.inl room)
  exact ⟨_, loupeTriggerPeriod_snapshots enabled periodic real up, next, e, isLive, seq, ofTrigger, asn⟩

/-- Settles O52: an entry below severity 7 is the dropped case of an event, one of severity 7 is recorded. -/
theorem frozenLoupeKeepsSeverity7 : Obligations.FrozenLoupeKeepsSeverity7 := by
  unfold Obligations.FrozenLoupeKeepsSeverity7
  intro s rule subject sev detail frozen
  refine ⟨loupe_frozen frozen, fun room => ?_, rfl⟩
  obtain ⟨e, ⟨-, isLive⟩, seq, severity, -⟩ := loupeEntry_records (rule := rule) (subject := subject) (sev := 7)
    (detail := detail) (matchTrigger s (eventCode subject rule) 7) (by simp) room
  exact ⟨e, isLive, seq, severity⟩

end Sys2Proof.Machine

namespace Sys2Proof.Machine

open Sys2Proof

/-! The state after reset (R532, R538 to R540, R545, R590), and words that spell no command (log entry 7). -/

/-- Outside service no function's commands are accepted. -/
theorem accepts_outside {s : State} (outside : s.rst.life ≠ .service) (fn : Nat) : accepts s fn = false := by
  simp [accepts, inService, outside]

theorem withFetchWord_none {s : State} {nbits w : Nat} (spellsNone : decodeTableWord nbits w = none) :
    s.withFetchWord nbits w = s := by
  rw [State.withFetchWord, spellsNone]

/-- Settles O60: the reset state by its values, accepting nothing outside service; no word spells a command. -/
theorem resetState : Obligations.ResetState := by
  unfold Obligations.ResetState
  exact ⟨⟨rfl, rfl, rfl, rfl, rfl, rfl, rfl, rfl, kvWf_nil 0, rfl, rfl, accepts_outside (by decide)⟩,
    fun s nbits w => ⟨rfl, withFetchWord_none rfl⟩⟩

end Sys2Proof.Machine

namespace Sys2Proof.Machine

open Sys2Proof

/-! Reads, descriptions and staged writes of the dictionary (R457 to R470, R481). -/

section
variable {s : State} {m : Nat}

/-- A request of a management requester for this controller is served here. -/
theorem dictRequest_here {o : DictOp} (reached : reaches s (.mgmt m) = true) (toUs : (DictOp.req o).target = 0)
    (serve : State → State × Nat × Nat × Nat) : dictRequest s (.mgmt m) o none serve =
      answer (serve s).1 (.mgmt m) (DictOp.req o) (serve s).2.1 (serve s).2.2.1 (serve s).2.2.2 := by
  have here : targetOf s (.mgmt m) (DictOp.req o).target = .here := if_pos (.inl toUs)
  unfold dictRequest
  simp only [reached, here, Requester.rank]
  rfl

section
variable {r : OdReq} {e : OdElem} (found : odFind r.obj r.elem = some e)
  (addressed : odAddressIn s r.obj r.elem r.inst = 0)
include found addressed

/-- A read that may be served reads the bytes it names, of the values in force or of the staging set. -/
theorem readOd_reads (served : readServed s (.mgmt m) r.obj = true) (may : mayRead (.mgmt m) e r.inst = true)
    (noAlert : r.obj ≠ 0xA310) (noSample : r.obj ≠ 0x3120) {off len : Nat} (piece : readPiece e r = some (off, len))
    (staged : Bool) : readOd s (.mgmt m) r staged = (s, 0, len, bytesAt off len
      (if staged then stagedView s (staging s (.mgmt m)) r.obj r.elem r.inst
        else viewFor s (.mgmt m) r.obj r.elem r.inst)) := by
  simp [readOd, found, addressed, served, may, piece, noAlert, noSample]

theorem readOd_denied (served : readServed s (.mgmt m) r.obj = true) (mayNot : mayRead (.mgmt m) e r.inst = false)
    (staged : Bool) : readOd s (.mgmt m) r staged = (s, 0x20, 0, 0) := by
  simp [readOd, found, addressed, served, mayNot]

theorem describeOd_describes (served : readServed s (.mgmt m) r.obj = true) :
    describeOd s (.mgmt m) r = (s, 0, 48, descriptor e r.inst) := by
  simp [describeOd, found, addressed, served]

end

section
variable (reached : reaches s (.mgmt m) = true)
include reached

theorem dictRead_answers {r : OdReq} (toUs : r.target = 0) {u : State} {st len v : Nat}
    (reads : readOd s (.mgmt m) r false = (u, st, len, v)) :
    Does (.dictRead (.mgmt m) r none) s (answer u (.mgmt m) r st len v) :=
  congrArg Host.Outcome.next ((dictRequest_here (o := .read r) reached toUs _).trans (by rw [reads]; rfl))

theorem dictReadStaged_answers {r : OdReq} (toUs : r.target = 0) {u : State} {st len v : Nat}
    (reads : readOd s (.mgmt m) r true = (u, st, len, v)) :
    Does (.dictReadStaged (.mgmt m) r none) s (answer u (.mgmt m) r st len v) :=
  congrArg Host.Outcome.next ((dictRequest_here (o := .readStaged r) reached toUs _).trans (by rw [reads]; rfl))

theorem dictDescribe_answers {r : OdReq} (toUs : r.target = 0) {u : State} {st len v : Nat}
    (describes : describeOd s (.mgmt m) r = (u, st, len, v)) :
    Does (.dictDescribe (.mgmt m) r none) s (answer u (.mgmt m) r st len v) :=
  congrArg Host.Outcome.next ((dictRequest_here (o := .describe r) reached toUs _).trans (by rw [describes]; rfl))

/-- A list of one write that is no commit and no discard answers the write's status. -/
theorem dictWrite_stages {r : OdReq} (toUs : r.target = 0) {v : Nat} (noAct : r.obj ≠ 0xF010)
    (short : listBytes [.write r v] ≤ 16384) :
    Does (.dictWrite { who := .mgmt m, secured := false, a := none, twinSpares := 0 } [.write r v]) s
      (answer (stageWrite s (.mgmt m) r v false).1 (.mgmt m) r (stageWrite s (.mgmt m) r v false).2) := by
  have here : ∀ t : State, targetOf t (.mgmt m) r.target = .here := fun t => if_pos (.inl toUs)
  show execDictWrite _ _ s = _
  simp [execDictWrite, reached, Nat.not_lt.2 short, overruns, runList, DictOp.code, DictOp.req, Requester.rank, here,
    noAct, listDone]

theorem discard_drops (may : mayAct s (.mgmt m) false = true) : Does (.discard (.mgmt m) false) s
    (answer (dropSet s (.mgmt m)) (.mgmt m) commitEntry 0) := by
  show execDiscard (.mgmt m) false s = _
  simp [execDiscard, reached, discardSet, may, commitEntry]

theorem discard_denied (mayNot : mayAct s (.mgmt m) false = false) : Does (.discard (.mgmt m) false) s
    (answer s (.mgmt m) commitEntry 0x20) := by
  show execDiscard (.mgmt m) false s = _
  simp [execDiscard, reached, discardSet, mayNot, commitEntry]

end

/-- A requester whose set is dropped has no entry staged. -/
theorem dropSet_empties (s : State) (w : Requester) : ∀ t ∈ (dropSet s w).dict.sets, t.who = w → t.entries = [] := by
  intro t inSets mine
  obtain ⟨u, -, rfl⟩ := List.mem_map.1 inSets
  by_cases ofUs : u.who = w
  · rw [if_pos ofUs]
  · rw [if_neg ofUs] at mine
    exact absurd mine ofUs

/-- An empty list ends a host's command with Invalid Field in Command. -/
theorem dictWrite_empty {a : Adm} {spares : Nat} (taken : accepts s 0 = true) :
    Does (.dictWrite { who := .pf, secured := false, a := some a, twinSpares := spares } []) s
      (dictDone s a 0x002 0 0 .none) := by
  show execDictWrite _ _ s = _
  simp [execDictWrite, reaches, taken, Requester.rank, stField]

end

/-! One requester's commit (R466, R470 to R478, R483). -/

section
variable {s u : State} {m : Nat} {t : Taken}

/-- A management requester's commit without a command. -/
abbrev mgmtCommit (m : Nat) : CommitReq := { who := .mgmt m, secured := false, a := none, twinSpares := 0 }

/-- The state in which a lone commit is taken: the rotation of its rank has moved past its requester (R40, R474). -/
abbrev commitTurn (s : State) (m : Nat) : State := { s with dict.rankPtr := s.dict.rankPtr.set 2 (m + 1) }

theorem rotPick_single (ptr x : Nat) : rotPick ptr [x] = some x := by
  by_cases above : ptr ≤ x <;> simp [rotPick, above]

theorem groupOrder_single (s : State) (m : Nat) :
    groupOrder s 1 [mgmtCommit m] = (commitTurn s m, [mgmtCommit m]) := by
  simp [groupOrder, Requester.rank, Requester.number, rotPick_single, mgmtCommit, commitTurn]

/-- A lone commit is taken in its turn and answered; one that asks for no reset ends there. -/
theorem commit_single (reached : reaches s (.mgmt m) = true)
    (takes : commitOne (commitTurn s m) (mgmtCommit m) = (u, t))
    (noReset : t.reset = false) : Does (.commit [mgmtCommit m]) s (answerGroup [t] u) := by
  show execCommit [mgmtCommit m] s = _
  unfold execCommit
  simp only [List.filter_cons, List.filter_nil, mgmtCommit, reached, if_true, List.length_cons, List.length_nil]
  have order := groupOrder_single s m
  simp only [mgmtCommit] at order takes
  simp [order, takes, noReset]

theorem answerGroup_answers (noContract : t.contract = 0) (settled : isPending t = false) (quiet : t.q.a = none) :
    answerGroup [t] u = commitAnswer u t.q.who t.status [] := by
  simp [answerGroup, supersededBy, noContract, settled, listDone, quiet]

theorem answerGroup_keepsAnswer (noContract : t.contract = 0) (ok : t.status = 0) (outstanding : isPending t = true) :
    answerGroup [t] u = keepAnswer u t [] 0 [] := by
  simp [answerGroup, supersededBy, noContract, ok, outstanding]

theorem commitOne_denied {q : CommitReq} (mayNot : mayCommit s q = false) :
    commitOne s q = (s, { q := q, status := 0x20 }) := if_pos (by simp [mayNot])

/-- In service a commit of an empty set is answered with 0. -/
theorem commitOne_empty {q : CommitReq} (serving : s.rst.life = .service) (empty : (staging s q.who).entries = [])
    (may : mayCommit s q = true) : commitOne s q = (s, { q := q, status := 0 }) := by
  simp [commitOne, may, empty, serving]

/-- The oldest commit of a management requester is durable: the copy of row 0 changes, its values are there, and its
answer goes out. -/
theorem commitDurable_answers {b : Answering} (here : b.forwarded = false) (noEpoch : b.epoch = 0) (ok : b.status = 0)
    (noneSuperseded : b.superseded = []) (done : b.rest = []) (quiet : b.q.a = none)
    (oldest : (staging s (.mgmt m)).answering = [b]) : Does (.commitDurable (.mgmt m) 0) s (commitAnswer (saveKeys
      (setStaging { s with dict.copy := 1 - s.dict.copy } { staging s (.mgmt m) with answering := [] }) b.saved)
        (.mgmt m) 0 []) := by
  show execCommitDurable (.mgmt m) 0 s = _
  simp [execCommitDurable, oldest, here, noEpoch, ok, noneSuperseded, done, runList, listDone, quiet]

theorem commitDurable_none (nothing : (staging s (.mgmt m)).answering = []) :
    Does (.commitDurable (.mgmt m) 0) s s := by
  show execCommitDurable (.mgmt m) 0 s = _
  simp [execCommitDurable, nothing]

end

/-- Settles O55: requests by what serves them, a commit by what it answers. -/
theorem dictionaryAndCommits : Obligations.DictionaryAndCommits := by
  unfold Obligations.DictionaryAndCommits
  refine ⟨fun s m r v e reached toUs found here => ?requests, fun s u m t reached => ?commits⟩
  case requests =>
    refine ⟨fun served may noAlert noSample off len piece => ⟨?_, ?_⟩, fun served mayNot => ?_, fun served => ?_,
      dictWrite_stages reached toUs, discard_drops reached, discard_denied reached, rfl, dropSet_empties s _,
      fun a spares _ taken => dictWrite_empty taken⟩
    · exact dictRead_answers reached toUs (readOd_reads found here served may noAlert noSample piece false)
    · exact dictReadStaged_answers reached toUs (readOd_reads found here served may noAlert noSample piece true)
    · exact dictRead_answers reached toUs (readOd_denied found here served mayNot false)
    · exact dictDescribe_answers reached toUs (describeOd_describes found here served)
  case commits =>
    refine ⟨fun takes noContract settled noReset ours => ?_, fun takes noContract ok outstanding noReset ours => ?_,
      fun serving empty may => ⟨commitOne_empty serving empty may, ?_⟩, fun mayNot => ⟨commitOne_denied mayNot, ?_⟩,
      fun b => commitDurable_answers, commitDurable_none,
      fun image channels => congrArg Host.Outcome.next (if_neg (by simp [reached]))⟩
    · have answers := commit_single reached takes noReset
      rwa [answerGroup_answers noContract settled (by rw [ours]), ours] at answers
    · have answers := commit_single reached takes noReset
      rwa [answerGroup_keepsAnswer noContract ok outstanding] at answers
    · exact commit_single reached (commitOne_empty serving empty may) rfl
    · exact commit_single reached (commitOne_denied mayNot) rfl

end Sys2Proof.Machine
